-- ==== Sys2Proof/Word.lean ====
section
/-!
DEFINITION. Sys2Proof/Word.lean: the word types of the LV8 model and the sparse keyed list that holds every
indexed part of its state.
-/
namespace Sys2Proof

/-- One byte. -/
abbrev Byte := BitVec 8
/-- A 16-bit value. -/
abbrev Half := BitVec 16
/-- A 32-bit register word (R9). -/
abbrev Word := BitVec 32
/-- A 64-bit register, address or count (R9). -/
abbrev DWord := BitVec 64

/-- A sparse table: (key, value) pairs with strictly rising keys and no pair that holds what an unlisted key
reads as. Memory is the case `FMap Byte` (a list of `Host.Cell`). -/
abbrev FMap (α : Type) := List (Nat × α)

end Sys2Proof
end

