-- ==== Sys2Proof/Syntax.lean ====
section
/-!
DEFINITION. Sys2Proof/Syntax.lean: the commands of the LV8 block: one constructor for every row of the table of
operations and events, with the operands that the outside of the die gives it (a submission entry, an address and
a value, a reading). What a command reads of the device's own state is not an operand.
-/
namespace Sys2Proof

/-- A submission entry as fetched (R59): the queue it was fetched from and its 64 bytes. -/
structure Entry where
  queue : Nat
  bytes : List Byte
  deriving DecidableEq, Repr

/-- One reading of the die diode (R479, R480), in units of 0.25 °C, or a faulty one. -/
inductive Diode where
  | openD
  | shortD
  | temp (q : Int)
  deriving DecidableEq, Repr

/-- A host request to BAR2: a read of `len` bytes, or a write of `data` (each byte with its byte enable). -/
inductive MemAccess where
  | read (offset len : Nat)
  | write (offset : Nat) (data : List (Option Byte))
  deriving DecidableEq, Repr

/-- A worker's tunnelled access to host memory (R378): a write of bytes, or a read. -/
inductive HostReq where
  | write (addr : Nat) (data : List Byte)
  | read (addr len : Nat)
  deriving DecidableEq, Repr

/-- The header frame of a pushed block (R380). -/
structure PushHdr where
  push   : Nat
  index  : Nat
  count  : Nat
  mask   : Half
  dest   : Nat
  len    : Nat
  total  : Nat
  digest : List Byte
  deriving DecidableEq, Repr

/-- What the layers below a received frame say of it (R302, R321): whether its check sequence and every RS-FEC codeword of it were
right, and the codewords corrected and uncorrectable since the frame before. -/
structure FrameCheck where
  ok   : Bool
  corr : Nat := 0
  bad  : Nat := 0
  deriving DecidableEq, Repr

/-- What a patrol read of an LPDDR5X block gives (R292): 0 clean, 1 corrected, 2 uncorrectable; and the errors that link ECC has
corrected on the channel since the read before. -/
structure ScrubRead where
  found : Nat
  link  : Nat := 0
  deriving DecidableEq, Repr

/-- What a crossing tells with its closure (R494, R496): the items its surviving side presents while it is closed, and the requests
that it merged into counts since the closure before. -/
structure CrossCount where
  lost   : Nat
  merged : Nat := 0
  deriving DecidableEq, Repr

/-- The commands: one constructor per row of spec/opcode_table.json, in its order. A submission command carries
its entry; an instruction of a stream names its context and stream (its fields stand in the program store). -/
inductive Instr where
  /-- DEV_COMMIT (R446). Command that copies every RWK word and writes the SETTINGS and DEVICE records to the Colophon. -/
  | devCommit (e : Entry)
  /-- CTX_CREATE (R328). Command that creates a context with its format, redundancy level, CRITICAL flag, seed and a new epoch. -/
  | ctxCreate (e : Entry)
  /-- CTX_LOAD (R337). Command that checks a Thaska image and then places, stages or reattaches a generation letter according to context state. -/
  | ctxLoad (e : Entry) (image : List Byte) (bad : List Nat)
  /-- CTX_PROGRAM (R350). Command that programs a STAGED letter by SHADOW or INPLACE and makes it ACTIVE. -/
  | ctxProgram (e : Entry) (image : List Byte)
  /-- CTX_SWITCH (R352). Command that makes a RESIDENT letter ACTIVE at the next invocation boundary. -/
  | ctxSwitch (e : Entry)
  /-- CTX_SAVE (R361). Command that writes a save image of a READY context. -/
  | ctxSave (e : Entry)
  /-- CTX_RESTORE (R362). Command that checks a save image and reattaches a DORMANT context's letters without backing images. -/
  | ctxRestore (e : Entry) (data : List Byte) (bad : List Nat)
  /-- CTX_DESTROY (R364). Command that closes a context, erases its arrays and frees its resources and record. -/
  | ctxDestroy (e : Entry)
  /-- RUN (R217). Command that triggers one invocation of a context on host-fed data. -/
  | run (e : Entry)
  /-- SLOT_DESC (R311). Command that describes a slot, reads its section map and closes slots two or more older. -/
  | slotDesc (e : Entry) (map : List Byte)
  /-- SLOT_CLOSE (R314). Command that closes an open slot or returns the counts of a recently closed one. -/
  | slotClose (e : Entry)
  /-- CAL_RUN (R128). Command that runs converter self-calibration and/or a calibration run of a context on masked clusters. -/
  | calRun (e : Entry)
  /-- TEST_RUN (R423). Command that runs array and cluster tests, twin checks or copy comparisons on masked clusters. -/
  | testRun (e : Entry)
  /-- MARCH_RUN (R286). Command that starts a March C- or transparent march test on named memory instances. -/
  | marchRun (e : Entry)
  /-- COL_READ (R442). Command that reads Colophon bytes under the region's read password. -/
  | colRead (e : Entry)
  /-- COL_WRITE (R442). Command that merges bytes into Colophon pages and rewrites them as one step. -/
  | colWrite (e : Entry) (data : List Byte)
  /-- HKC_URGENT (R472). Command that takes a free housekeeping converter for one urgent conversion or is refused. -/
  | hkcUrgent (e : Entry)
  /-- DIGEST_QUERY (R354). Command that returns the configuration, generation or firmware digest. -/
  | digestQuery (e : Entry)
  /-- CENSUS (R390). Command on a manager that requests a census and writes its 16 entries. -/
  | census (e : Entry)
  /-- FW_STAGE (R523). Command that verifies a firmware image, writes it to the free flash region and renames the inactive slot onto it. -/
  | fwStage (e : Entry) (image : List Byte)
  /-- FW_ACTIVATE (R524). Command that verifies a staged slot, names it ACTIVE and loads it into every compositor. -/
  | fwActivate (e : Entry)
  /-- UNIT_FENCE (R414). Command that fences an array, cluster, compositor or Daisy lane. -/
  | unitFence (e : Entry)
  /-- UNIT_UNFENCE (R414). Command that puts a fenced unit into RETURNING. -/
  | unitUnfence (e : Entry)
  /-- ATTEST (R528). Command that writes a signed Gawahus report. -/
  | attest (e : Entry)
  /-- QUEUE_FETCH (R57). Device fetch of the next submission entry once a completion slot is reserved, in arbitrated queue order. -/
  | queueFetch (bytes : List Byte)
  /-- STATUS_RECORD_WRITE (R64). Write of the 256-byte status record after any of its fields changed. -/
  | statusRecordWrite
  /-- NOP (R239). Control instruction with no effect. -/
  | nop (ctx stream : Nat)
  /-- LOOP (R240). Control instruction that pushes a loop entry or skips the body on a zero trip count. -/
  | loop (ctx stream : Nat)
  /-- ENDLOOP (R241). Control instruction that decrements the top loop count and repeats or pops. -/
  | endloop (ctx stream : Nat)
  /-- BRC (R242). Control instruction that optionally decrements a counter and branches on a condition. -/
  | brc (ctx stream : Nat)
  /-- WAIT (R245). Control instruction that holds its stream until a semaphore reaches a value. -/
  | wait (ctx stream : Nat)
  /-- WAIT_MET (R210). A held WAIT is satisfied and subtracts its value, decided after all additions of the cycle. -/
  | waitMet (ctx stream : Nat) (cycles : Nat)
  /-- WAIT_LIMIT (R228). Expiry of CMP.WAITLIM for a WAIT or an unanswered XRECV, stopping the invocation with E_LIMIT. -/
  | waitLimit (ctx stream : Nat)
  /-- SIG (R245). Control instruction that adds a value to a semaphore. -/
  | sig (ctx stream : Nat)
  /-- HALT (R239). Control instruction that ends its stream. -/
  | halt (ctx stream : Nat)
  /-- SETA (R244). Control instruction that sets an address register or loop counter. -/
  | seta (ctx stream : Nat)
  /-- ADDA (R244). Control instruction that adds an immediate or scaled counter to a register. -/
  | adda (ctx stream : Nat)
  /-- MVM (R247). Array instruction that applies vectors to a logical array and writes or chains their results. -/
  | mvm (ctx stream : Nat)
  /-- MVMS (R247). Array instruction that applies split-segment sub-vectors to every group of an array. -/
  | mvms (ctx stream : Nat)
  /-- REFREAD (R248). Array instruction that reads an array's reference pairs and optionally stores the sums. -/
  | refread (ctx stream : Nat)
  /-- PMM (R249). Proof-engine instruction for dense real products into tiles. -/
  | pmm (ctx stream : Nat)
  /-- PMMC (R250). Proof-engine instruction applying 4x4 complex matrices to resource-element vectors. -/
  | pmmc (ctx stream : Nat)
  /-- POUT (R251). Proof-engine instruction that clips inputs and multiplies marked residuals into tiles. -/
  | pout (ctx stream : Nat)
  /-- DRAIN (R252). Instruction that drains a tile through the output unit to a destination. -/
  | drain (ctx stream : Nat)
  /-- ARGX (R253). Instruction that selects the maximum or minimum of a tile and writes or merges a record. -/
  | argx (ctx stream : Nat)
  /-- ASAVE (R254). Instruction that saves tiles as a full-width image. -/
  | asave (ctx stream : Nat)
  /-- ARESTORE (R254). Instruction that checks a saved image and restores it into tiles. -/
  | arestore (ctx stream : Nat)
  /-- AZERO (R255). Instruction that zeroes tiles and clears their flags. -/
  | azero (ctx stream : Nat)
  /-- MOVE (R256). Instruction that hands a descriptor to a cluster's mesh DMA mover. -/
  | move (ctx stream : Nat)
  /-- GATHER (R256). Instruction that hands a gather descriptor to the imposition engine. -/
  | gather (ctx stream : Nat)
  /-- PACK (R256). Instruction that hands a descriptor to the LLR packer. -/
  | pack (ctx stream : Nat)
  /-- RANK (R256). Instruction that hands a top-k descriptor to the ranker. -/
  | rank (ctx stream : Nat)
  /-- CHKPT (R258). Instruction held until its stream's earlier operations retire, then writing a checkpoint record. -/
  | chkpt (ctx stream : Nat)
  /-- DIGEST (R259). Instruction that has the configuration-digest block hash a memory extent and optionally compare it. -/
  | digest (ctx stream : Nat)
  /-- TESTVEC (R260). Instruction that has a test unit write a seeded random vector. -/
  | testvec (ctx stream : Nat)
  /-- CMPR (R261). Instruction that compares two tiles entry by entry and reports mismatches. -/
  | cmpr (ctx stream : Nat)
  /-- XSEND (R263). Instruction that reads a tile and sends it as a collective message upstream. -/
  | xsend (ctx stream : Nat)
  /-- XRECV (R264). Instruction that waits for a matching collective message and writes it into a tile. -/
  | xrecv (ctx stream : Nat)
  /-- INVOCATION_START (R218). Device start of a context's next invocation on all its streams once the previous has completed and boundary events applied. -/
  | invocationStart (ctx : Nat)
  /-- INVOCATION_END (R221). End of an invocation when every stream has halted and every operation retired, with its completion written. -/
  | invocationEnd (ctx : Nat)
  /-- INVOCATION_STOP (R224). Stop of an invocation: other streams stop, issued work retires, chains and semaphores are reset and the completion is written. -/
  | invocationStop (ctx : Nat)
  /-- ABORT (R225). Write of CMP.ABORT that stops a context's invocation in flight with E_STATE. -/
  | abort (cmp : Nat) (value : Word)
  /-- VECTOR_START (R79). An array begins a vector's phases, including any coarse re-conversion. -/
  | vectorStart (cluster array : Nat) (dev : List Int)
  /-- VECTOR_RESULT (R80). A vector's column results are delivered, checksum-compared and written to the tile or chain set. -/
  | vectorResult (cluster array : Nat) (residueOk : Bool)
  /-- TILE_OP_RELEASE (R155). Scoreboard release of a waiting tile writer or reader after the earlier operation finished. -/
  | tileOpRelease (cluster tile : Nat)
  /-- CLUSTER_ENTRY_RELEASE (R156). An operation waiting at the cluster entry for scoreboard or queue room proceeds. -/
  | clusterEntryRelease (cluster held : Nat)
  /-- PROOF_OP_RETIRE (R178). A proof-engine operation writes its last tile and retires. -/
  | proofOpRetire (cluster stall : Nat) (residueOk : Bool)
  /-- DRAIN_RETIRE (R163). A drain or ARGX writes its output and retires at step 12. -/
  | drainRetire (cluster stall : Nat)
  /-- ACC_OP_RETIRE (R215). ASAVE, ARESTORE or AZERO retires when its last tile is read or written. -/
  | accOpRetire (cluster : Nat)
  /-- MOVE_RETIRE (R197). A mover finishes a MOVE when its last byte stands at the destination. -/
  | moveRetire (cluster : Nat)
  /-- ENGINE_OP_RETIRE (R203). A GATHER, PACK or RANK operation of ENG0 to ENG2 retires. -/
  | engineOpRetire (engine stall : Nat)
  /-- REFREAD_DONE (R98). A REFREAD's 256 passes end, advancing REFCNT and storing sums if asked. -/
  | refreadDone (cluster array : Nat) (s0 s1 : Nat)
  /-- CHKPT_RECORD (R258). A held CHKPT writes its record once earlier operations have retired. -/
  | chkptRecord (ctx stream : Nat)
  /-- DIGEST_DONE (R259). The configuration-digest block finishes a DIGEST and any comparison. -/
  | digestDone
  /-- TESTVEC_DONE (R260). A test unit finishes writing a TESTVEC vector. -/
  | testvecDone (cluster : Nat)
  /-- CMPR_DONE (R261). A tile comparison completes, reporting or stopping on mismatch. -/
  | cmprDone (cluster : Nat)
  /-- XSEND_ACCEPTED (R263). The upstream port's transmit queue accepts a collective message's last word. -/
  | xsendAccepted
  /-- XRECV_MESSAGE (R264). A waiting XRECV takes a matching message, checks it and writes the tile. -/
  | xrecvMessage (cluster : Nat)
  /-- FRONTHAUL_FRAME (R302). A received Ethernet frame is checked, matched to a slot and its sections decompressed into S0. -/
  | fronthaulFrame (port : Nat) (frame : List Byte) (fcs : FrameCheck) (room : Bool)
  /-- PAUSE_TRANSMIT (R300). Port sends PAUSE as receive-buffer occupancy crosses XOFF or falls to XON. -/
  | pauseTransmit (port occupancy : Nat)
  /-- PAUSE_REPEAT (R300). Expiry of half the quanta time while above XON resends PAUSE. -/
  | pauseRepeat (port : Nat)
  /-- FH_LINK_CHANGE (R301). A fronthaul port's link comes up or goes down. -/
  | fhLinkChange (port : Nat) (up : Bool)
  /-- S0_BUFFER_ASSIGN (R281). Assignment of an S0 buffer to a slot once its descriptor is taken and slot n-2's invocation has ended. -/
  | s0BufferAssign (carrier : Nat)
  /-- EGRESS_WRITE (R319). Egress DMA writes the S3 blocks touched by a retired PACK to host memory. -/
  | egressWrite (carrier : Nat)
  /-- SLOT_COMPLETION (R320). After egress is issued, the slot's completion is written and its S3 buffer released. -/
  | slotCompletion (carrier : Nat)
  /-- DRIFT_CLOCK_READ (R119). REFREAD plus twin check of an array computing its effective age, triggered by VECCNT passing a multiple of 2^K or a calibration step. -/
  | driftClockRead (cluster array : Nat) (s0 s1 : Nat) (tw1 tw2 : List Int)
  /-- REFERENCE_STEP (R123). Reference step computes, checks and arms new gains for a context's arrays. -/
  | referenceStep (ctx : Nat)
  /-- STAT_WINDOW_CLOSE (R124). A statistics window closes when all arrays reach 65,536 samples or WINMAX invocations pass. -/
  | statWindowClose (ctx : Nat)
  /-- STAT_FIT (R125). Fitting computes, checks and arms gains and offsets from window statistics. -/
  | statFit (ctx : Nat)
  /-- CONVERTER_SELF_CAL (R112). Converter self-calibration of an array completes and sets its trims. -/
  | converterSelfCal (cluster array : Nat) (trims : List (Int × Int)) (tw1 tw2 : List Int)
  /-- TWIN_CHECK (R115). Twin check of an array's reference converters completes, repeating once on failure. -/
  | twinCheck (cluster array : Nat) (tw1 tw2 : List Int)
  /-- REFRESH_START (R132). Device starts programming a refresh target for a due array. -/
  | refreshStart (cluster : Nat)
  /-- ARRAY_PROGRAMMED (R346). Programming of one array ends with its baseline, twin check and state set, or fails. -/
  | arrayProgrammed (cluster array : Nat) (badRows badPairs : List Nat) (s0 s1 : Nat) (tw1 tw2 : List Int)
  /-- DOMAIN_REPOWER_RESTORE (R363). Restore of a READY context after its cluster-pair domain powers up again. -/
  | domainRepowerRestore (ctx : Nat)
  /-- ARRAY_TEST (R401). Scheduled array test applies a seeded vector after an invocation and compares eight outputs with exact references. -/
  | arrayTest (cluster array : Nat) (dev : List Int)
  /-- CLUSTER_TEST (R404). Cluster test falls due when the cluster's operation count passes a multiple of 2^K and runs its body. -/
  | clusterTest (cluster : Nat) (pass : Bool)
  /-- CLUSTER_TEST_PREEMPT (R405). MAXDEFER count reached: the waiting invocation is held, tiles saved, test run and tiles restored. -/
  | clusterTestPreempt (cluster : Nat) (pass : Bool)
  /-- DIGEST_ROUND (R356). After DIGPERIOD invocations, verified readbacks of every array compared with the recorded digest. -/
  | digestRound (ctx : Nat)
  /-- VERIFIED_READBACK (R355). Completion of an array's row-by-row verified readback rebuilding its weights. -/
  | verifiedReadback (cluster array : Nat) (s0 s1 : Nat) (dev : List (Nat × Int))
  /-- FAULT_EVENT (R399). The fault manager takes one report as an event, classifies it and may fence. -/
  | faultEvent (rep0 rep1 : Bool)
  /-- UNIT_RETURN (R415). A RETURNING unit passes or fails its epoch, weight and calibration checks and serves or is refenced. -/
  | unitReturn (unit : Half) (weightsOk secondOk calOk : Bool)
  /-- CMP_REPLACE_START (R226). A waiting compositor replacement starts when CMP16 is idle, copying its program store. -/
  | cmpReplaceStart
  /-- CMP_COPY_DONE (R226). CMP16's copy completes and next invocations of affected contexts move to CMP16. -/
  | cmpCopyDone
  /-- CMP_RELOAD (R226). After its last invocation ends, the compositor enters RELOADING and runs its reload self-test. -/
  | cmpReload
  /-- CMP_RELOAD_DONE (R227). Reload self-test result: program store reloaded and streams returned, or compositor fenced. -/
  | cmpReloadDone (pass : Bool)
  /-- CMP_CARRY_END (R226). CMP16's last carried invocation ends and it becomes idle. -/
  | cmpCarryEnd
  /-- MARCH_TEST_DONE (R285). A march test on an instance ends with repairs or unrepairable rows. -/
  | marchTestDone (memory unit : Nat) (bad : List (Nat × Nat))
  /-- LPX_TRAINING_DONE (R291). An LPDDR5X channel finishes training and zero fill, setting INITDONE. -/
  | lpxTrainingDone (channel : Nat) (density : Nat)
  /-- LPX_PATROL_SCRUB (R292). Expiry of the scrub interval patrol-reads one 64-byte block. -/
  | lpxPatrolScrub (channel : Nat) (outcome : ScrubRead)
  /-- LPX_MR4_POLL (R289). Periodic MR4 poll adjusting the refresh rate. -/
  | lpxMr4Poll (channel rate : Nat)
  /-- COLOPHON_STEP_START (R435). A waiting Colophon write step passes the supply check and starts. -/
  | colophonStepStart
  /-- COLOPHON_STEP_END (R436). A Colophon step finishes writing its home group or ring change. -/
  | colophonStepEnd
  /-- COLOPHON_WRITE_TIMEOUT (R435). A command's Colophon write waits 100 ms without passing and completes with E_POWER. -/
  | colophonWriteTimeout
  /-- POWER_ON_HOUR (R31). The always-on island counts another power-on hour and writes it. -/
  | powerOnHour
  /-- HOLDUP_MEASURE_DONE (R449). Holdup capacitance measurement ends and classifies the capacitor. -/
  | holdupMeasureDone (micros : Nat) (reached : Bool)
  /-- HOLDUP_READY (R450). The node reaches 0.98 V_T and the controller becomes READY. -/
  | holdupReady (mv : Nat)
  /-- HOLDUP_DROOP (R450). The node falls below 0.90 V_T and the controller enters FAULT. -/
  | holdupDroop (mv : Nat)
  /-- EUSABLE_UPDATE (R450). Every 10 us the usable energy is recomputed from the node voltage. -/
  | eusableUpdate (mv : Nat)
  /-- VDD_AON_FALL (R452). VDD_AON falls below 1.65 V: the Colophon runs from HOLD, the step ends, then isolation and bleed. -/
  | vddAonFall (written : Nat)
  /-- RAIL_DROOP (R543). A core rail below 90 % for 2 us acts as PERST_N until rails recover. -/
  | railDroop
  /-- PERST_N_ASSERT (R512). Assertion of PERST_N resets switched domains, compositors, non-retained registers and locks. -/
  | perstNAssert
  /-- PERST_N_RELEASE (R508). Release of PERST_N samples ROLE and starts the boot stages. -/
  | perstNRelease (role : Nat)
  /-- BOOT_STAGE_COMPLETE (R508). A boot stage completes and the next begins, or the boot stops under R510. -/
  | bootStageComplete
  /-- HOT_RESET (R555). Hot Reset or link-down returns configuration space, HIF and QUE pages to power-up values. -/
  | hotReset
  /-- ASPM_L1_ENTRY (R556). After 32 us idle the link enters L1. -/
  | aspmL1Entry
  /-- D3HOT_ENTRY (R554). Entry to D3hot stops queue fetching. -/
  | d3hotEntry
  /-- DIODE_READING (R479). Each 1 ms the thermal supervisor reads the diode and updates state and published temperature. -/
  | diodeReading (r : Diode)
  /-- GRACE_EXPIRY (R483). Throttle grace ends with the state still THROTTLE and enforcement begins. -/
  | graceExpiry
  /-- SENSOR_FAULT_TIMEOUT (R485). The diode stays faulty 250 ms and the device shuts down with cause SENSOR. -/
  | sensorFaultTimeout
  /-- THERMAL_TRIP (R488). The comparator trips and the device asserts THERMTRIP_N and switches every domain off. -/
  | thermalTrip
  /-- THERMAL_RESTART (R489). Ten readings below 90 C after a TEMP shutdown release THERMTRIP_N and restart the device. -/
  | thermalRestart
  /-- HKC_ENTRY_START (R463). The sequencer starts the next table entry when its converter is free and the delay has elapsed. -/
  | hkcEntryStart
  /-- HKC_OUTPUT (R469). A converter output reaches a data register or the entry's statistics. -/
  | hkcOutput (conv : Nat) (raw : Int) (past : Bool)
  /-- HKC_WRAP (R464). The sequencer wraps, applies staged writes and runs a due twin check. -/
  | hkcWrap
  /-- HKC_TWIN_CHECK (R474). Both converters convert channel 0 and the difference is judged. -/
  | hkcTwinCheck (a b : Int)
  /-- HKC_SELF_CAL (R473). Housekeeping self-calibration completes and sets accepted factors. -/
  | hkcSelfCal (factors : List (Int × Int))
  /-- HKC_URGENT_RESULT (R472). An urgent conversion ends and its command completes with the output. -/
  | hkcUrgentResult (raw : Int) (past : Bool)
  /-- QFREQ_RELOCK (R492). A quadrant's in-flight work retires, its PLL relocks and issue resumes at the new frequency. -/
  | qfreqRelock (quadrant : Nat)
  /-- DOMAIN_OFF_DONE (R500). A domain's gating sequence ends with the power switch open. -/
  | domainOffDone (domain : Nat)
  /-- DOMAIN_ON_DONE (R500). A domain's power-up sequence ends with crossings reopened and the domain ON. -/
  | domainOnDone (domain : Nat)
  /-- CROSSING_CLOSE (R496). ALIVE falls on one side and the surviving side closes the crossing. -/
  | crossingClose (src peer : Nat) (lost : CrossCount) (dropped : Nat)
  /-- CROSSING_REOPEN (R496). Both ALIVE are high again and the crossing reopens with fresh baselines. -/
  | crossingReopen (src peer : Nat)
  /-- DAISY_LINK_UP (R366). A Daisy link comes up, and DSY1 of a positioned device sends ENUM. -/
  | daisyLinkUp (port peer : Nat)
  /-- ENUM_RECEIVED (R368). A worker takes, keeps or changes its position from an ENUM and forwards it. -/
  | enumReceived (port pos : Nat)
  /-- END_RECEIVED (R366). The END frame reaches the manager, which sets CHAIN.COUNT. -/
  | endReceived (pos : Nat)
  /-- POSITION_LOSS (R367). DSY0 stays down over 100 ms and the worker loses its position. -/
  | positionLoss
  /-- DAISY_NAK (R370). A NAK or failed frame causes resend from the replay buffer. -/
  | daisyNak (port : Nat)
  /-- LANE_FAIL (R372). A lane loses lock or reaches its error threshold and its data moves to the spare lane. -/
  | laneFail (port lane : Nat)
  /-- DAISY_LINK_RESET (R374). A link resets and retrains, possibly at half width. -/
  | daisyLinkReset (port : Nat) (healthy : Nat)
  /-- COLL_MESSAGE_RECEIVED (R383). A collective message arriving on DSY1 is delivered or forwarded by its tag. -/
  | collMessageReceived (msg : List Byte)
  /-- REMOTE_REG_ACCESS (R376). A worker performs a REG-frame register access from the manager's remote window. -/
  | remoteRegAccess (write : Bool) (offset size : Nat) (value : DWord)
  /-- TUNNEL_REQUEST (R378). The manager issues a worker's tunnelled host-memory access on its own link. -/
  | tunnelRequest (position : Nat) (req : HostReq)
  /-- TUNNEL_TIMEOUT (R378). A tunnelled request waiting over 50 ms fails and its command completes with E_LINK. -/
  | tunnelTimeout (e : Entry)
  /-- PUSH_BLOCK (R380). A device receives, checks, stores and forwards one pushed image block. -/
  | pushBlock (hdr : PushHdr) (data : List Byte)
  /-- PUSH_DONE (R381). The highest targeted device acknowledges the last block and the push is DONE. -/
  | pushDone
  /-- PUSH_FAIL (R382). A push fails on repeated refusal, range, INITDONE or a link down over 100 ms. -/
  | pushFail (code position : Nat)
  /-- CENSUS_START (R388). A requested or automatic census starts when none is in flight, sending the token. -/
  | censusStart
  /-- CENSUS_TOKEN (R388). A device adds its census entry when the token arrives and PENDING clears, then passes it on. -/
  | censusToken (entries : List (List Byte))
  /-- CENSUS_FINISH (R390). The token returns or 2 ms pass, and the census results are recorded. -/
  | censusFinish (entries : List (List Byte)) (inTime : Bool)
  /-- CONFIG_DIGEST_PUBLISH (R387). The block publishes the epoch and configuration digest after a change. -/
  | configDigestPublish
  /-- LOW_WORD_READ (R49). 4-byte read of a 64-bit register's low word latching the high half into SNAP_HI. -/
  | lowWordRead (offset : Nat)
  /-- LOW_WORD_WRITE (R50). 4-byte write of a 64-bit low word replacing the page's staging word. -/
  | lowWordWrite (offset : Nat) (value : Word)
  /-- HIGH_WORD_WRITE (R50). Write of a 64-bit high word committing both halves. -/
  | highWordWrite (offset : Nat) (value : Word)
  /-- BAR0_ODD_ACCESS (R36). BAR0 access of another size or alignment, rejected, returned without side effects or Unsupported Request. -/
  | bar0OddAccess (write : Bool) (offset size : Nat)
  /-- BAR0_UNMAPPED (R37). Access to an unmapped BAR0 offset reads 0 or is discarded and recorded. -/
  | bar0Unmapped (write : Bool) (offset : Nat)
  /-- BAR2_ACCESS (R39). Host access to BAR2 split by byte into mapped and unmapped parts. -/
  | bar2Access (a : MemAccess)
  /-- ROTATE_ALIAS_ACCESS (R271). Host access through the byte-lane rotate alias. -/
  | rotateAliasAccess (a : MemAccess)
  /-- SET_ALIAS_WRITE (R272). Host write through the bit-set alias as an atomic read-OR-write per line. -/
  | setAliasWrite (a : MemAccess)
  /-- CLEAR_ALIAS_WRITE (R272). Host write through the bit-clear alias as an atomic read-AND-NOT-write per line. -/
  | clearAliasWrite (a : MemAccess)
  /-- APERTURE_ACCESS (R294). Host access through the LPDDR5X aperture at APBASE. -/
  | apertureAccess (a : MemAccess)
  /-- REMOTE_WINDOW_ACCESS (R376). Manager host access to the remote window forwarded to the selected worker. -/
  | remoteWindowAccess (write : Bool) (offset size : Nat) (value : DWord)
  /-- REGISTER_WRITE (R45). Checked write to a register with no behaviour of its own, rejected whole on fault. -/
  | registerWrite (offset : Nat) (value : Word)
  /-- SQ_DOORBELL (R55). Write of SQ_TAIL making entries available for fetch. -/
  | sqDoorbell (queue : Nat) (value : Word)
  /-- CQ_HEAD_WRITE (R55). Write of CQ_HEAD freeing completion slots and releasing a stalled queue. -/
  | cqHeadWrite (queue : Nat) (value : Word)
  /-- QUEUE_ENABLE (R54). Write of QUE.CTRL.EN resetting indices or stopping fetch. -/
  | queueEnable (queue : Nat) (value : Word)
  /-- STATCTRL_WRITE (R65). Setting HIF.STATCTRL.EN writes a status record at once. -/
  | statctrlWrite (value : Word)
  /-- ARR_CNTCLR (R107). Write of ARR.CNTCLR clearing the selected array's counters between vectors. -/
  | arrCntclr (cluster : Nat) (value : Word)
  /-- FHP_CNTCLR (R322). Write of FHP.CNTCLR clearing every counter of the port page. -/
  | fhpCntclr (port : Nat) (value : Word)
  /-- RBSEL_GO (R168). Write of ACC.RBSEL with GO requesting a readback of one entry. -/
  | rbselGo (cluster : Nat) (value : Word)
  /-- READBACK_ARRIVE (R168). Readback result arrives in RBDATA four cycles after scoreboard release. -/
  | readbackArrive (cluster : Nat)
  /-- RBDATA_READ (R168). Read of RBDATA that consumes the held result. -/
  | rbdataRead (cluster size : Nat)
  /-- MAINT_WRITE (R273). Write of SPD.CTRL.MAINT accepted only before READY or while fenced. -/
  | maintWrite (cluster : Nat) (value : Word)
  /-- SLACK (R418). Write of FLT.SLACK emptying and unfreezing a context's suspect log. -/
  | slack (value : Word)
  /-- PERIOD_WRITE (R422). Write of TST.PERIOD taking effect at each context's next round with a new round base. -/
  | periodWrite (value : Word)
  /-- PASSWORD_CHANGE (R445). Write of COL.PWCTL with GO changing a region password via the PASSWORD home. -/
  | passwordChange (value : Word)
  /-- REMEASURE (R449). Write of HLD.REMEASURE starting a new holdup measurement. -/
  | remeasure (value : Word)
  /-- SCALGO (R473). Write of HKC.SCALGO starting housekeeping self-calibration. -/
  | scalgo (value : Word)
  /-- STATCAP (R471). Write of HKC.STATCAP capturing and optionally clearing an entry's statistics. -/
  | statcap (value : Word)
  /-- STATACT_CLEAR (R470). W1C write of STATACT returning entries to their data registers. -/
  | statactClear (value : Word)
  /-- HKC_STAGED_WRITE (R465). Write of ENTRY, SEQLEN or LOWPWR staged until the next wrap while the sequencer runs. -/
  | hkcStagedWrite (offset : Nat) (value : Word)
  /-- HKC_CTRL_RUN (R464). Setting or clearing HKC.CTRL.RUN starting or stopping the sequencer. -/
  | hkcCtrlRun (value : Word)
  /-- HKC_DATA_READ (R469). Read of DATAi that consumes its held output. -/
  | hkcDataRead (entry size : Nat)
  /-- PEAKCLR (R502). Write of THM.PEAKCLR setting PEAK to the present reading. -/
  | peakclr (value : Word)
  /-- TRIP_WRITE (R486). Write of THM.TRIP setting the shutdown level and lock under RWL rules. -/
  | tripWrite (value : Word)
  /-- QFREQ_WRITE (R492). Write of PWR.QFREQ starting a quadrant frequency change. -/
  | qfreqWrite (value : Word)
  /-- POWER_REQUEST_WRITE (R498). Write of GATE or PWR.DCTL changing a domain's power request and starting a sequence. -/
  | powerRequestWrite (offset : Nat) (value : Word)
  /-- FHP_CFG_WRITE (R301). Write of FHP.CFG enabling or disabling a port and its link. -/
  | fhpCfgWrite (port : Nat) (value : Word)
  /-- GAL_MAP_WRITE (R280). Write of an S0 or S3 map of a carrier. -/
  | galMapWrite (offset : Nat) (value : Word)
  /-- DSY_CFG_WRITE (R374). Write of DSY.CFG, where clearing and setting EN resets the link. -/
  | dsyCfgWrite (port : Nat) (value : Word)
  /-- PUSH_GO (R379). Write of DSY1.PUSHCTL with GO starting an image push. -/
  | pushGo (value : Word)
  /-- ALIGN (R386). Write of CFG.ALIGN raising the configuration epoch. -/
  | align (value : Word)
  /-- RBCOMMIT (R522). Write of SEC.RBCOMMIT raising SVNMIN and updating the directory. -/
  | rbcommit (value : Word)
  /-- LOCK_WRITE (R527). Write of SEC.LOCK setting security locks. -/
  | lockWrite (value : Word)
  /-- LOCKBOOT_WRITE (R527). Write of SEC.LOCKBOOT setting locks applied at READY. -/
  | lockbootWrite (value : Word)
  /-- TAP_INSTRUCTION (R557). Update-IR loads a test access port instruction, with EXTEST, CLAMP and HIGHZ acting only under PERST_N. -/
  | tapInstruction (code : Byte)
  /-- ARRAY_PROBE (R559). Update-DR of ARRAY_PROBE selecting an analogue test-bus source. -/
  | arrayProbe (value : Word)
  /-- MBIST_ACCESS (R560). Update-DR of MBIST_ACCESS starting a march test. -/
  | mbistAccess (value : DWord)
  /-- SCAN_LOCK_STATUS (R561). Capture of lock and boot state through the test access port. -/
  | scanLockStatus
  /-- POWER_UP (R542). Supplies rise and VDD_AON reaches 1.71 V, bringing up the always-on island with every non-retained state at its power-up value. -/
  | powerUp
  /-- RAIL_RECOVERY (R543). After a core-rail droop, all four rails have been within tolerance for 10 ms and the device starts at stage 1 with START.CAUSE 0. -/
  | railRecovery (role : Nat)
  /-- PCIE_LINK_UP (R555). The host link trains and comes up again, ending the discard of completions, records and egress writes. -/
  | pcieLinkUp
  /-- ATTEST_REPORT_DONE (R529). Production of a Gawahus report ends, writing its 17,296 bytes and then the ATTEST completion. -/
  | attestReportDone
  /-- FW_STAGE_DONE (R523). The flash write, read-back verification and directory write of a staged image finish and FW_STAGE completes. -/
  | fwStageDone (readBackOk dirOk : Bool)
  deriving DecidableEq, Repr

end Sys2Proof
end

