-- ==== Sys2Proof/Decode.lean ====
section
/-!
DEFINITION. Sys2Proof/Decode.lean: the block's command table gives no row any bits, so no word spells a command. (The
128-bit words of a stream's instructions stand in the program store: Machine/Operands.lean reads them.)
-/
namespace Sys2Proof

/-- The command that a word of the command table spells: none, since no row of the table has bits. -/
def decodeTableWord (_nbits _w : Nat) : Option Instr := none

end Sys2Proof
end

