-- ==== Sys2Proof/Config.lean ====
section
/-!
DEFINITION. Sys2Proof/Config.lean: the codes every block shares (R46), the identity of the part (R2), and the
free values: what the manual leaves open and nothing in this model may know (opaque, no body).
-/
namespace Sys2Proof

/-- The codes of registers, completions and compositor status (R46), in code order from 0x00. -/
inductive Code where
  | ok | value | rsvd | busy | lock | state | range | align | nospace | digest | sig | power | fenced
  | epoch | thermal | parity | opcode | limit | ambig | degraded | late | link
  deriving DecidableEq, Repr

/-- The number of a code (R46). -/
def Code.num : Code → Nat
  | .ok => 0x00 | .value => 0x01 | .rsvd => 0x02 | .busy => 0x03 | .lock => 0x04 | .state => 0x05
  | .range => 0x06 | .align => 0x07 | .nospace => 0x08 | .digest => 0x09 | .sig => 0x0A | .power => 0x0B
  | .fenced => 0x0C | .epoch => 0x0D | .thermal => 0x0E | .parity => 0x0F | .opcode => 0x10 | .limit => 0x11
  | .ambig => 0x12 | .degraded => 0x13 | .late => 0x14 | .link => 0x15

namespace Config

/-- The Device ID of the configuration space, and the part number of IDCODE (R2). -/
def deviceId : Half := 0x4C38
/-- The Revision ID: stepping B1 (R2). -/
def revisionId : Byte := 0xB1
/-- The Vendor ID assigned to Dwemund, which R2 does not give as a number. Free. -/
opaque vendorId : Half
/-- Dwemund's JEDEC manufacturer identity, which R2 does not give as a number. Free. -/
opaque jedecId : BitVec 11
/-- IDCODE: version 3 (stepping B1), part number, manufacturer, and a 1 (R2). -/
def idcode : Word := (3#4 ++ deviceId ++ jedecId ++ 1#1)

/-- Unit serial number, set at manufacture (R513: "unique per unit"). Free. -/
opaque serial : BitVec 64
/-- The fused SHA-384 of the RSA modulus that Dwemund signs with (R518). Free. -/
opaque fuseRsa : List Byte
/-- The fused SHA-384 of the SLH-DSA public key that Dwemund signs with (R518). Free. -/
opaque fuseSlh : List Byte
/-- SLH-DSA-SHA2-192s verification of a signature over a message under a public key (R517 names the standard
and gives no computation). Free. -/
opaque slhVerify : List Byte → List Byte → List Byte → Bool
/-- The unit's public RSA modulus and SLH-DSA key (R528). Free. -/
opaque unitRsaKey : List Byte
opaque unitSlhKey : List Byte
/-- The unit's signatures over a report's bytes; the counter is the model's own free-value counter (R528). Free. -/
opaque rsaSign : Nat → List Byte → List Byte
opaque slhSign : Nat → List Byte → List Byte
/-- A rounding direction that the manual does not state (R119: L in Q6.10, AGE in seconds, RATIO in Q2.16; R123:
the new gain in Q2.14; R449: CAP in microfarads). Free. -/
opaque roundUp : Nat → Bool
/-- A value that the manual leaves undefined or gives no rule for, of the width asked for; the argument is the
model's free-value counter. Free. -/
opaque freeValue : Nat → BitVec 64
/-- Value after power-up of a register or field that the manual marks "—" and no rule sets (R16), by BAR0 offset. Free. -/
opaque unsetWord : Nat → BitVec 32
/-- Where a fixed engine's or mover's write stopped by a parity error leaves old bytes (R198: each byte "holds its
new value or its old one"): whether byte `i` of stop `n` is new. Free. -/
opaque partialNew : Nat → Nat → Bool
/-- Crossings of a pair of islands: whether the pair has any, and how many (R507 gives no list). Free. -/
opaque crossings : Nat → Nat → Nat

end Config

end Sys2Proof
end

