-- ==== Sys2Proof/Machine/Map.lean ====
section
/-!
DEFINITION. Sys2Proof/Machine/Map.lean: reading and writing a sparse table in its canonical form, and byte
strings over it (little-endian, R9).
-/
namespace Sys2Proof.Machine

/-- What key `k` holds; `d` is what an unlisted key reads as. -/
def FMap.get {α : Type} (d : α) : FMap α → Nat → α
  | [], _ => d
  | (k, v) :: r, a => if a = k then v else FMap.get d r a

/-- The table without key `k`. -/
def FMap.erase {α : Type} (m : FMap α) (k : Nat) : FMap α := m.filter (fun p => p.1 != k)

/-- An entry put in its place by key. -/
def FMap.ins {α : Type} : FMap α → Nat → α → FMap α
  | [], k, v => [(k, v)]
  | (k', v') :: r, k, v => if k < k' then (k, v) :: (k', v') :: r else (k', v') :: FMap.ins r k v

/-- The table with `v` at key `k`, in canonical form: rising keys, no entry equal to the unlisted value `d`. -/
def FMap.put {α : Type} [DecidableEq α] (d : α) (m : FMap α) (k : Nat) (v : α) : FMap α :=
  if v = d then FMap.erase m k else FMap.ins (FMap.erase m k) k v

/-- The entry at key `k` changed by `f`. -/
def FMap.upd {α : Type} [DecidableEq α] (d : α) (m : FMap α) (k : Nat) (f : α → α) : FMap α :=
  FMap.put d m k (f (FMap.get d m k))

/-- Keys rise strictly from above `lo` and no entry equals the unlisted value. -/
def FMap.wfFrom {α : Type} [DecidableEq α] (d : Nat → α) : Option Nat → FMap α → Bool
  | _, [] => true
  | lo, (k, v) :: r =>
    (match lo with | none => true | some l => decide (l < k)) && decide (v ≠ d k) && FMap.wfFrom d (some k) r

/-- The canonical form; `d k` is what key `k` reads as while it is not listed. -/
def FMap.wf {α : Type} [DecidableEq α] (d : Nat → α) (m : FMap α) : Bool := FMap.wfFrom d none m

/-- The canonical form of a memory whose unlisted bytes read as 0. -/
def Memory.wf (m : FMap Byte) : Bool := FMap.wf (fun _ => 0#8) m

/-- Every entry's value changed by `f` (used for "every listed unit" rules); entries that become `d` go. -/
def FMap.mapVals {α : Type} [DecidableEq α] (d : α) (f : Nat → α → α) : FMap α → FMap α
  | [] => []
  | (k, v) :: r => let v' := f k v; if v' = d then FMap.mapVals d f r else (k, v') :: FMap.mapVals d f r

/-- `n` bytes from address `a`. -/
def readBytes (d : Byte) (m : FMap Byte) (a : Nat) : Nat → List Byte
  | 0 => []
  | n + 1 => FMap.get d m a :: readBytes d m (a + 1) n

/-- The table with the bytes `bs` written from address `a` upwards. -/
def writeBytes (d : Byte) (m : FMap Byte) (a : Nat) : List Byte → FMap Byte
  | [] => m
  | b :: bs => writeBytes d (FMap.put d m a b) (a + 1) bs

/-- Little-endian value of a byte string (R9). -/
def leNat : List Byte → Nat
  | [] => 0
  | b :: bs => b.toNat + 256 * leNat bs

/-- The `n` little-endian bytes of a value (R9). -/
def leBytes : Nat → Nat → List Byte
  | 0, _ => []
  | n + 1, v => BitVec.ofNat 8 v :: leBytes n (v / 256)

/-- Big-endian value of a byte string (network order, R303; RSA moduli, R517). -/
def beNat (bs : List Byte) : Nat := bs.foldl (fun a b => 256 * a + b.toNat) 0

/-- `n` bytes of a byte string from offset `o`; bytes past its end read 0. -/
def sliceB (bs : List Byte) (o n : Nat) : List Byte :=
  let t := (bs.drop o).take n
  t ++ List.replicate (n - t.length) 0#8

/-- Little-endian field of `n` bytes at offset `o`. -/
def fieldLe (bs : List Byte) (o n : Nat) : Nat := leNat (sliceB bs o n)

/-- Whether every one of the `n` bytes at offset `o` is 0. -/
def zeroAt (bs : List Byte) (o n : Nat) : Bool := (sliceB bs o n).all (fun b => b == 0#8)

/-- Bits [hi:lo] of a value. -/
def bits (v hi lo : Nat) : Nat := (v >>> lo) % 2 ^ (hi - lo + 1)

/-- Bit `i` of a value. -/
def bit (v i : Nat) : Bool := Nat.testBit v i

/-- 1 for true. -/
def b2n (b : Bool) : Nat := if b then 1 else 0

/-- `⌈a / b⌉`. -/
def ceilDiv (a b : Nat) : Nat := if b = 0 then 0 else (a + b - 1) / b

/-- A value held at a largest value `2 ^ w - 1` (a saturating counter, R105). -/
def satNat (w v : Nat) : Nat := min v (2 ^ w - 1)

/-- Signed value of `w` bits in two's complement. -/
def sext (w v : Nat) : Int := if v % 2 ^ w < 2 ^ (w - 1) then ((v % 2 ^ w : Nat) : Int) else ((v % 2 ^ w : Nat) : Int) - (2 ^ w : Nat)

/-- Two's complement of `w` bits. -/
def toBits (w : Nat) (v : Int) : Nat := (v % ((2 ^ w : Nat) : Int)).toNat

/-- An integer held inside [lo, hi]. -/
def clampI (lo hi v : Int) : Int := if v < lo then lo else if hi < v then hi else v

/-- `m` is newer than `n` as a 32-bit serial number (R306, R430). -/
def newer32 (m n : Nat) : Bool := let d := (m + 2 ^ 32 - n % 2 ^ 32) % 2 ^ 32; decide (1 ≤ d ∧ d ≤ 2 ^ 31 - 1)

/-- `m` is newer than `n` as a 16-bit serial number (R437, R490). -/
def newer16 (m n : Nat) : Bool := let d := (m + 2 ^ 16 - n % 2 ^ 16) % 2 ^ 16; decide (1 ≤ d ∧ d ≤ 2 ^ 15 - 1)

/-- `a / b` rounded to the nearest integer, ties to even. -/
def divRNE (a : Int) (b : Nat) : Int :=
  let q := a / (b : Int)
  let r := a % (b : Int)
  if 2 * r < b then q else if 2 * r > b then q + 1 else if q % 2 = 0 then q else q + 1

/-- `a / b` rounded to the nearest integer, ties away from zero. -/
def divRNA (a : Int) (b : Nat) : Int :=
  let m := (2 * a.natAbs + b) / (2 * b)
  if a < 0 then -(m : Int) else (m : Int)

/-- Element `i` of a list, `d` past its end. -/
def nth {α : Type} (d : α) : List α → Nat → α
  | [], _ => d
  | x :: _, 0 => x
  | _ :: r, n + 1 => nth d r n

/-- The list with element `i` changed by `f` (unchanged past its end). -/
def modifyNth {α : Type} (f : α → α) : List α → Nat → List α
  | [], _ => []
  | x :: r, 0 => f x :: r
  | x :: r, n + 1 => x :: modifyNth f r n

/-- First index whose element satisfies `p`. -/
def findIdx {α : Type} (p : α → Bool) : List α → Nat → Option Nat
  | [], _ => none
  | x :: r, i => if p x then some i else findIdx p r (i + 1)

end Sys2Proof.Machine
end

