-- ==== Sys2Proof/Machine/RegMap.lean ====
section
/-!
DEFINITION. Sys2Proof/Machine/RegMap.lean: the BAR0 map (R34, R35), the block types (R42) and every
block-specific register: offset, width, access code, value after power-up or factory value, and the legality of
its writable fields (the register tables of the page chapters).
-/
namespace Sys2Proof.Machine

/-- The block types of R42, in code order from 0x01. -/
inductive PType where
  | dev | hif | que | fhp | gal | clu | arr | acc | out | prf | spd | cal | cmp | noc | dsy | lpx | col | hkc
  | thm | hld | flt | tst | sec | cfg | pwr | eng | xng
  deriving DecidableEq, Repr

def PType.code : PType → Nat
  | .dev => 0x01 | .hif => 0x02 | .que => 0x03 | .fhp => 0x04 | .gal => 0x05 | .clu => 0x06 | .arr => 0x07
  | .acc => 0x08 | .out => 0x09 | .prf => 0x0A | .spd => 0x0B | .cal => 0x0C | .cmp => 0x0D | .noc => 0x0E
  | .dsy => 0x0F | .lpx => 0x10 | .col => 0x11 | .hkc => 0x12 | .thm => 0x13 | .hld => 0x14 | .flt => 0x15
  | .tst => 0x16 | .sec => 0x17 | .cfg => 0x18 | .pwr => 0x19 | .eng => 0x1A | .xng => 0x1B

/-- Instances of a block type (R34, R35). -/
def PType.instances : PType → Nat
  | .que => 4 | .fhp => 4 | .cmp => 17 | .dsy => 2 | .lpx => 2 | .eng => 3
  | .clu => 64 | .arr => 64 | .acc => 64 | .out => 64 | .prf => 64 | .spd => 64 | .cal => 64
  | _ => 1

/-- The seven pages of a cluster's block, in offset order (R35). -/
def clusterPage : Nat → Option PType
  | 0 => some .clu | 1 => some .arr | 2 => some .acc | 3 => some .out | 4 => some .prf | 5 => some .spd
  | 6 => some .cal | _ => none

/-- The page at page number `off / 4096` (R34, R35): its type and instance. -/
def pageAt (p : Nat) : Option (PType × Nat) :=
  if p = 0 then some (.dev, 0) else if p = 1 then some (.hif, 0)
  else if 2 ≤ p ∧ p ≤ 5 then some (.que, p - 2)
  else if 0x10 ≤ p ∧ p ≤ 0x13 then some (.fhp, p - 0x10)
  else if p = 0x20 then some (.gal, 0)
  else if 0x21 ≤ p ∧ p ≤ 0x23 then some (.eng, p - 0x21)
  else if 0x30 ≤ p ∧ p ≤ 0x40 then some (.cmp, p - 0x30)
  else if p = 0x41 ∨ p = 0x42 then some (.dsy, p - 0x41)
  else if p = 0x43 then some (.noc, 0)
  else if p = 0x44 ∨ p = 0x45 then some (.lpx, p - 0x44)
  else if p = 0x50 then some (.col, 0) else if p = 0x51 then some (.hld, 0) else if p = 0x52 then some (.hkc, 0)
  else if p = 0x53 then some (.thm, 0) else if p = 0x54 then some (.pwr, 0) else if p = 0x55 then some (.flt, 0)
  else if p = 0x56 then some (.tst, 0) else if p = 0x57 then some (.sec, 0) else if p = 0x58 then some (.cfg, 0)
  else if p = 0x59 then some (.xng, 0)
  else if 0x1000 ≤ p ∧ p ≤ 0x13FF then (clusterPage ((p - 0x1000) % 16)).map (fun t => (t, (p - 0x1000) / 16))
  else none

/-- BAR0 offset of a page's first byte (the inverse of `pageAt`). -/
def pageBase : PType → Nat → Nat
  | .dev, _ => 0 | .hif, _ => 0x1000 | .que, i => 0x2000 + i * 0x1000 | .fhp, i => 0x10000 + i * 0x1000
  | .gal, _ => 0x20000 | .eng, i => 0x21000 + i * 0x1000 | .cmp, i => 0x30000 + i * 0x1000
  | .dsy, i => 0x41000 + i * 0x1000 | .noc, _ => 0x43000 | .lpx, i => 0x44000 + i * 0x1000
  | .col, _ => 0x50000 | .hld, _ => 0x51000 | .hkc, _ => 0x52000 | .thm, _ => 0x53000 | .pwr, _ => 0x54000
  | .flt, _ => 0x55000 | .tst, _ => 0x56000 | .sec, _ => 0x57000 | .cfg, _ => 0x58000 | .xng, _ => 0x59000
  | .clu, c => 0x1000000 + c * 0x10000 | .arr, c => 0x1001000 + c * 0x10000 | .acc, c => 0x1002000 + c * 0x10000
  | .out, c => 0x1003000 + c * 0x10000 | .prf, c => 0x1004000 + c * 0x10000 | .spd, c => 0x1005000 + c * 0x10000
  | .cal, c => 0x1006000 + c * 0x10000

/-- Access codes (R14). -/
inductive Acc where
  | ro | rw | wo | w1c | rwk | rwl
  deriving DecidableEq, Repr

/-- What a writable field admits (R11, R45): anything; only 0 (a reserved field); the encodings up to a largest
one, the rest reserved; a range, with the code of a value outside it; a multiple of `2^n`. -/
inductive Chk where
  | any
  | rsvd
  | enc (max : Nat)
  | rng (lo hi : Nat) (c : Code)
  | algn (n : Nat)
  deriving DecidableEq, Repr

/-- A writable field of a register. -/
structure Fld where
  hi  : Nat
  lo  : Nat
  chk : Chk
  deriving DecidableEq, Repr

/-- A block-specific register: page offset, whether it is 64 bits wide, access code, value after power-up (for an
RWK register its factory value), writable fields, and how many registers of its kind follow each other. -/
structure Reg where
  off   : Nat
  wide  : Bool
  acc   : Acc
  reset : Nat
  flds  : List Fld
  count : Nat := 1
  deriving DecidableEq, Repr

def f (hi lo : Nat) (c : Chk) : Fld := ⟨hi, lo, c⟩
/-- A read-only register. -/
def ro (off : Nat) : Reg := ⟨off, false, .ro, 0, [], 1⟩
def ro64 (off : Nat) : Reg := ⟨off, true, .ro, 0, [], 1⟩
def rw (off reset : Nat) (fl : List Fld) : Reg := ⟨off, false, .rw, reset, fl, 1⟩
def rw64 (off : Nat) (fl : List Fld) : Reg := ⟨off, true, .rw, 0, fl, 1⟩
def rwk (off factory : Nat) (fl : List Fld) : Reg := ⟨off, false, .rwk, factory, fl, 1⟩
def rwk64 (off factory : Nat) (fl : List Fld) : Reg := ⟨off, true, .rwk, factory, fl, 1⟩
def wo (off : Nat) (fl : List Fld) : Reg := ⟨off, false, .wo, 0, fl, 1⟩

/-- A selector of `n` bits at the bottom of a register, the rest reserved. -/
def sel (off n : Nat) : Reg := rw off 0 [f (n - 1) 0 .any, f 31 n .rsvd]

/-- ENTRY0 to ENTRY31 of the factory supply scan (R466, R477). -/
def hkcEntry : Reg := rwk64 0x200 0 [f 5 0 (.rng 0 47 .value), f 7 6 (.enc 2), f 9 8 (.enc 2), f 13 10 .any, f 15 14 (.enc 2),
  f 17 16 (.enc 2), f 23 18 .rsvd, f 31 24 (.rng 1 255 .value), f 47 32 .any, f 63 48 .rsvd]

/-- The registers of DEV, HIF and QUE (R513, R65, R53). -/
def regsHost : PType → List Reg
  | .dev => [ro 0x40, ro 0x44, ro 0x48, ro 0x4C, ro64 0x50, ro 0x58]
  | .hif => [rw64 0x40 [f 7 0 (.algn 8), f 63 8 .any], rw 0x48 0 [f 0 0 .any, f 31 1 .rsvd], ro 0x4C,
      rwk64 0x50 0 [f 29 0 (.algn 30), f 63 30 .any], ro 0x58, ro 0x5C, ro 0x60, ro 0x64]
  | .que => [rw64 0x40 [f 11 0 (.algn 12), f 63 12 .any], rw 0x48 4 [f 4 0 (.rng 4 16 .value), f 31 5 .rsvd],
      rw 0x4C 0 [f 31 0 .any], ro 0x50, rw 0x54 0 [f 31 0 .any], rw64 0x58 [f 11 0 (.algn 12), f 63 12 .any],
      rw 0x60 4 [f 4 0 (.rng 4 16 .value), f 31 5 .rsvd], ro 0x64, rw 0x68 0 [f 0 0 .any, f 31 1 .rsvd], ro 0x6C,
      ro 0x70, ro64 0x78]
  | _ => []

/-- The registers of FHP, GAL, ENG, CMP, DSY and LPX (R321 to R323, R282, R283, R201, R228, R229, R391, R392,
R296, R297). -/
def regsFabric : PType → List Reg
  | .fhp => [rwk 0x40 0 [f 0 0 .any, f 1 1 .any, f 2 2 .any, f 3 3 .any, f 4 4 .any, f 6 5 (.enc 2), f 7 7 .any, f 31 8 .rsvd],
      rwk 0x44 0x1000 [f 3 0 .any, f 5 4 .any, f 7 6 .rsvd, f 11 8 .any, f 14 12 (.rng 1 5 .rsvd), f 31 15 .rsvd],
      rwk 0x48 0 [f 15 0 .any, f 31 16 .any],
      rwk 0x4C 0 ((List.range 8).map (fun j => f (4 * j + 3) (4 * j + 3) .rsvd)),
      rwk64 0x50 0 [f 47 0 .any, f 63 48 .rsvd], rwk 0x58 0 [f 11 0 .any, f 31 12 .rsvd],
      rwk 0x5C 0x01020001 [f 15 0 (.rng 1 65535 .value), f 22 16 (.rng 2 127 .value), f 23 23 .rsvd, f 30 24 .any, f 31 31 .rsvd],
      ro 0x60, wo 0x64 [f 0 0 .any, f 31 1 .rsvd], ro64 0x68, ro64 0x70, { ro 0x78 with count := 19 }, ro64 0xC8]
  | .gal => [{ rwk 0x40 0 [f 6 0 (.rng 0 84 .range), f 30 7 .rsvd, f 31 31 .any] with count := 4 },
      { rwk 0x50 0x100 [f 6 0 (.rng 0 95 .range), f 7 7 .rsvd, f 11 8 (.rng 1 12 .value), f 30 12 .rsvd, f 31 31 .any] with count := 4 },
      { ro 0x60 with count := 11 }]
  | .eng => [ro 0x40, ro 0x44, ro64 0x48, ro64 0x50, ro 0x58, ro 0x5C, ro 0x60]
  | .cmp => [ro 0x40, ro 0x44, rwk 0x48 0 [f 23 0 .any, f 31 24 .rsvd],
      wo 0x4C [f 4 0 .any, f 30 5 .rsvd, f 31 31 .any], ro 0x50, ro 0x54, ro64 0x58, ro64 0x60, ro64 0x68, ro64 0x70,
      rw 0x78 0 [f 8 0 .any, f 31 9 .rsvd], ro 0x7C, rw 0x80 0 [f 3 0 .any, f 7 4 .rsvd, f 11 8 .any, f 31 12 .rsvd],
      ro 0x84, ro64 0x88]
  | .dsy => [rwk 0x40 0x405 [f 0 0 .any, f 1 1 .any, f 2 2 .any, f 7 3 .rsvd, f 11 8 (.rng 1 12 .value), f 31 12 .rsvd],
      { ro 0x44 with count := 8 }, rw 0x64 1 [f 3 0 (.rng 1 15 .value), f 5 4 .any, f 31 6 .rsvd], ro 0x68, ro 0x6C,
      rw64 0x70 [f 63 0 .any], rw64 0x78 [f 63 0 .any], rw 0x80 0 [f 31 0 .any],
      rw 0x84 0 [f 15 0 .any, f 16 16 .any, f 30 17 .rsvd, f 31 31 .any], { ro 0x88 with count := 5 },
      { rwk 0xA0 0xFFFFFFFF [f 31 0 .any] with count := 8 }]
  | .lpx => [rwk 0x40 0x1002 [f 1 0 (.enc 2), f 7 2 .rsvd, f 15 8 .any, f 31 16 .rsvd], ro 0x44, ro 0x48, ro 0x4C, ro64 0x50,
      ro64 0x58, ro 0x60, ro 0x64, ro64 0x68, ro64 0x70]
  | _ => []

/-- The registers of the cluster pages (R105, R106, R169 to R172, R199, R200, R274, R275, R137 to R139). -/
def regsCluster : PType → List Reg
  | .arr => [rw 0x40 0 [f 6 0 (.rng 0 67 .range), f 31 7 .rsvd], ro 0x44, ro 0x48, wo 0x4C [f 0 0 .any, f 31 1 .rsvd],
      ro64 0x50, ro64 0x58, ro64 0x60, ro64 0x68, ro 0x70, ro 0x74, ro64 0x78, ro64 0x80, ro 0x88, ro 0x8C, ro64 0x90,
      ro 0x98, ro 0x9C]
  | .acc => [rw 0x40 0 [f 0 0 .any, f 31 1 .rsvd], sel 0x44 9, ro 0x48, sel 0x4C 5,
      rw 0x50 0 [f 16 0 .any, f 30 17 .rsvd, f 31 31 .any], ro64 0x58, ro64 0x60, ro64 0x68, { ro 0x70 with count := 6 }]
  | .out => [sel 0x40 4, { ro 0x44 with count := 5 }, ro64 0x58, { ro 0x60 with count := 4 }, sel 0x70 5, ro64 0x78]
  | .prf => [ro 0x40, sel 0x44 5, ro 0x48, ro 0x4C, ro64 0x50, ro64 0x58, ro64 0x60, ro 0x68, ro 0x6C]
  | .spd => [rw 0x40 0 [f 0 0 .any, f 31 1 .rsvd], sel 0x44 6, { ro 0x48 with count := 9 }]
  | .cal => [rwk 0x40 16 [f 7 0 .any, f 31 8 .rsvd], rwk 0x44 8 [f 7 0 .any, f 31 8 .rsvd],
      rwk 0x48 24 [f 4 0 (.rng 16 30 .value), f 31 5 .rsvd], rwk 0x4C 4096 [f 15 0 (.rng 1 65535 .value), f 31 16 .rsvd],
      rwk 0x50 7 [f 2 0 .any, f 31 3 .rsvd], rw 0x54 0 [f 6 0 (.rng 0 67 .range), f 31 7 .rsvd],
      rw 0x58 0 [f 8 0 (.rng 0 263 .range), f 31 9 .rsvd], sel 0x5C 5, { ro 0x60 with count := 5 },
      { ro 0x78 with count := 5 }, ro64 0x90, ro64 0x98, ro64 0xA0, ro 0xA8, ro64 0xB0, { ro 0xB8 with count := 7 }]
  | _ => []

/-- The registers of the device services (R453, R454, R455 to R457, R476 to R478, R502, R503, R504, R505, R419,
R420, R421, R422, R530, R531, R393, R394, R506, R507). -/
def regsService : PType → List Reg
  | .col => [ro 0x40, ro 0x44, ro 0x48, ro 0x4C, wo 0x50 [f 2 0 .any, f 30 3 .rsvd, f 31 31 .any],
      ⟨0x58, true, .wo, 0, [f 63 0 .any], 1⟩, ⟨0x60, true, .wo, 0, [f 63 0 .any], 1⟩, ro64 0x68, { ro 0x70 with count := 7 }]
  | .hld => [rwk 0x40 0 [f 0 0 .any, f 31 1 .rsvd], { ro 0x44 with count := 7 }, wo 0x60 [f 0 0 .any, f 31 1 .rsvd]]
  | .hkc => [rwk 0x40 3 [f 2 0 .any, f 31 3 .rsvd], rwk 0x44 12 [f 5 0 (.rng 0 32 .value), f 31 6 .rsvd],
      rwk 0x48 256 [f 15 0 (.rng 1 65535 .value), f 31 16 .rsvd], { ro 0x4C with count := 5 }, wo 0x60 [f 0 0 .any, f 31 1 .rsvd],
      wo 0x64 [f 4 0 .any, f 7 5 .rsvd, f 8 8 .any, f 30 9 .rsvd, f 31 31 .any], ro64 0x68, ro 0x70, ro 0x74,
      ⟨0x78, false, .w1c, 0, [f 31 0 .any], 1⟩, { ro 0x80 with count := 7 }, { ro 0x100 with count := 32 },
      { hkcEntry with count := 32 }]
  | .thm => [rwk 0x40 0x140019 [f 6 0 (.rng 10 90 .value), f 15 7 .rsvd, f 24 16 (.rng 1 500 .value), f 31 25 .rsvd],
      ⟨0x44, false, .rwl, 118, [f 6 0 (.rng 100 118 .value), f 30 7 .rsvd, f 31 31 .any], 1⟩, ro 0x48, ro 0x4C, ro 0x50,
      wo 0x54 [f 0 0 .any, f 31 1 .rsvd], { ro 0x58 with count := 4 }, sel 0x68 3, { ro 0x6C with count := 3 }]
  | .pwr => [ro64 0x40, ro64 0x48, rwk 0x50 0x50505050 [f 7 0 (.rng 40 88 .value), f 15 8 (.rng 40 88 .value),
      f 23 16 (.rng 40 88 .value), f 31 24 (.rng 40 88 .value)], ro 0x54, rw 0x58 0 [f 5 0 (.rng 0 49 .range), f 31 6 .rsvd],
      rw 0x5C 1 [f 0 0 .any, f 31 1 .rsvd], ro 0x60]
  | .flt => [rwk 0x40 8 [f 7 0 (.rng 1 255 .value), f 31 8 .rsvd], sel 0x44 6, ro64 0x48, ro 0x50, ro 0x54, ro64 0x58, sel 0x60 5,
      ro 0x64, ro 0x68, rw 0x6C 0 [f 5 0 .any, f 7 6 .rsvd, f 13 8 .any, f 31 14 .rsvd], ro64 0x70, ro 0x78, ro 0x7C, ro 0x80,
      wo 0x84 [f 4 0 .any, f 30 5 .rsvd, f 31 31 .any], rw 0x88 0 [f 12 0 .any, f 15 13 (.enc 4), f 31 16 .rsvd], ro 0x8C,
      { ro 0x90 with count := 3 }, { ro 0xA0 with count := 16 }]
  | .tst => [rwk 0x40 3 [f 1 0 .any, f 31 2 .rsvd], rwk 0x44 32 [f 5 0 (.rng 1 32 .value), f 31 6 .rsvd],
      rwk 0x48 26 [f 4 0 (.rng 20 30 .value), f 31 5 .rsvd], rwk 0x4C 16384 [f 23 0 (.rng 1 16777215 .value), f 31 24 .rsvd],
      ro64 0x50, { ro 0x58 with count := 7 }]
  | .sec => [⟨0x40, false, .rwl, 0, [f 6 0 .any, f 31 7 .rsvd], 1⟩, rwk 0x44 0 [f 6 0 .any, f 31 7 .rsvd], ro 0x48, ro 0x4C,
      ro 0x50, wo 0x54 [f 0 0 .any, f 31 1 .rsvd], { ro 0x58 with count := 4 }, rwk 0x68 25 [f 6 0 (.rng 10 100 .value), f 31 7 .rsvd],
      ro 0x6C, { ro 0x70 with count := 15 }]
  | .cfg => [ro 0x40, wo 0x44 [f 31 0 .any], ro 0x48, { ro 0x50 with count := 13 }]
  | .xng => [rw 0x40 0x201 [f 4 0 (.rng 1 18 .range), f 7 5 .rsvd, f 12 8 (.rng 1 18 .range), f 31 13 .rsvd],
      { ro 0x44 with count := 5 }]
  | _ => []

/-- The block-specific registers of a page (R53, R65, ... : the tables of the page chapters). -/
def regsOf (t : PType) : List Reg := regsHost t ++ regsFabric t ++ regsCluster t ++ regsService t

/-- Bytes a register of a row takes. -/
def Reg.size (r : Reg) : Nat := if r.wide then 8 else 4

/-- The register that holds page offset `o`: its row and its own first offset. -/
def findReg (t : PType) (o : Nat) : Option (Reg × Nat) :=
  ((regsOf t).find? (fun r => decide (r.off ≤ o ∧ o < r.off + r.size * r.count))).map
    (fun r => (r, r.off + (o - r.off) / r.size * r.size))

/-- Factory value of entry `i` of the housekeeping table (R466): entries 0 to 11 convert channel i at gain 1 with
sinc1 and OSR 16, on either converter, REPEAT 4, destination AUTO; entry 11 has a delay of 16,000. The entries
outside the factory scan hold REPEAT 1 and are not in use (R462). -/
def hkcFactory (i : Nat) : Nat :=
  if i < 12 then i + (1 <<< 8) + (4 <<< 10) + (2 <<< 14) + (2 <<< 16) + (4 <<< 24) + (if i = 11 then 16000 <<< 32 else 0)
  else 1 <<< 24

/-- The value a register takes after power-up with nothing committed: its constant, or its factory value (R14). -/
def regReset (t : PType) (o : Nat) : Nat :=
  match findReg t o with
  | none => 0
  | some (r, b) =>
    if t = .hkc ∧ 0x200 ≤ b ∧ b ≤ 0x2F8 then hkcFactory ((b - 0x200) / 8)
    else if t = .dsy ∧ b = 0x40 then r.reset
    else r.reset

/-- What an unwritten stored word of BAR0 reads as (its half, for a 64-bit register). -/
def wordReset (off : Nat) : Word :=
  match pageAt (off / 4096) with
  | none => 0
  | some (t, _) =>
    match findReg t (off % 4096) with
    | none => 0
    | some (_, b) => BitVec.ofNat 32 (regReset t (off % 4096) >>> (8 * (off % 4096 - b)))

/-- A page's CAPS (R41): instances, KEPT, GATEABLE (R497), WIDE, FENCEABLE. -/
def gateable : PType → Bool
  | .dev => false | .noc => false | .col => false | .hld => false | .hkc => false | .thm => false | .pwr => false
  | .flt => false | .tst => false | .sec => false | .cfg => false | .xng => false | .cmp => false
  | _ => true

def caps (t : PType) : Nat :=
  t.instances + (b2n ((regsOf t).any (fun r => r.acc == .rwk)) <<< 8) + (b2n (gateable t) <<< 9)
    + (b2n ((regsOf t).any (fun r => r.wide)) <<< 10)
    + (b2n (t == .arr || t == .clu || t == .acc || t == .out || t == .prf || t == .spd || t == .cal || t == .cmp) <<< 11)

end Sys2Proof.Machine
end

