-- ==== Sys2Proof/Machine/State.lean ====
section
/-!
DEFINITION. Sys2Proof/Machine/State.lean: everything the manual gives the LV8, as plain data. Indexed parts are
sparse tables (FMap) keyed by number; a key that is not listed holds the default named beside its field.
-/
namespace Sys2Proof.Machine

/-- Reasons a step can stop with a fault. No command of the LV8 stops the device: an illegal request is refused
with a code (R45, R60) and the device goes on, so no meaning raises one. Safe. -/
inductive Fault where
  /-- Never raised: the manual gives every command an effect or a code. -/
  | none
  deriving DecidableEq, Repr

/-- Reasons a command has no meaning here. Safe. -/
inductive Refusal where
  /-- Raised by Dispatch for a row that has no meaning yet. -/
  | notModelled (mnemonic : String)
  deriving DecidableEq, Repr

/-- The part of a page header (R40) that a page holds itself: GATE, ERR, ERRCNT, SNAP_HI, SEQ and the staging word
of R50 (page offset and low half). -/
structure PageHdr where
  gate    : Nat := 3
  errCode : Nat := 0
  errOff  : Nat := 0
  errCnt  : Nat := 0
  snapHi  : Nat := 0
  latches : Nat := 0
  updates : Nat := 0
  staging : Option (Nat × Nat) := none
  deriving DecidableEq, Repr

/-- A command fetched and not yet completed (R53 INFLIGHT); `started` once it has begun (R57), `lost` when a Hot Reset or
link-down came after its fetch, so that its completion and its host writes are discarded (R555). -/
structure InFl where
  e       : Entry
  started : Bool
  lost    : Bool := false
  deriving DecidableEq, Repr

/-- A submission queue and its completion ring, beside its QUE registers: the commands in flight in fetch order,
the turn count of R57, the completion sequence number of R63 and the phase bit of R56. -/
structure QueueSt where
  inflight : List InFl := []
  turn     : Nat := 0
  cseq     : Nat := 0
  phase    : Bool := true
  deriving DecidableEq, Repr

/-- What the device has put on the host link and last answered (R58, R64). -/
structure HostSt where
  /-- Every memory write the device has issued to host memory, oldest first (address, bytes). -/
  writes   : List (Nat × List Byte) := []
  /-- Answer of the last host read: its bytes, whether poisoned (R269), whether Unsupported Request (R36). -/
  reply    : List Byte := []
  poisoned : Bool := false
  unsup    : Bool := false
  /-- Bytes 4 to 251 of the last status record written; empty before the first (R64). -/
  record   : List Byte := []
  /-- HIF.STATCTRL.EN has been set and its record is still to be written (R65). -/
  recordDue : Bool := false
  linkUp   : Bool := false
  link     : Nat := 0          -- HIF.LINK as the link trained
  l1       : Bool := false
  d3hot    : Bool := false
  deriving DecidableEq, Repr

/-- A report on its way to the fault manager (R399): kind of R400, context (255 none), invocation, tile, unit
(UNITID of R419, 0xFFFF none), detail, second unit of a COPY report (R407), and whether CRITICAL repeats (R408). -/
structure Report where
  kind   : Nat
  ctx    : Nat := 255
  invoc  : Nat := 0
  tile   : Nat := 0
  unit   : Nat := 0xFFFF
  detail : Nat := 0
  unit2  : Nat := 0xFFFF
  pos    : Nat := 0
  deriving DecidableEq, Repr

/-- One event of the ring of 64 (R399, R420). -/
structure Event where
  kind   : Nat
  cls    : Nat
  ctx    : Nat
  invoc  : Nat
  tile   : Nat
  unit   : Nat
  detail : Nat
  deriving DecidableEq, Repr

/-- A counted event kept for the window of R409: kind, context (255 none), its invocation number, and the count of
invocations of all contexts started when it was recorded. -/
structure HistEv where
  kind  : Nat
  ctx   : Nat
  invoc : Nat
  all   : Nat
  old   : Bool := false
  deriving DecidableEq, Repr

/-- A unit's history (R410) and fence (R41, R411): state 0 SERVING, 1 FENCED, 2 RETURNING; `due` is a fence that
waits for the owner's invocation boundary (R412). -/
structure UnitRec where
  total  : Nat := 0
  evs    : List HistEv := []
  state  : Nat := 0
  reason : Nat := 0
  due    : Option Nat := none
  passAt  : Nat := 0            -- value of `invAll` at its last passing test (R418)
  deriving DecidableEq, Repr

/-- One entry of a suspect log (R417): `wrote` maps unit·64 + cluster to a mask of the tiles it wrote. -/
structure LogEntry where
  invoc     : Nat
  all       : Nat
  gennum    : Nat
  trig      : Nat
  slot      : Bool
  carrier   : Nat
  preempted : Bool := false
  touched   : Bool := false
  wrote     : FMap Nat := []
  deriving DecidableEq, Repr

/-- Four signed or unsigned sums of a pair's statistics window (R124). -/
structure Stat where
  n    : Nat := 0
  su   : Int := 0
  su2  : Nat := 0
  sn   : Nat := 0
  deriving DecidableEq, Repr

/-- A pair's coefficient in one forme: gain in Q2.14 and offset in quarter LSB (R108). -/
structure Coef where
  gain : Nat := 0x4000
  off  : Int := 0
  deriving DecidableEq, Repr

/-- Converter trims (R114). -/
structure Trim where
  o    : Int := 0
  g    : Int := 0
  fail : Bool := false
  deriving DecidableEq, Repr

/-- The layer word an array was programmed with (R106). -/
structure Layer where
  gain     : Nat := 0
  w8       : Bool := false
  inbits   : Nat := 0
  insigned : Bool := false
  split    : Nat := 0
  rows     : Nat := 0
  deriving DecidableEq, Repr

/-- A vector's results on their way to the tile (R80, R140): operation, position, values per group, flags. -/
structure VecRes where
  op     : Nat
  copy   : Nat
  pos    : Nat
  vals   : List (List Int)
  coarse : List Bool
  clip   : List Bool
  /-- Check values (R95): group, half, |E|, and whether CLIP arose in the half (R398). -/
  cks    : List (Nat × Nat × Nat × Bool)
  deriving DecidableEq, Repr

/-- A physical array (R67 to R107, R108 to R139). -/
structure Arr where
  st      : Nat := 1            -- R99: 0 SPARE, 1 FREE, 2 PROGRAMMING, 3 SERVING, 4 FENCED
  owned   : Bool := false       -- a context holds it
  ctx     : Nat := 0
  gen     : Nat := 0
  logical : Nat := 0
  copy    : Nat := 0
  lent    : Bool := false
  epoch   : Nat := 0
  wasSpare : Bool := false      -- the state a programming target or refresh target came from (R132, R348)
  begun   : Bool := false       -- its wear is recorded and its programming may end (R134)
  held    : Option Nat := none  -- its state before its cluster was fenced (R412, R416)
  serveAt : Bool := false       -- programmed, enters service at the next boundary (R132, R344)
  forArr  : Option Nat := none  -- the due array this refresh target replaces (R132)
  layer   : Layer := {}
  weights : FMap Int := []      -- row·256 + output, default 0
  rowmap  : List (Nat × Nat) := []   -- (segment, row within it) replaced by spare row 512 + segment
  colmap  : List Nat := []      -- pairs replaced by SP0, SP1
  vec     : Nat := 0
  zeros   : Nat := 0
  coarse  : Nat := 0
  ovr     : Nat := 0
  ckfail  : Nat := 0
  ckmag   : Nat := 0
  ckhalf  : Nat := 0
  ckgroup : Nat := 0
  ref0    : Nat := 0
  ref1    : Nat := 0
  refcnt  : Nat := 0
  progcyc : Nat := 0
  inclamp : Nat := 0
  res     : List VecRes := []   -- results delivered by the adder tree and not yet written
  active  : Nat := 0
  armed   : Bool := false
  forme   : FMap Coef := []     -- 512·forme + pair
  trims   : FMap Trim := []
  fit     : FMap Nat := []      -- LASTFIT per pair: outcome + 16·method
  stats   : FMap Stat := []
  expMean : FMap Int := []
  expM2   : FMap Nat := []
  hasStat : Bool := false
  due     : Bool := false
  refreshing : Bool := false
  twinfail : Bool := false
  refbad  : Bool := false
  agevalid : Bool := false
  failed  : Nat := 0
  age     : Nat := 0
  ratio   : Nat := 0
  lq      : Nat := 0            -- L in Q6.10
  readT   : Int := 0            -- die temperature of the latest consistent read, 0.25 °C
  recD    : Int := 0
  tbase   : Int := 0
  tcal    : Int := 0
  gamma   : Nat := 0x4000
  lcal    : Nat := 0
  hasRec  : Bool := false
  trigT   : Int := 0            -- 0.25 °C
  trigL   : Nat := 0
  armT    : Int := 0
  armL    : Nat := 0
  readDue : Bool := false       -- a drift-clock read fell due (R118)
  twinDue : Bool := false       -- a twin check is owed (R115)
  testT   : Nat := 0            -- array tests made (R401)
  testDue : Bool := false
  testI   : Nat := 0            -- the invocation number after which its test is due
  retest  : Bool := false
  cmpDue  : Bool := false       -- a comparison vector of TEST_RUN is owed (R423)
  cmpVals : Option (List (List Int)) := none
  deriving DecidableEq, Repr

/-- A tile (R145, R153): 256 raw 40-bit entries (default 0) and flags. -/
structure Tile where
  owned  : Bool := false
  ctx    : Nat := 0
  fp     : Bool := false
  ent    : FMap Nat := []
  coarse : Bool := false
  clip   : Bool := false
  sat    : Bool := false
  deriving DecidableEq, Repr

/-- An output profile (R159): owner and its 1,040 bytes (none while it holds no data). -/
structure Profile where
  owned : Bool := false
  ctx   : Nat := 0
  data  : List Byte := []
  deriving DecidableEq, Repr

/-- A chain set (R141, R142). `pend` counts members not yet added; `fin` is the closing operation. -/
structure Chain where
  bound  : Bool := false
  tile   : Nat := 0
  ctx    : Nat := 0
  w8     : Bool := false
  gain   : Nat := 0
  vals   : List Int := []
  coarse : Bool := false
  clip   : Bool := false
  pend   : Nat := 0
  fin    : Option Nat := none
  deriving DecidableEq, Repr

/-- The readback holding register (R168). `pend` is a request (tile, entry) not yet arrived; `op` its place. -/
structure Readback where
  data  : Nat := 0
  valid : Bool := false
  dup   : Bool := false
  ovr   : Bool := false
  tile  : Nat := 0
  entry : Nat := 0
  pend  : Option (Nat × Nat) := none
  op    : Nat := 0
  deriving DecidableEq, Repr

/-- A cluster's own units (R19), beside its arrays, tiles and pages. -/
structure Clu where
  profiles : FMap Profile := []
  chains   : FMap Chain := []      -- 4·compositor + j
  rngA     : FMap Nat := []        -- accumulation stream per context (R151), 0 before its first use
  rngO     : FMap Nat := []
  rngAEnd  : FMap Nat := []        -- as shown in ACC.RNG and OUT.RNG: at the end of the last invocation
  rngOEnd  : FMap Nat := []
  rb       : Readback := {}
  opCount  : Nat := 0              -- vectors and proof-engine operations delivered (R404)
  testDue  : Bool := false
  dueAt    : Nat := 0              -- opCount when the cluster test fell due (R405)
  scalDone : Bool := false
  marchDue : Bool := false         -- a cluster test's march found a fault still to be repaired (R404)
  rowRepair : FMap Nat := []       -- repairs per memory instance (R284), memory·16 + bank
  deriving DecidableEq, Repr

/-- An access of an operation to a tile (R154, R155). -/
structure TAcc where
  cl    : Nat
  tile  : Nat
  write : Bool
  add   : Bool
  wait  : Bool
  deriving DecidableEq, Repr

/-- An operation issued and not yet retired (R213, R215), in arrival order. `stage`: 0 waiting at a cluster's
entry, 1 accepted, 2 executing. `word` is the AIS instruction; the other fields are what issue formed from it. -/
structure Op where
  id      : Nat
  ctx     : Nat
  stream  : Nat
  cmp     : Nat               -- the compositor, or the one CMP16 carries (R141)
  word    : Nat
  stage   : Nat
  clusters : List Nat         -- cluster entries it passes (R156)
  arrays  : List Nat := []    -- physical arrays of the cluster, copy order
  spilled : Bool := false
  tiles   : List Nat := []
  acc     : List TAcc := []
  a1      : Nat := 0
  a2      : Nat := 0
  a3      : Nat := 0
  rng     : Nat := 0          -- stream state at arrival (R151)
  started : List Nat := []    -- vectors started, per copy
  done    : Nat := 0          -- vectors written
  chainIx : Option Nat := none
  data    : List Int := []
  /-- Results of copy vectors waiting for the other copy (R407). -/
  hold    : List VecRes := []
  deriving DecidableEq, Repr

/-- What holds a stream at a WAIT (R210, R245): semaphore (global?, number), value, and whether it subtracts. -/
structure WaitSt where
  glob : Bool
  ix   : Nat
  v    : Nat
  sub  : Bool
  deriving DecidableEq, Repr

/-- A stream of a running invocation (R208). -/
structure StreamSt where
  cmp     : Nat
  carried : Bool := false
  a       : FMap Nat := []
  c       : FMap Nat := []
  loops   : List (Nat × Nat) := []     -- (trips left, body start), top first
  sems    : FMap Nat := []
  idx     : Nat := 0
  ended   : Bool := false
  waiting : Option WaitSt := none
  held    : Option Nat := none         -- operation waiting at a full queue (R213) or a held CHKPT (R258)
  deriving DecidableEq, Repr

/-- An invocation in flight (R216 to R221). -/
structure Inv where
  slot     : Bool
  entry    : Entry
  carrier  : Nat := 0
  slotNum  : Nat := 0
  num      : Nat
  gen      : Nat
  gennum   : Nat
  streams  : List StreamSt
  coarse   : Bool := false
  clip     : Bool := false
  sat      : Bool := false
  spilled  : Bool := false
  preempted : Bool := false
  degraded : Bool := false
  borrowed : Bool := false
  vec      : FMap Nat := []            -- vectors delivered per physical array (R222), 128·c + a
  stop     : Option (Code × Nat × Nat) := none   -- first stop: code, stream, index
  ckfails  : Nat := 0
  heldTest : Bool := false
  given    : FMap Nat := []            -- per cluster: operations delivered since its cluster test fell due (R405)
  deriving DecidableEq, Repr

/-- A trigger waiting for its invocation (R217): a RUN entry, or a slot (carrier, slot number). -/
structure Trig where
  slot    : Bool
  entry   : Entry
  carrier : Nat := 0
  slotNum : Nat := 0
  deriving DecidableEq, Repr

/-- A weight generation letter (R326). `image` is the image CTX_LOAD accepted; `backing` where it lies
(LPDDR5X?, address), while the letter has one (R357). -/
structure Letter where
  st      : Nat := 0          -- 0 EMPTY, 1 STAGED, 2 RESIDENT, 3 ACTIVE
  image   : List Byte := []
  backing : Option (Bool × Nat) := none
  digest  : List Byte := []   -- weight digest recorded (R354)
  second  : Bool := false     -- owns the second row store part (R345)
  borrow  : Bool := false
  deriving DecidableEq, Repr

/-- A calibration run of a context (R122): RUN state, trigger, cluster mask, invocations since the window opened,
and whether a new run starts when this one ends (R127). -/
structure CalRun where
  run     : Nat := 0
  trig    : Nat := 0
  mask    : Nat := 0
  invocs  : Nat := 0
  again   : Bool := false
  passed  : Nat := 0
  failed  : Nat := 0
  deriving DecidableEq, Repr

/-- A row store region in a cluster (R345): base and part size in 4 KiB units, and number of parts. -/
structure Region where
  base  : Nat := 0
  part  : Nat := 0
  parts : Nat := 0
  claim : Nat := 0            -- units of the claimed row store, below the spilled rows
  deriving DecidableEq, Repr

/-- A context (R324 to R330). -/
structure Ctx where
  ex       : Bool := false
  state    : Nat := 0         -- 0 EMPTY, 1 READY, 2 DORMANT, 3 CLOSING
  was      : Nat := 0         -- the state before CLOSING (R364)
  fp       : Bool := false
  red      : Nat := 0
  critical : Bool := false
  seed     : Nat := 0
  epoch    : Nat := 0
  gennum   : Nat := 0
  invoc    : Nat := 0
  la       : Letter := {}
  lb       : Letter := {}
  active   : Option Nat := none
  tol      : Nat := 0
  digper   : Nat := 0
  digDone  : Nat := 0         -- invocations since the last digest round (R356)
  digLeft  : List Nat := []   -- arrays the present digest round has still to read back
  digBad   : List Nat := []   -- arrays whose rows it has found to differ
  prog     : List (List Nat) := []    -- program store words, per stream
  cmps     : List Nat := []           -- compositor of each stream
  moves    : List (Nat × Nat) := []   -- streams that change compositor at the next boundary (R227)
  claims   : List (List Nat) := []    -- [kind, cluster, first, count, initial value]
  spill    : List Nat := []           -- spilled logical arrays (R342)
  spillSet : Bool := false            -- the first load has fixed the spilled set
  regions  : FMap Region := []
  trigs    : List Trig := []
  inv      : Option Inv := none
  cmd      : Option Entry := none     -- generation command in flight (R329)
  gap      : Bool := false            -- INPLACE holds the next start (R351)
  switchDue : Option Nat := none      -- letter that becomes ACTIVE at the next boundary
  programming : Option Nat := none    -- letter whose arrays are being programmed
  cal      : CalRun := {}
  base     : Nat := 0         -- round base B (R402)
  period   : Nat := 32        -- round length in force (R422)
  newPeriod : Option Nat := none
  roundBad : Bool := false    -- the present round is not clean (R403)
  roundEnd : Option Nat := none   -- first invocation of a round that has ended with tests still out
  log      : List LogEntry := []
  faulted  : Bool := false
  frozen   : Bool := false
  lost     : Bool := false
  multi    : Bool := false
  slUnit   : Nat := 0
  slReason : Nat := 0
  restoreHold : Bool := false -- a domain restore is under way (R363)
  saved    : Bool := true     -- the context-table record stands as it should (R358)
  deriving DecidableEq, Repr

/-- A compositor (R204 to R229), beside its page and the streams its contexts name. `phase`: 0 normal, 1 DRAINING while
CMP16 copies its store, 2 DRAINING after the copy, 3 RELOADING, 4 its streams come back, 5 fenced and carried. -/
structure Cmp where
  phase : Nat := 0
  fw    : Bool := false       -- runs the active slot's firmware (R525)
  fwDue : Bool := false       -- FW_ACTIVATE has still to replace it
  carry : Nat := 0            -- CMP16: the compositor it carries, plus 1
  deriving DecidableEq, Repr

/-- A slot of a carrier (R281, R311 to R320): its descriptor entry and section map, and how far it has come. -/
structure Slot where
  entry   : Entry
  num     : Nat
  ctx     : Nat
  map     : List Byte
  buf     : Bool := false          -- S0 buffer assigned (R281)
  left    : List Nat := []         -- outstanding stream-PRBs per symbol (R315)
  got     : FMap Bool := []        -- stream-PRBs arrived: (symbol·32 + stream)·273 + PRB
  closed  : Bool := false
  closedAt : Nat := 0              -- place in the carrier's order of closing
  present : Nat := 0               -- map entries counted at closure (R317)
  erased  : Nat := 0
  started : Bool := false
  ended   : Bool := false
  stop    : Nat := 0               -- status of the completion (R320)
  egress  : List (Nat × Nat) := [] -- 64-byte blocks of the S3 buffer still to be written: first, count (R319)
  high    : Nat := 0               -- L of R320
  flags   : Nat := 0
  gennum  : Nat := 0
  done    : Bool := false          -- its completion is written
  deriving DecidableEq, Repr

/-- A carrier's slots, oldest first, the newest number described, and how many have closed. -/
structure Carrier where
  slots  : List Slot := []
  top    : Option Nat := none
  closes : Nat := 0
  deriving DecidableEq, Repr

/-- A command whose completion is deferred (R57): its entry and what it waits for. -/
structure Job where
  e    : Entry
  kind : Nat
  ctx  : Nat := 255
  n    : List Nat := []
  a    : Nat := 0
  b    : Nat := 0
  data : List Byte := []
  deriving DecidableEq, Repr

/-- A fronthaul port beside its page (R298 to R323). -/
structure Fhp where
  linkUp : Bool := false
  occ    : Nat := 0
  xoff   : Bool := false
  seqs   : FMap Nat := []     -- last sequence ID + 1 per carrier and stream: 32·carrier + stream (R304)
  sent   : List Nat := []     -- quanta of the PAUSE frames sent, oldest first (R300)
  deriving DecidableEq, Repr

/-- One step of a Colophon write (R434): a home group (`home` below 39) with new record payloads by record index, a
ring change (64 + ring pair) with the arrays of each of its two clusters that take a cycle, or whole pages merged
with bytes at an address (128; COL_WRITE). -/
structure ColStep where
  home : Nat
  recs : List (Nat × List Byte)
  deriving DecidableEq, Repr

/-- A Colophon write waiting or in progress (R434, R435): its remaining steps; the step in progress as its start
address, new bytes and pages; whether its present step has failed the supply check; and what follows its end:
`k` (0 nothing), the command it belongs to, and that command's answer. -/
structure ColWrite where
  steps  : List ColStep
  active : Option (Nat × List Byte × Nat) := none
  denied : Bool := false
  k      : Nat := 0
  job    : Option Entry := none
  ctx    : Nat := 255
  args   : List Nat := []
  data   : List Byte := []
  deriving DecidableEq, Repr

/-- The Colophon store (R424 to R448). -/
structure ColSt where
  mem     : FMap Byte := []        -- 256 KiB by address, default `factoryByte`
  queue   : List ColWrite := []
  locked  : List Bool := [false, false, false, false]
  tries   : List Nat := [0, 0, 0, 0]
  pw      : List Nat := [0, 0, 0, 0, 0, 0, 0, 0]   -- passwords in force, read then write (R429)
  mounted : Bool := false
  factory : Bool := false
  pwOld   : Nat := 0
  pwNew   : Nat := 0
  pwBusy  : Bool := false
  pwFail  : Bool := false
  ambig   : Bool := false
  hist    : FMap Nat := []         -- HISTORY slots: UNITID + 1 (R441)
  repairs : List (List Byte) := [] -- REPAIR entries in use, oldest first (R429)
  hours   : Nat := 0               -- power-on hours (R31)
  lastDigest : List Byte := []     -- configuration digest last published (R429)
  isolated : Bool := false         -- after R452 step 4
  deriving DecidableEq, Repr

/-- The holdup controller (R449 to R457). -/
structure HldSt where
  st        : Nat := 0
  mainGood  : Bool := false
  measuring : Bool := false
  why       : Nat := 0
  cap       : Nat := 0
  vtarget   : Nat := 0
  vhold     : Nat := 0
  eusable   : Nat := 0
  deriving DecidableEq, Repr

/-- The housekeeping converters (R458 to R478). -/
structure HkcConv where
  busy   : Option Nat := none      -- table entry it converts for, or 32 for an urgent request
  last   : Option (Nat × Nat × Nat × Nat) := none   -- channel, gain, filter and OSR of its preceding conversion
  since  : Nat := 0                -- outputs since the last change (R467)
  left   : Nat := 0                -- outputs still to deliver
  factors : List (Int × Int) := [(0, 0x8000), (0, 0x8000), (0, 0x8000)]
  deriving DecidableEq, Repr

structure HkcStat where
  sum   : Int := 0
  n     : Nat := 0
  mn    : Int := 0
  mx    : Int := 0
  orSeen : Bool := false
  deriving DecidableEq, Repr

structure HkcSt where
  running : Bool := false
  pos     : Nat := 0               -- next entry to start
  lastE   : Nat := 0               -- entry last started
  staged  : FMap Nat := []         -- page offset of a staged register → the value still in force, plus 1 (R465)
  a       : HkcConv := {}
  b       : HkcConv := {}
  stats   : FMap HkcStat := []
  urgent  : Option (Entry × Nat) := none
  loops   : Nat := 0
  twinDue : Bool := false
  deriving DecidableEq, Repr

/-- The thermal supervisor (R479 to R490). -/
structure ThmSt where
  st       : Nat := 0
  enforced : Bool := false
  grace    : Bool := false
  valid    : Bool := false
  temp     : Int := 0
  pub      : Int := 0              -- DIETEMP as last published (R480)
  shed     : Nat := 0              -- SHED shown while THROTTLE lasts (R482)
  restarts : Nat := 0              -- thermal restarts since power-up (R514)
  flt      : Nat := 0
  bad      : Nat := 0
  good     : Nat := 0
  cool     : Nat := 0
  peak     : Int := 0
  peakSet  : Bool := false
  shutdown : Nat := 0              -- 0 none, 1 TEMP, 2 SENSOR
  tripN    : Bool := true          -- THERMTRIP_N level
  log      : List (List Byte) := []
  deriving DecidableEq, Repr

/-- A switched power domain (R497 to R505). -/
structure Dom where
  st   : Nat := 2                  -- 0 OFF, 1 POWERING, 2 ON, 3 GATING
  req  : Bool := true
  offs : Nat := 0
  deriving DecidableEq, Repr

/-- A crossing pair (R493 to R507). -/
structure Xng where
  closed : Bool := false
  lost   : Nat := 0
  dropw  : Nat := 0
  closes : Nat := 0
  merged : Nat := 0
  deriving DecidableEq, Repr

/-- A Daisy port (R365 to R375): 0 DOWN, 1 TRAINING, 2 UP, 3 HALF; the position of its peer; lanes. -/
structure Dsy where
  st     : Nat := 0
  peer   : Nat := 0
  lanes  : Nat := 0xFF             -- lanes that carry data
  spareFor : Nat := 0xF            -- lane carried by lane 8
  spare  : Option Nat := some 8    -- the spare lane
  failed : List Nat := []
  deriving DecidableEq, Repr

/-- The chain (R365 to R394): collective messages received and handed upstream, control frames sent, the census
and the push. -/
structure ChainSt where
  valid    : Bool := false
  pos      : Nat := 0
  count    : Nat := 1
  ring     : Bool := false
  xrx      : List (List Byte) := []    -- received collective messages, oldest first (R385)
  xtx      : List (List Byte) := []    -- messages handed to the upstream port, oldest first (R383)
  frames   : List (Nat × Nat × Nat) := []   -- CTRL frames sent: port, 0 ENUM 1 END 2 acknowledgement 3 lane failure, position or lane
  remote   : List (Nat × Nat × Nat × Nat × Nat) := []  -- remote accesses sent: position, write, offset, size, value (R376)
  answer   : List Byte := []           -- answer of the last read performed for the manager (R376)
  census   : Bool := false             -- one is in flight
  censusWait : Bool := false           -- a request waits
  censusReqs : List Entry := []        -- CENSUS commands the census in flight serves
  censusNext : List Entry := []        -- CENSUS commands that wait for the next one
  held     : Option (List (List Byte)) := none   -- a token whose entry waits for PENDING (R388)
  token    : Option (List (List Byte)) := none   -- entries of the last token passed on or turned back
  tunnels  : List (Nat × HostReq) := []          -- tunnelled reads issued for workers (R378), oldest first
  push     : Nat := 0                  -- number of the push
  blocks   : List PushHdr := []        -- headers of blocks passed on, oldest first
  refused  : Nat := 0                  -- digest failures of the present block in succession
  deriving DecidableEq, Repr

/-- The configuration-digest block (R386, R387). -/
structure CfgSt where
  epoch   : Nat := 0
  pub     : Nat := 0               -- epoch last published (CFG.CEPOCH)
  pending : Bool := false
  digest  : List Byte := []
  deriving DecidableEq, Repr

/-- The security block and boot state (R508 to R531). -/
structure SecSt where
  stage    : Nat := 1
  fail     : Bool := false
  recovery : Bool := false
  bcode    : Nat := 0
  role     : Nat := 0
  cause    : Nat := 0
  active   : Nat := 0
  booted   : Nat := 0
  fallback : Bool := false
  dirCopy  : Nat := 0
  svn      : Nat := 0
  svnMin   : Nat := 0
  meas     : List Byte := []
  flash    : FMap Byte := []           -- 64 MiB, default 0xFF
  op       : Nat := 0
  fwJob    : Option (Entry × List Byte) := none   -- FW_STAGE in flight and its image (R523)
  deriving DecidableEq, Repr

/-- Test access port (R557 to R561). -/
structure TapSt where
  ir     : Nat := 0x01               -- Test-Logic-Reset selects IDCODE (R557, log 5)
  probe  : FMap Nat := []
  mbist  : Nat := 0
  result : Nat := 0
  scan   : Nat := 0
  deriving DecidableEq, Repr

/-- The LV8. -/
structure State where
  pending : List Instr := []           -- commands waiting, first in first out
  /-- The model's own counter of free values used (no register of the device). -/
  free    : Nat := 0
  perst   : Bool := true               -- PERST_N asserted
  powered : Bool := true               -- VDD_AON up
  railOk  : Bool := true
  regs    : FMap Word := []            -- stored BAR0 words by offset, default `wordReset`
  pages   : FMap PageHdr := []         -- by offset / 4096
  queues  : FMap QueueSt := []
  host    : HostSt := {}
  mem     : FMap Byte := []            -- galley and scratchpads by BAR2 offset, default 0
  parBad  : FMap Bool := []            -- bytes of `mem` whose parity bit is wrong
  lpmem   : FMap Byte := []            -- LPDDR5X by device address, default 0
  lpBad   : FMap Bool := []            -- 64-byte blocks that read uncorrectable (R292), by address / 64
  arrays  : FMap Arr := []             -- 128·cluster + array
  tiles   : FMap Tile := []            -- 512·cluster + tile
  clus    : FMap Clu := []
  ctxs    : FMap Ctx := []
  cmps    : FMap Cmp := []
  ops     : List Op := []              -- operations issued and not retired, oldest first
  nextOp  : Nat := 0
  gsem    : FMap Nat := []             -- global semaphores
  units   : FMap UnitRec := []         -- unit histories and fences by UNITID
  reports : List Report := []          -- on their way to the fault manager
  events  : List Event := []           -- newest first, at most 64
  invAll  : Nat := 0                   -- invocations of all contexts started since start-up (R409)
  epochCtr : Nat := 1                  -- next context epoch (R328)
  jobs    : List Job := []
  carriers : FMap Carrier := []
  fhp     : FMap Fhp := []
  col     : ColSt := {}
  hld     : HldSt := {}
  hkc     : HkcSt := {}
  thm     : ThmSt := {}
  doms    : FMap Dom := []
  xng     : FMap Xng := []
  qfreq   : FMap Nat := []             -- frequency in force per quadrant, default 80; bit 8 set: relock pending
  lpx     : FMap Nat := []             -- patrol pointer (2·channel), refresh rate (2·channel + 1), training reported (4 + channel)
  dsy     : FMap Dsy := []
  chain   : ChainSt := {}
  cfg     : CfgSt := {}
  sec     : SecSt := {}
  tap     : TapSt := {}
  deriving DecidableEq, Repr

/-- The device just after VDD_AON has come up with PERST_N asserted: boot stage 1, memories empty, no command
waiting (R508, R512, R542). -/
def State.reset : State := {}

end Sys2Proof.Machine
end

