-- ==== Sys2Proof/Machine/Ops.lean ====
section
/-!
DEFINITION. Sys2Proof/Machine/Ops.lean: the named operations every command is built from: reading and writing the
parts of the state, register words and counters (R105), rejecting a register access (R44, R45), submission entries
and completions (R59, R63), memories with parity (R269), engine addresses (R173), reports and fences (R399, R411).
-/
namespace Sys2Proof.Machine

/-! ### Parts of the state -/

/-- A physical array that nothing has changed: arrays 64 to 67 of a cluster are its factory spares (R21). -/
def arrDflt (k : Nat) : Arr := if k % 128 ≥ 64 then { st := 0 } else {}

/-- Key of array `a` of cluster `c`. -/
def akey (c a : Nat) : Nat := 128 * c + a

/-- Key of tile `t` of cluster `c`. -/
def tkey (c t : Nat) : Nat := 512 * c + t

def State.arr (s : State) (k : Nat) : Arr := FMap.get (arrDflt k) s.arrays k
def State.setArr (s : State) (k : Nat) (a : Arr) : State := { s with arrays := FMap.put (arrDflt k) s.arrays k a }
def State.modArr (s : State) (k : Nat) (f : Arr → Arr) : State := s.setArr k (f (s.arr k))
def State.tile (s : State) (k : Nat) : Tile := FMap.get {} s.tiles k
def State.setTile (s : State) (k : Nat) (t : Tile) : State := { s with tiles := FMap.put {} s.tiles k t }
def State.modTile (s : State) (k : Nat) (f : Tile → Tile) : State := s.setTile k (f (s.tile k))
def State.clu (s : State) (c : Nat) : Clu := FMap.get {} s.clus c
def State.setClu (s : State) (c : Nat) (x : Clu) : State := { s with clus := FMap.put {} s.clus c x }
def State.modClu (s : State) (c : Nat) (f : Clu → Clu) : State := s.setClu c (f (s.clu c))
def State.ctx (s : State) (c : Nat) : Ctx := FMap.get {} s.ctxs c
def State.setCtx (s : State) (c : Nat) (x : Ctx) : State := { s with ctxs := FMap.put {} s.ctxs c x }
def State.modCtx (s : State) (c : Nat) (f : Ctx → Ctx) : State := s.setCtx c (f (s.ctx c))
def State.cmp (s : State) (c : Nat) : Cmp := FMap.get {} s.cmps c
def State.modCmp (s : State) (c : Nat) (f : Cmp → Cmp) : State := { s with cmps := FMap.put {} s.cmps c (f (s.cmp c)) }
def State.queue (s : State) (q : Nat) : QueueSt := FMap.get {} s.queues q
def State.modQueue (s : State) (q : Nat) (f : QueueSt → QueueSt) : State :=
  { s with queues := FMap.put {} s.queues q (f (s.queue q)) }
def State.page (s : State) (p : Nat) : PageHdr := FMap.get {} s.pages p
def State.modPage (s : State) (p : Nat) (f : PageHdr → PageHdr) : State := { s with pages := FMap.put {} s.pages p (f (s.page p)) }
def State.unit (s : State) (u : Nat) : UnitRec := FMap.get {} s.units u
def State.modUnit (s : State) (u : Nat) (f : UnitRec → UnitRec) : State := { s with units := FMap.put {} s.units u (f (s.unit u)) }
def State.dom (s : State) (d : Nat) : Dom := FMap.get {} s.doms d
def State.modDom (s : State) (d : Nat) (f : Dom → Dom) : State := { s with doms := FMap.put {} s.doms d (f (s.dom d)) }
def State.gs (s : State) (g : Nat) : Nat := FMap.get 0 s.gsem g
def State.setGs (s : State) (g v : Nat) : State := { s with gsem := FMap.put 0 s.gsem g v }

/-! ### The other parts replaced -/

def State.withFree (s : State) (x : Nat) : State := { s with free := x }
def State.withPerst (s : State) (x : Bool) : State := { s with perst := x }
def State.withRailOk (s : State) (x : Bool) : State := { s with railOk := x }
def State.withHost (s : State) (x : HostSt) : State := { s with host := x }
def State.withLpBad (s : State) (x : FMap Bool) : State := { s with lpBad := x }
def State.withOps (s : State) (x : List Op) : State := { s with ops := x }
def State.withNextOp (s : State) (x : Nat) : State := { s with nextOp := x }
def State.withReports (s : State) (x : List Report) : State := { s with reports := x }
def State.withInvAll (s : State) (x : Nat) : State := { s with invAll := x }
def State.withEpochCtr (s : State) (x : Nat) : State := { s with epochCtr := x }
def State.withJobs (s : State) (x : List Job) : State := { s with jobs := x }
def State.withCarriers (s : State) (x : FMap Carrier) : State := { s with carriers := x }
def State.withFhp (s : State) (x : FMap Fhp) : State := { s with fhp := x }
def State.withCol (s : State) (x : ColSt) : State := { s with col := x }
def State.withHkc (s : State) (x : HkcSt) : State := { s with hkc := x }
def State.withXng (s : State) (x : FMap Xng) : State := { s with xng := x }
def State.withQfreq (s : State) (x : FMap Nat) : State := { s with qfreq := x }
def State.withLpx (s : State) (x : FMap Nat) : State := { s with lpx := x }
def State.withDsy (s : State) (x : FMap Dsy) : State := { s with dsy := x }
def State.withChain (s : State) (x : ChainSt) : State := { s with chain := x }
def State.withCfg (s : State) (x : CfgSt) : State := { s with cfg := x }
def State.withTap (s : State) (x : TapSt) : State := { s with tap := x }

/-- A fresh free value; the counter is the model's own. -/
def State.draw (s : State) : State × Nat := (s.withFree (s.free + 1), s.free)

/-! ### Register words -/

/-- BAR0 offset of register offset `o` of a page. -/
def rOff (t : PType) (i o : Nat) : Nat := pageBase t i + o

def State.rd (s : State) (off : Nat) : Nat := (FMap.get (wordReset off) s.regs off).toNat
def State.wr (s : State) (off v : Nat) : State := { s with regs := FMap.put (wordReset off) s.regs off (BitVec.ofNat 32 v) }
/-- A 64-bit register's value, and its device-side write, which counts in SEQ.UPDATES (R41). -/
def State.rd64 (s : State) (off : Nat) : Nat := s.rd off + s.rd (off + 4) * 2 ^ 32
def State.put64 (s : State) (off v : Nat) : State := (s.wr off v).wr (off + 4) (v / 2 ^ 32)
def State.wr64 (s : State) (off v : Nat) : State :=
  (s.put64 off v).modPage (off / 4096) (fun p => { p with updates := (p.updates + 1) % 65536 })

/-- A register of a page, by type, instance and page offset. -/
def State.reg (s : State) (t : PType) (i o : Nat) : Nat := s.rd (rOff t i o)
def State.setReg (s : State) (t : PType) (i o v : Nat) : State := s.wr (rOff t i o) v
def State.reg64 (s : State) (t : PType) (i o : Nat) : Nat := s.rd64 (rOff t i o)
def State.setReg64 (s : State) (t : PType) (i o v : Nat) : State := s.wr64 (rOff t i o) v

/-- A 32-bit counter advances by `n` and saturates (R105, R137, R169, R201, R228, R274, R282, R296, R419). -/
def State.bump (s : State) (t : PType) (i o n : Nat) : State :=
  if n = 0 then s else s.setReg t i o (satNat 32 (s.reg t i o + n))
def State.bump64 (s : State) (t : PType) (i o n : Nat) : State :=
  if n = 0 then s else s.setReg64 t i o (satNat 64 (s.reg64 t i o + n))

/-! ### Power domains (R497) -/

/-- The switched domain a page lies in. -/
def domOf : PType → Nat → Option Nat
  | .clu, c => some (c / 2) | .arr, c => some (c / 2) | .acc, c => some (c / 2) | .out, c => some (c / 2)
  | .prf, c => some (c / 2) | .spd, c => some (c / 2) | .cal, c => some (c / 2)
  | .gal, _ => some 40 | .eng, _ => some 40 | .fhp, n => some (41 + n) | .hif, _ => some 45 | .que, _ => some 45
  | .dsy, p => some (46 + p) | .lpx, c => some (48 + c)
  | _, _ => none

def State.domOn (s : State) (d : Nat) : Bool := (s.dom d).st == 2
def State.pageOn (s : State) (t : PType) (i : Nat) : Bool :=
  match domOf t i with | none => true | some d => s.domOn d
def State.cluOn (s : State) (c : Nat) : Bool := s.domOn (c / 2)

/-- Frequency of a quadrant in units of 25 MHz, with bit 8 set while it waits to relock its PLL (R492). -/
def State.quad (s : State) (n : Nat) : Nat := FMap.get 80 s.qfreq n
def State.relocking (s : State) (n : Nat) : Bool := bit (s.quad n) 8

/-! ### Rejections (R44, R45) -/

/-- A rejected access on page `p` (offset / 4096): ERR takes the code and offset, ERRCNT counts one, saturating. -/
def State.reject (s : State) (p : Nat) (c : Code) (o : Nat) : State :=
  s.modPage p (fun h => { h with errCode := c.num, errOff := o % 4096, errCnt := satNat 32 (h.errCnt + 1) })
def State.rejectOff (s : State) (off : Nat) (c : Code) : State := s.reject (off / 4096) c (off % 4096)

/-! ### Submission entries (R59) -/

end Sys2Proof.Machine

namespace Sys2Proof

def Entry.op (e : Entry) : Nat := Machine.fieldLe e.bytes 0 1
def Entry.flags (e : Entry) : Nat := Machine.fieldLe e.bytes 1 1
def Entry.tag (e : Entry) : Nat := Machine.fieldLe e.bytes 2 2
def Entry.ctx (e : Entry) : Nat := Machine.fieldLe e.bytes 4 1
/-- The `n`-byte parameter at byte `o`. -/
def Entry.p (e : Entry) (o n : Nat) : Nat := Machine.fieldLe e.bytes o n

end Sys2Proof

namespace Sys2Proof.Machine

/-- The completion ring has a slot beyond those reserved for commands in flight (R55). At most `2^n - 1` slots hold
unconsumed or reserved completions, so that CQ_HEAD = CQ_TAIL means an empty ring. DEDUCED: log 11. -/
def State.cqFree (s : State) (q : Nat) : Bool :=
  let n := 2 ^ (s.reg .que q 0x60)
  let used := (s.reg .que q 0x64 + n - s.reg .que q 0x54 % n) % n
  decide (used + ((s.queue q).inflight.filter (fun x => !x.lost)).length + 1 < n)

/-- Host traffic of a worker travels up the chain (R378). -/
def State.tunnels (s : State) : Bool := s.sec.role == 2 && bit (s.reg .dsy 0 0x40) 1

/-- A write by the device to host memory: issued on its own link while that is up and discarded while it is down (R555),
or handed to the chain (R378). -/
def State.hostWrite (s : State) (a : Nat) (bs : List Byte) : State :=
  if s.host.linkUp || s.tunnels then s.withHost { s.host with writes := s.host.writes ++ [(a, bs)], l1 := false } else s

/-- The 32 bytes of a completion entry (R63). -/
def cplBytes (e : Entry) (c : Code) (flags gennum r0 r1 cseq : Nat) (phase : Bool) : List Byte :=
  leBytes 2 e.tag ++ leBytes 1 e.queue ++ leBytes 1 c.num ++ leBytes 1 e.ctx ++ leBytes 1 flags ++ leBytes 2 gennum
    ++ leBytes 8 r0 ++ leBytes 8 r1 ++ leBytes 4 cseq ++ leBytes 3 0 ++ leBytes 1 (b2n phase)

/-- The first started command equal to `e` leaves the in-flight list. -/
def dropInFl (e : Entry) : List InFl → List InFl
  | [] => []
  | x :: r => if x.e = e ∧ x.started then r else x :: dropInFl e r

/-- The command in flight whose entry is `e`, once it has started. -/
def State.inFl (s : State) (e : Entry) : Option InFl := (s.queue e.queue).inflight.find? (fun x => x.e == e && x.started)

/-- A command's data for host memory; discarded when the command was fetched before a Hot Reset or link-down (R555). -/
def State.cmdWrite (s : State) (e : Entry) (a : Nat) (bs : List Byte) : State :=
  match s.inFl e with
  | some x => if x.lost then s else s.hostWrite a bs
  | none => s

/-- The command completes: its entry leaves the in-flight list, its completion is written at CQ_TAIL with the next
sequence number and the phase bit of the present pass, and CPLCNT counts one (R53, R56, R58, R63). The completion of a
command fetched before a Hot Reset or link-down is discarded (R555). -/
def State.complete (s : State) (e : Entry) (c : Code) (r0 r1 : Nat) (flags : Nat := 0) (gennum : Nat := 0) : State :=
  match s.inFl e with
  | none => s
  | some x =>
    let q := e.queue
    let s := s.modQueue q (fun st => { st with inflight := dropInFl e st.inflight })
    if x.lost then s
    else
      let st := s.queue q
      let n := 2 ^ (s.reg .que q 0x60)
      let t := s.reg .que q 0x64
      let cseq := (st.cseq + 1) % 2 ^ 32
      let s := s.hostWrite (s.reg64 .que q 0x58 + 32 * t) (cplBytes e c flags gennum r0 r1 cseq st.phase)
      let s := s.setReg .que q 0x64 ((t + 1) % n)
      let s := s.modQueue q (fun st => { st with cseq := cseq, phase := if (t + 1) % n = 0 then !st.phase else st.phase })
      s.bump64 .que q 0x78 1

/-- Whether the command may begin (R57, R59): it is in flight on its queue and not started, its opcode is `op`, no
earlier entry of the queue is still to start, and with ORDERED none earlier is incomplete. -/
def State.canStart (s : State) (e : Entry) (op : Nat) : Bool :=
  let l := (s.queue e.queue).inflight
  match l.find? (fun x => !x.started) with
  | none => false
  | some x => decide (x.e = e) && e.op == op && (!bit e.flags 0 || (match l with | y :: _ => !y.started | [] => false))

def markStarted : List InFl → List InFl
  | [] => []
  | x :: r => if x.started then x :: markStarted r else { x with started := true } :: r

/-- Boot stage that must be in progress before a command finds its units restored ("Bringing up the host interface"): the
stage after the one that restores what it needs (DEDUCED: log 61). -/
def needStage (op : Nat) : Nat :=
  if op = 0x01 ∨ op = 0x13 then 5
  else if (0x02 ≤ op ∧ op ≤ 0x0D) ∨ op = 0x16 ∨ op = 0x17 then 10
  else if op = 0x0F ∨ op = 0x10 ∨ op = 0x12 then 4
  else if op = 0x11 ∨ op = 0x18 then 3
  else if op = 0x14 ∨ op = 0x15 then 6
  else 1

/-- The boot has come far enough for the command; in RECOVERY only the commands of R511 are. -/
def State.accepted (s : State) (e : Entry) : Bool :=
  if s.sec.recovery then [0x0F, 0x14, 0x15, 0x18].contains e.op || (e.op == 0x12 && e.p 8 1 == 3)
  else decide (needStage e.op ≤ s.sec.stage)

/-- The command marked as started (R57). -/
def State.marked (s : State) (e : Entry) : State := s.modQueue e.queue (fun st => { st with inflight := markStarted st.inflight })

/-- A command that may begin is marked started and acts; one that may not leaves the state as it is. One that needs what the
boot has not restored completes with E_STATE (R511). -/
def State.begin (s : State) (e : Entry) (op : Nat) (act : State → State) : State :=
  if s.canStart e op then
    let s := s.marked e
    if s.accepted e then act s else s.complete e .state 0 0
  else s

/-- Completion with a code and no results. -/
def State.fail (s : State) (e : Entry) (c : Code) : State := s.complete e c 0 0

/-- Checks 1 to 3 of a submission entry (R60): the queues its command is accepted on, whether it needs a context, the
parameter bytes it uses (offset, length), and whether a field carries a reserved encoding. -/
def entryBad (e : Entry) (qs : List Nat) (need : Bool) (used : List (Nat × Nat)) (rsvd : Bool) : Option Code :=
  if !qs.contains e.queue then some .opcode
  else if (e.ctx > 31 ∧ e.ctx ≠ 255) ∨ (need ∧ e.ctx = 255) then some .value
  else if e.flags > 1 || !zeroAt e.bytes 5 3
      || (List.range 64).any (fun i => decide (8 ≤ i) && !used.any (fun u => decide (u.1 ≤ i ∧ i < u.1 + u.2)) && fieldLe e.bytes i 1 != 0)
      || rsvd then some .rsvd
  else none

/-! ### Units, fences and reports (R399, R411, R419) -/

def uArr (c a : Nat) : Nat := c * 128 + a
def uClu (c : Nat) : Nat := 1 * 8192 + c * 128
def uCmp (k : Nat) : Nat := 2 * 8192 + k * 128
def uLane (p l : Nat) : Nat := 3 * 8192 + p * 128 + l
def uSlice (n : Nat) : Nat := 4 * 8192 + n * 128

def State.fenced (s : State) (u : Nat) : Bool := (s.unit u).state == 1
def State.cluFenced (s : State) (c : Nat) : Bool := s.fenced (uClu c)

/-- A report joins the fault manager's queue in the order received (R399). -/
def State.report (s : State) (r : Report) : State := s.withReports (s.reports ++ [r])

/-! ### Memories (R267, R276, R173) -/

def galEnd : Nat := 0x6000000
def isGal (a : Nat) : Bool := decide (a < galEnd)
def isSpad (a : Nat) : Bool := decide (0x10000000 ≤ a ∧ a < 0x20000000)
def spadOf (a : Nat) : Nat := (a - 0x10000000) / 0x400000
def sliceOf (a : Nat) : Nat := a / 0x1800000

/-- Memory number of an engine address: 0 galley, 1 + c scratchpad of cluster c, 65 LPDDR5X; none outside (R173). -/
def engMem (a : Nat) : Option Nat :=
  if a ≥ 2 ^ 63 then (if bits a 62 36 = 0 then some 65 else none)
  else if isGal a then some 0 else if isSpad a then some (1 + spadOf a) else none

/-- Installed usable LPDDR5X capacity in bytes: 31/32 of both channels (R290), from LPX0.STAT.DENSITY. -/
def State.lpCap (s : State) : Nat :=
  match bits (s.reg .lpx 0 0x44) 7 4 with
  | 1 => 2 * 4 * 2 ^ 30 / 32 * 31 | 2 => 2 * 8 * 2 ^ 30 / 32 * 31 | 3 => 2 * 16 * 2 ^ 30 / 32 * 31 | _ => 0

def State.lpReady (s : State) : Bool := bit (s.reg .lpx 0 0x44) 9 && bit (s.reg .lpx 1 0x44) 9

/-- The extent of `n` bytes at engine address `a` lies in one memory (R173): its memory number. -/
def State.extent (s : State) (a n : Nat) : Option Nat :=
  match engMem a with
  | none => none
  | some 65 => if a % 2 ^ 63 + n ≤ s.lpCap then some 65 else none
  | some 0 => if a + n ≤ galEnd then some 0 else none
  | some m => if n = 0 ∨ engMem (a + n - 1) = some m then some m else none

/-- Why an engine cannot reach an extent: a domain off, a slice fenced, or LPDDR5X not initialised
(R270, R277, R291, R295). -/
def State.blocked (s : State) (a n : Nat) : Option Code :=
  match engMem a with
  | none => some .range
  | some 65 => if !s.domOn 48 || !s.domOn 49 then some .power else if !s.lpReady then some .state else none
  | some 0 =>
    let sl := (List.range 4).filter (fun i => decide (sliceOf a ≤ i ∧ i ≤ sliceOf (a + n - 1)))
    if sl.any (fun i => !s.domOn (36 + i)) then some .power
    else if sl.any (fun i => s.fenced (uSlice i)) then some .fenced else none
  | some _ => if s.cluOn (spadOf a) then none else some .power

def State.memByte (s : State) (a : Nat) : Byte := FMap.get 0 s.mem a
def State.lpByte (s : State) (a : Nat) : Byte := FMap.get 0 s.lpmem a

/-- `n` bytes at an engine address. -/
def State.engRead (s : State) (a n : Nat) : List Byte :=
  if a ≥ 2 ^ 63 then readBytes 0 s.lpmem (a % 2 ^ 63) n else readBytes 0 s.mem a n

/-- First byte of an extent that a read finds bad: wrong parity (R269) or an uncorrectable block (R292). -/
def State.badIn (s : State) (a n : Nat) : Option Nat :=
  if a ≥ 2 ^ 63 then
    (s.lpBad.find? (fun p => decide (a % 2 ^ 63 < (p.1 + 1) * 64 ∧ p.1 * 64 < a % 2 ^ 63 + n))).map (fun p => p.1 * 64)
  else (s.parBad.find? (fun p => decide (a ≤ p.1 ∧ p.1 < a + n))).map (fun p => p.1)

def clearBad (m : FMap Bool) (a n : Nat) : FMap Bool := m.filter (fun p => !decide (a ≤ p.1 ∧ p.1 < a + n))

/-- Bytes written to galley or scratchpad: parity is written with them. -/
def State.memWrite (s : State) (a : Nat) (bs : List Byte) : State :=
  { s with mem := writeBytes 0 s.mem a bs, parBad := clearBad s.parBad a bs.length }

/-- Whole 64-byte blocks covered by an extent. -/
def clearBlocks (m : FMap Bool) (a n : Nat) : FMap Bool :=
  m.filter (fun p => !decide (a ≤ p.1 * 64 ∧ p.1 * 64 + 64 ≤ a + n))

/-- Bytes written to LPDDR5X at a device address; a channel's byte counters follow address bit 8 (R290, R296). -/
def State.lpWrite (s : State) (a : Nat) (bs : List Byte) : State :=
  let s := { s with lpmem := writeBytes 0 s.lpmem a bs, lpBad := clearBlocks s.lpBad a bs.length }
  let n1 := ((List.range bs.length).filter (fun i => bit (a + i) 8)).length
  (s.bump64 .lpx 0 0x70 (bs.length - n1)).bump64 .lpx 1 0x70 n1

def State.lpCountRead (s : State) (a n : Nat) : State :=
  let n1 := ((List.range n).filter (fun i => bit (a + i) 8)).length
  (s.bump64 .lpx 0 0x68 (n - n1)).bump64 .lpx 1 0x68 n1

def State.engWrite (s : State) (a : Nat) (bs : List Byte) : State :=
  if a ≥ 2 ^ 63 then s.lpWrite (a % 2 ^ 63) bs else s.memWrite a bs

/-- A failed read in galley slice `n` or in scratchpad `c`: the memory's counter and address, and the report (R269). -/
def State.galFault (s : State) (n a ctx invoc : Nat) : State :=
  ((s.bump .gal 0 0x74 1).setReg .gal 0 0x78 a).report { kind := 1, ctx := ctx, invoc := invoc, unit := uSlice n }
def State.spadFault (s : State) (c off ctx invoc : Nat) : State :=
  ((s.bump .spd c 0x58 1).setReg .spd c 0x5C off).report { kind := 1, ctx := ctx, invoc := invoc, unit := uClu c }

/-- A failed read of a byte of the galley or a scratchpad (R269). -/
def State.memFault (s : State) (a ctx invoc : Nat) : State :=
  if isGal a then s.galFault (sliceOf a) a ctx invoc else s.spadFault (spadOf a) (a % 0x400000) ctx invoc

/-- A failed read of a byte of the LPDDR5X (R292). -/
def State.lpFault (s : State) (a ctx invoc : Nat) : State :=
  let ch := b2n (bit a 8)
  ((s.bump .lpx ch 0x4C 1).setReg64 .lpx ch 0x58 a).report { kind := 0x14, ctx := ctx, invoc := invoc, detail := a % 65536 }

def State.readFault (s : State) (lp : Bool) (a ctx invoc : Nat) : State :=
  if lp then s.lpFault a ctx invoc else s.memFault a ctx invoc

/-! ### Contexts -/

/-- A context's letter. -/
def Ctx.letter (c : Ctx) (g : Nat) : Letter := if g = 0 then c.la else c.lb
def Ctx.setLetter (c : Ctx) (g : Nat) (l : Letter) : Ctx := if g = 0 then { c with la := l } else { c with lb := l }

/-- The invocation's record changed by `f`; nothing without one in flight. -/
def Ctx.modInv (c : Ctx) (f : Inv → Inv) : Ctx := { c with inv := c.inv.map f }

/-- The physical arrays of cluster `c` that hold logical array `la` of a context's letter, in copy order (R339). -/
def State.copies (s : State) (ctx gen la c : Nat) : List Nat :=
  let l := (List.range 68).filter (fun a =>
    let r := s.arr (akey c a)
    r.owned && r.ctx == ctx && r.gen == gen && r.logical == la && r.forArr.isNone && !r.serveAt)
  l.filter (fun a => (s.arr (akey c a)).copy == 0) ++ l.filter (fun a => (s.arr (akey c a)).copy != 0)

/-- READY is reported (R508 stage code 10). -/
def State.ready (s : State) : Bool := s.sec.stage == 10

/-- Advance of the device's configuration epoch (R330, R386); on a manager it asks for a census (R388). -/
def State.cfgAdvance (s : State) : State :=
  let s := s.withCfg { s.cfg with epoch := (s.cfg.epoch + 1) % 2 ^ 32, pending := true }
  if s.sec.role = 1 ∧ bit (s.reg .dsy 1 0x40) 2 then s.withChain { s.chain with censusWait := true } else s

end Sys2Proof.Machine
end

