-- ==== Sys2Proof/Machine/Operands.lean ====
section
/-!
DEFINITION. Sys2Proof/Machine/Operands.lean: the fields of a 128-bit AIS instruction (R231 to R238, R239 to R262),
its checks at load (R207, R234, R562), loop levels (R243), and what an instruction forms from registers at issue.
-/
namespace Sys2Proof.Machine

/-- Opcode and flags byte (R231, R233). -/
def opc (w : Nat) : Nat := bits w 127 120
def wRsig (w : Nat) : Bool := bit w 112
def wRglob (w : Nat) : Bool := bit w 113
def wAdd (w : Nat) : Bool := bit w 114
def wChain (w : Nat) : Bool := bit w 115
def wX4 (w : Nat) : Bool := bit w 116
def wX5 (w : Nat) : Bool := bit w 117
def wTreg (w : Nat) : Bool := bit w 118
def wSem (w : Nat) : Nat := bits w 111 104
/-- The cluster field of every instruction that names one (R248 to R262). -/
def wClu (w : Nat) : Nat := bits w 103 98

/-- Flags an opcode accepts (R234), as a mask of the flags byte, and its operand fields as bit ranges. -/
def aisForm : Nat → Option (Nat × List (Nat × Nat))
  | 0x00 => some (0x00, [])
  | 0x01 => some (0x10, [(107, 104), (31, 0)])
  | 0x02 => some (0x00, [])
  | 0x03 => some (0x10, [(111, 109), (107, 104), (76, 64), (31, 0)])
  | 0x04 => some (0x32, [(111, 104), (103, 100), (15, 0)])
  | 0x05 => some (0x02, [(111, 104), (15, 0)])
  | 0x06 => some (0x00, [])
  | 0x07 => some (0x30, [(111, 108), (107, 104), (63, 0)])
  | 0x08 => some (0x30, [(111, 108), (107, 104), (63, 0)])
  | 0x10 => some (0x5F, [(111, 104), (103, 92), (91, 79), (78, 73), (72, 49)])
  | 0x11 => some (0x5F, [(111, 104), (103, 92), (91, 79), (78, 73), (72, 49)])
  | 0x12 => some (0x13, [(111, 104), (103, 92), (72, 49)])
  | 0x20 => some (0x47, [(111, 104), (103, 98), (97, 85), (84, 79), (78, 67), (66, 59), (58, 55), (54, 31), (30, 7)])
  | 0x21 => some (0x77, [(111, 104), (103, 98), (97, 85), (84, 74), (73, 68), (67, 64), (63, 40), (39, 16)])
  | 0x22 => some (0x47, [(111, 104), (103, 98), (97, 85), (84, 79), (78, 55), (54, 31)])
  | 0x30 => some (0x53, [(111, 104), (103, 98), (97, 85), (84, 77), (76, 73), (72, 71), (70, 69), (68, 66), (65, 42), (41, 18)])
  | 0x31 => some (0x73, [(111, 104), (103, 98), (97, 85), (84, 77), (76, 73), (72, 57), (56, 33)])
  | 0x32 => some (0x43, [(111, 104), (103, 98), (97, 85), (84, 79), (78, 55)])
  | 0x33 => some (0x43, [(111, 104), (103, 98), (97, 85), (84, 79), (78, 55)])
  | 0x34 => some (0x43, [(111, 104), (103, 98), (97, 85), (84, 76)])
  | 0x40 => some (0x13, [(111, 104), (103, 98), (97, 74), (73, 50), (49, 26)])
  | 0x41 => some (0x13, [(111, 104), (97, 74), (73, 50), (49, 26)])
  | 0x42 => some (0x13, [(111, 104), (97, 74), (73, 50), (49, 26)])
  | 0x43 => some (0x13, [(111, 104), (97, 74), (73, 50), (49, 26)])
  | 0x50 => some (0x03, [(111, 104), (103, 88), (87, 64)])
  | 0x51 => some (0x13, [(111, 104), (103, 86), (85, 62), (61, 38), (37, 14)])
  | 0x52 => some (0x13, [(111, 104), (103, 98), (97, 86), (85, 84), (83, 68), (67, 44)])
  | 0x53 => some (0x73, [(111, 104), (103, 98), (97, 85), (84, 79), (78, 66), (65, 58), (57, 42), (41, 18)])
  | 0x60 => some (0x43, [(111, 104), (103, 98), (97, 85), (84, 77), (76, 69)])
  | 0x61 => some (0x47, [(111, 104), (103, 98), (97, 85), (84, 77), (76, 69), (68, 65)])
  | _ => none

/-- The operand bits [111:0] that no field of `fs` covers. -/
def unassigned (w : Nat) (fs : List (Nat × Nat)) : Nat :=
  fs.foldl (fun v f => v - (bits v f.1 f.2 <<< f.2)) (w % 2 ^ 112)

/-- Whether an instruction hands work to a destination and so carries SEM (R235). -/
def isWork (w : Nat) : Bool := decide (opc w ≥ 0x10)

/-- Tile operand fields of an instruction (R236): low bit positions. -/
def tileFields (w : Nat) : List Nat :=
  match opc w with
  | 0x10 => [79] | 0x11 => [79]
  | 0x20 => [85] | 0x21 => [85] | 0x22 => [85] | 0x30 => [85] | 0x31 => [85] | 0x32 => [85] | 0x33 => [85] | 0x34 => [85]
  | 0x53 => [85, 66] | 0x60 => [85] | 0x61 => [85]
  | _ => []

/-- The reserved-field check of R207: reserved bits, flags and encodings, and fields that must be 0 (R562). -/
def rsvdBad (w : Nat) : Bool :=
  match aisForm (opc w) with
  | none => false
  | some (fm, fs) =>
    let fl := bits w 119 112
    decide (fl &&& (0xFF ^^^ fm) ≠ 0) || decide (unassigned w fs ≠ 0)
    || (isWork w && !wRsig w && decide (wSem w ≠ 0))
    || (!wTreg w && (tileFields w).any (fun lo => decide (bits w (lo + 12) (lo + 9) ≠ 0)))
    || (match opc w with
        | 0x01 => if wX4 w then decide (bits w 31 0 ≠ 0) else decide (bits w 107 104 ≠ 0)
        | 0x03 =>
          let cond := bits w 111 109
          decide (cond ≥ 5) || (decide (cond = 0) && !wX4 w && decide (bits w 107 104 ≠ 0))
            || (decide (cond < 3) && decide (bits w 31 0 ≠ 0))
        | 0x04 => (wX5 w && (decide (wSem w ≠ 0) || wRglob w))
            || (if wX4 w then decide (bits w 15 0 ≠ 0) else decide (bits w 103 100 ≠ 0))
        | 0x07 => if wX5 w then decide (bits w 63 0 ≠ 0) else decide (bits w 107 104 ≠ 0)
        | 0x08 => !wX5 w && decide (bits w 107 104 ≠ 0)
        | 0x12 => !wX4 w && decide (bits w 72 49 ≠ 0)
        | 0x21 => !wX4 w && decide (bits w 73 68 ≠ 0)
        | 0x30 => decide (bits w 72 71 = 3) || decide (bits w 68 66 ≥ 5)
            || (decide (bits w 72 71 = 0) && (decide (bits w 70 69 ≠ 0) || decide (bits w 65 42 ≠ 0)))
        | 0x40 => !wX4 w && (decide (bits w 73 50 ≠ 0) || decide (bits w 49 26 ≠ 0))
        | 0x41 => !wX4 w && (decide (bits w 73 50 ≠ 0) || decide (bits w 49 26 ≠ 0))
        | 0x42 => !wX4 w && (decide (bits w 73 50 ≠ 0) || decide (bits w 49 26 ≠ 0))
        | 0x43 => !wX4 w && (decide (bits w 73 50 ≠ 0) || decide (bits w 49 26 ≠ 0))
        | 0x51 => !wX4 w && decide (bits w 37 14 ≠ 0)
        | 0x52 => decide (bits w 85 84 = 3)
        | 0x53 => !wX4 w && decide (bits w 41 18 ≠ 0)
        | _ => false)

/-- The layer word of a placement entry or of ARR.LAYER (R106). -/
def layerOf (lw : Nat) : Layer :=
  { gain := bits lw 2 0, w8 := bit lw 3, inbits := bits lw 5 4, insigned := bit lw 6, split := bits lw 9 8, rows := bits lw 21 12 }

def Layer.groups (l : Layer) : Nat := 2 ^ l.split
/-- Segment gain g (R82), outputs M (R101), and input magnitude limits (R73). -/
def Layer.g (l : Layer) : Nat := 4 * 2 ^ l.gain
def Layer.outs (l : Layer) : Nat := if l.w8 then 128 else 256
def Layer.phases (l : Layer) : Nat := l.inbits + 2

/-- What a program may name (R207): resource claims, placement (cluster, flags, layer) per logical array, and the
context's redundancy level. -/
structure ImgEnv where
  claims : List (List Nat)
  places : List (Nat × Nat × Layer)
  red    : Nat
  deriving DecidableEq, Repr

/-- Whether unit `n` of kind `k` in cluster `c` is claimed (R335). -/
def claimed (claims : List (List Nat)) (k c n : Nat) : Bool :=
  claims.any (fun r => nth 0 r 0 == k && nth 0 r 1 == c && decide (nth 0 r 2 ≤ n ∧ n < nth 0 r 2 + nth 0 r 3))

def tilesClaimed (claims : List (List Nat)) (c t n : Nat) : Bool :=
  (List.range n).all (fun i => decide (t + i ≤ 511) && claimed claims 1 c (t + i))

/-- Tiles an instruction touches: cluster, field position and count, by its fixed fields (R247 to R262). -/
def tileSpans (env : ImgEnv) (w : Nat) : List (Nat × Nat × Nat) :=
  let la := bits w 103 92
  let pl := nth (64, 0, {}) env.places la
  match opc w with
  | 0x10 => [(pl.1, 79, bits w 78 73 + 1)]
  | 0x11 => [(pl.1, 79, (bits w 78 73 + 1) * pl.2.2.groups)]
  | 0x20 => [(wClu w, 85, bits w 84 79 + 1)]
  | 0x21 => [(wClu w, 85, ceilDiv (bits w 84 74 + 1) 32)]
  | 0x22 => [(wClu w, 85, bits w 84 79 + 1)]
  | 0x30 => [(wClu w, 85, 1)] | 0x31 => [(wClu w, 85, 1)]
  | 0x32 => [(wClu w, 85, bits w 84 79 + 1)] | 0x33 => [(wClu w, 85, bits w 84 79 + 1)]
  | 0x34 => [(wClu w, 85, bits w 84 76 + 1)]
  | 0x53 => [(wClu w, 85, 1), (bits w 84 79, 66, 1)]
  | 0x60 => [(wClu w, 85, 1)] | 0x61 => [(wClu w, 85, 1)]
  | _ => []

/-- Cluster of an MVM's or MVMS's logical array with its fixed tile, for the closure rule of R207. -/
def mvmTile (env : ImgEnv) (w : Nat) : Option (Nat × Nat) :=
  if (opc w = 0x10 ∨ opc w = 0x11) ∧ !wTreg w then some ((nth (64, 0, {}) env.places (bits w 103 92)).1, bits w 87 79) else none

/-- The legal-value check of R207. `before` holds the stream's earlier instructions, nearest first. -/
def valueBad (env : ImgEnv) (before : List Nat) (w : Nat) : Bool :=
  let la := bits w 103 92
  let placed := decide (la < env.places.length)
  let pl := nth (64, 0, {}) env.places la
  let v := bits w 78 73 + 1
  let closes :=
    match mvmTile env w with
    | none => false
    | some t => !wChain w && (match before.find? (fun b => mvmTile env b == some t) with | none => false | some b => wChain b)
  let mvm := (wChain w && (wAdd w || decide (v > 1))) || (closes && decide (v > 1))
    || (wX4 w && env.red == 1 && placed && !bit pl.2.1 0)
  match opc w with
  | 0x01 => !wX4 w && decide (bits w 31 0 = 0)
  | 0x04 => !wX4 w && decide (bits w 15 0 = 0)
  | 0x05 => decide (bits w 15 0 = 0)
  | 0x07 => wX4 w && !wX5 w && decide (bits w 63 32 ≠ 0)
  | 0x08 => wX4 w && decide (bits w 63 31 ≠ 0 ∧ bits w 63 31 ≠ 2 ^ 33 - 1)
  | 0x10 => mvm || (placed && decide (pl.2.2.split ≠ 0))
  | 0x11 => mvm || (placed && wChain w && decide (pl.2.2.split ≠ 0))
      || (placed && !wTreg w && decide (bits w 87 79 + pl.2.2.groups - 1 > 511))
  | 0x61 => decide (bits w 68 65 = 0)
  | _ => false

/-- A semaphore named under R235 or R245: whether it is outside what the context may name. -/
def semBad (env : ImgEnv) (glob wait : Bool) (i : Nat) : Bool :=
  if glob then !(claimed env.claims 3 0 i && decide (i ≤ 239)) && !(wait && decide (240 ≤ i ∧ i ≤ 247)) else decide (i ≥ 64)

/-- The reference check of R207. -/
def rangeBad (env : ImgEnv) (w : Nat) : Bool :=
  (isWork w && wRsig w && semBad env (wRglob w) false (wSem w))
  || (decide (opc w = 4) && !wX5 w && semBad env (wRglob w) true (wSem w))
  || (decide (opc w = 5) && semBad env (wRglob w) false (wSem w))
  || (decide (opc w = 0x10 ∨ opc w = 0x11 ∨ opc w = 0x12) && !decide (bits w 103 92 < env.places.length))
  || (!wTreg w && (tileSpans env w).any (fun sp => !tilesClaimed env.claims sp.1 (bits w (sp.2.1 + 8) sp.2.1) sp.2.2))
  || (decide (opc w = 0x30 ∨ opc w = 0x31) && !claimed env.claims 2 (wClu w) (bits w 76 73))

/-- For each instruction, the LOOPs (by index) whose bodies hold it, innermost first (R243). -/
def loopLevels : List Nat → Nat → List Nat → List (List Nat)
  | [], _, _ => []
  | w :: r, i, st =>
    st :: loopLevels r (i + 1) (if opc w = 1 then i :: st else if opc w = 2 then st.drop 1 else st)

/-- Index of the ENDLOOP that closes the innermost loop of level `lv`. -/
def endOf (ws : List Nat) (lv : List Nat) : Option Nat :=
  findIdx (fun p => opc p.1 == 2 && p.2 == lv) (List.zip ws (loopLevels ws 0 [])) 0

/-- Whether a BRC at level `lv` may branch to `t` (R243). -/
def brcOk (ws : List Nat) (lv : List Nat) (t : Nat) : Bool :=
  nth [] (loopLevels ws 0 []) t == lv || (!lv.isEmpty && (match endOf ws lv with | none => false | some j => t == j + 1))

/-- The instruction checks of R207, in stream order; `depth` is the number of open LOOPs. -/
def checkInstrs (env : ImgEnv) (len : Nat) : List Nat → List Nat → Nat → Option Code
  | [], _, _ => none
  | w :: r, before, depth =>
    if (aisForm (opc w)).isNone then some .opcode
    else if rsvdBad w then some .rsvd
    else if valueBad env before w then some .value
    else if rangeBad env w then some .range
    else if opc w = 3 ∧ bits w 76 64 ≥ len then some .range
    else if (opc w = 2 ∧ depth = 0) ∨ (opc w = 1 ∧ depth ≥ 8) then some .value
    else checkInstrs env len r (w :: before) (if opc w = 1 then depth + 1 else if opc w = 2 then depth - 1 else depth)

def loopDepth (ws : List Nat) : Nat :=
  ws.foldl (fun d w => if opc w = 1 then d + 1 else if opc w = 2 then d - 1 else d) 0

/-- The three parts of a stream's validation (R207); `count` is the header's instruction count. -/
def checkStream (env : ImgEnv) (count : Nat) (ws : List Nat) : Option Code :=
  if count = 0 ∨ count > 8192 then some .range
  else match checkInstrs env ws.length ws [] 0 with
  | some c => some c
  | none =>
    if loopDepth ws ≠ 0 then some .value
    else if (List.zip ws (loopLevels ws 0 [])).any (fun p => opc p.1 == 3 && !brcOk ws p.2 (bits p.1 76 64)) then some .value
    else if opc (ws.getLastD 0) ≠ 6 then some .range
    else none

/-! ### Operands formed at issue (R236, R237) -/

def StreamSt.ra (st : StreamSt) (i : Nat) : Nat := FMap.get 0 st.a i
def StreamSt.rc (st : StreamSt) (i : Nat) : Nat := FMap.get 0 st.c i
def StreamSt.setA (st : StreamSt) (i v : Nat) : StreamSt := { st with a := FMap.put 0 st.a i (v % 2 ^ 64) }
def StreamSt.setC (st : StreamSt) (i v : Nat) : StreamSt := { st with c := FMap.put 0 st.c i v }

/-- Effective address of the operand whose lowest bit is `lo` (R237). -/
def effA (st : StreamSt) (w lo : Nat) : Nat :=
  let o := bits w (lo + 23) lo
  toBits 64 ((st.ra (bits o 23 20) : Int) + 64 * sext 20 o)

/-- The tile an operand names at issue (R236). -/
def effT (st : StreamSt) (w lo : Nat) : Nat :=
  bits w (lo + 8) lo + (if wTreg w then st.rc (bits w (lo + 12) (lo + 9)) else 0)

/-- A loop-counter result, saturated at 0 and `2^32 - 1` (R208). -/
def satC (v : Int) : Nat := (clampI 0 (2 ^ 32 - 1) v).toNat

end Sys2Proof.Machine
end

