-- ==== Sys2Proof/Machine/Conv.lean ====
section
/-!
DEFINITION. Sys2Proof/Machine/Conv.lean: what an array computes: cells (R70 to R72, R93, R94, R97), input digits
(R73 to R75), conversion and coarse re-conversion (R81 to R84), the adder tree (R85, R86) and check values (R95).
A vector's analogue deviations, in units of 2^-16 array units, come with the command; none means R96's exact case.
-/
namespace Sys2Proof.Machine

/-- The canonical split of a weight into high and low slices (R72). -/
def hiSlice (w : Int) : Int := if w < 0 then -((w.natAbs / 16 : Nat) : Int) else ((w.natAbs / 16 : Nat) : Int)
def loSlice (w : Int) : Int := w - 16 * hiSlice w

/-- Half of an output (R93). -/
def halfOf (w8 : Bool) (q : Nat) : Nat := if w8 then (if q < 64 then 0 else 1) else (if q < 128 then 0 else 1)

/-- Row sums of one half, over the rows that hold a weight, in the order of the rising weight keys (R93). -/
def rowSums (w8 : Bool) (h : Nat) (ws : FMap Int) : List (Nat × Int) :=
  (ws.foldl (fun (acc : List (Nat × Int)) kv =>
    let r := kv.1 / 256
    let v := if halfOf w8 (kv.1 % 256) = h then kv.2 else 0
    match acc with
    | (r', t) :: rest => if r' = r then (r', t + v) :: rest else (r, v) :: acc
    | [] => [(r, v)]) []).reverse

/-- The checksum scale of a half (R94). -/
def ckScale (sums : List (Nat × Int)) : Nat := if sums.all (fun p => (divRNA p.2 16).natAbs ≤ 127) then 16 else 64

/-- Level differences (row, pair, L⁺ - L⁻) of data and checksum pairs (R71, R72, R94). -/
def dataCells (l : Layer) (ws : FMap Int) : List (Nat × Nat × Int) :=
  if l.w8 then ws.flatMap (fun p => [(p.1 / 256, 2 * (p.1 % 256), loSlice p.2), (p.1 / 256, 2 * (p.1 % 256) + 1, hiSlice p.2)])
  else ws.map (fun p => (p.1 / 256, p.1 % 256, p.2))

def ckCells (l : Layer) (ws : FMap Int) (h : Nat) : List (Nat × Nat × Int) :=
  let sums := rowSums l.w8 h ws
  let s := ckScale sums
  sums.flatMap (fun p => let c := divRNA p.2 s; [(p.1, 256 + 2 * h, loSlice c), (p.1, 257 + 2 * h, hiSlice c)])

def cellsOf (l : Layer) (ws : FMap Int) : List (Nat × Nat × Int) := dataCells l ws ++ ckCells l ws 0 ++ ckCells l ws 1

/-- Level of a reference pair on a row (R97). -/
def refLevel (q r : Nat) : Int := if q = 260 then (if r % 2 = 0 then 8 else 15) else (if r % 2 = 0 then 15 else 8)

/-- Largest input magnitudes of a format (R73): least and greatest value. -/
def inRange (l : Layer) : Int × Int :=
  match l.inbits, l.insigned with
  | 0, true => (-7, 7) | 1, true => (-31, 31) | _, true => (-127, 127)
  | 0, false => (0, 15) | 1, false => (0, 63) | _, false => (0, 255)

/-- An input byte as the feeder takes it (R74): its value and whether it was clamped. -/
def feedByte (l : Layer) (b : Byte) : Int × Bool :=
  let v : Int := if l.insigned then b.toInt else (b.toNat : Int)
  let r := inRange l
  (clampI r.1 r.2 v, decide (v < r.1 ∨ v > r.2))

/-- Digit of phase `p` (1 to 4) with its sign (R75). -/
def digit (x : Int) (p : Nat) : Int :=
  let d : Int := ((x.natAbs / 4 ^ (p - 1) % 4 : Nat) : Int)
  if x < 0 then -d else d

/-- One conversion of a held sum (R81 to R83): value in fine LSB, the weight m, coarse, clipped. -/
def segConv (g : Nat) (i d0 d1 : Int) : Int × Nat × Bool × Bool :=
  let full := g * 65536
  let i0 := i * 65536 + d0
  let a := i0.natAbs
  if 2 * a < 127 * full then
    let c : Nat := min 63 ((2 * a + full) / (2 * full))
    ((if i0 < 0 then -(c : Int) else (c : Int)), 1, false, false)
  else
    let i1 := i * 65536 + d1
    let b := i1.natAbs
    let c : Nat := min 63 ((2 * b + 4 * full) / (8 * full))
    (4 * (if i1 < 0 then -(c : Int) else (c : Int)), 4, true, decide (2 * b ≥ 127 * (4 * full)))

/-- Running sums of one pair over phases and segments: Σ4^(p-1)·m·(4c - o) in quarter LSB, raw ΣU and Σn (R85, R124),
flags and counts (R83, R84). -/
structure PairSum where
  y4     : Int := 0
  u      : Int := 0
  n      : Nat := 0
  coarse : Bool := false
  clip   : Bool := false
  nco    : Nat := 0
  nov    : Nat := 0
  deriving DecidableEq, Repr

/-- Segment `s` holds a digit in phase `p`; otherwise it is skipped (R78). -/
def segDriven (xs : FMap Int) (p s : Nat) : Bool := xs.any (fun e => e.1 / 64 == s && decide (digit e.2 p ≠ 0))

/-- Difference sum of segment `s` and a pair with the given cells (row, level difference) in phase `p` (R75). -/
def segSum (cells : List (Nat × Int)) (xs : FMap Int) (p s : Nat) : Int :=
  cells.foldl (fun t c => if c.1 / 64 = s then t + digit (FMap.get 0 xs c.1) p * c.2 else t) 0

/-- One phase and segment added to a pair's sums. -/
def pairStep (g : Nat) (off : Int) (cells : List (Nat × Int)) (xs : FMap Int) (dev : List Int) (q : Nat)
    (acc : PairSum) (ps : Nat × Nat) : PairSum :=
  let p := ps.1
  let s := ps.2
  let ix := 2 * (((p - 1) * 8 + s) * 262 + q)
  let r := segConv g (segSum cells xs p s) (nth 0 dev ix) (nth 0 dev (ix + 1))
  let k : Int := (4 : Int) ^ (p - 1)
  { y4 := acc.y4 + k * (4 * r.1 - (r.2.1 : Int) * off), u := acc.u + k * r.1, n := acc.n + 4 ^ (p - 1) * r.2.1
    coarse := acc.coarse || r.2.2.1, clip := acc.clip || r.2.2.2
    nco := acc.nco + b2n r.2.2.1, nov := acc.nov + b2n r.2.2.2 }

/-- The driven (phase, segment) pairs of group `k` of `G`, in order (R78, R90). -/
def driven (xs : FMap Int) (phases G k : Nat) : List (Nat × Nat) :=
  (List.range phases).flatMap (fun p =>
    ((List.range (8 / G)).map (fun j => (p + 1, 8 * k / G + j))).filter (fun ps => segDriven xs ps.1 ps.2))

/-- A pair's corrected sum with 16 fraction bits (R85). The direction in which the tree drops what lies below them
is not stated: free (log 20). -/
def corrected (ps : PairSum) (gain fr : Nat) : Int :=
  let num := ps.y4 * 2 ^ 28
  let q := num / (gain : Int)
  if num % (gain : Int) ≠ 0 ∧ Config.roundUp fr then q + 1 else q

/-- Everything one vector yields (R80 to R96). -/
structure VecOut where
  vals   : List (List Int)
  coarse : List Bool
  clip   : List Bool
  cks    : List (Nat × Nat × Nat × Bool)
  stats  : List (Nat × Int × Nat)      -- (pair, U, n) of each qualifying sample (R124)
  nco    : Nat
  nov    : Nat
  deriving DecidableEq, Repr

/-- Coefficients of a pair in the active forme (R85, R108). -/
def Arr.coef (a : Arr) (f q : Nat) : Coef := FMap.get {} a.forme (512 * f + q)

/-- The sums of pairs 0 to 261 of group `k` (the reference pairs count re-conversions only, R77, R84). -/
def groupSums (a : Arr) (xs : FMap Int) (dev : List Int) (k : Nat) : List PairSum :=
  let cells := cellsOf a.layer a.weights
  let refc := xs.map (fun e => e.1)
  let ds := driven xs a.layer.phases a.layer.groups k
  (List.range 262).map (fun q =>
    let cs := if q < 260 then (cells.filter (fun c => c.2.1 == q)).map (fun c => (c.1, c.2.2))
      else refc.map (fun r => (r, refLevel q r))
    ds.foldl (pairStep a.layer.g (if q < 260 then (a.coef a.active q).off else 0) cs xs dev q) {})

/-- Results of one group (R86, R95): values, COARSE, CLIP, check values of both halves, statistics, counts. -/
def groupOut (a : Arr) (xs : FMap Int) (dev : List Int) (fr k : Nat) : VecOut :=
  let G := a.layer.groups
  let xk := xs.filter (fun e => e.1 / 64 * G / 8 == k)
  let m := a.layer.outs
  if xk.isEmpty then ⟨[List.replicate m 0], [false], [false], [], [], 0, 0⟩
  else
    let ps := groupSums a xs dev k
    let y := (List.range 260).map (fun q => corrected (nth {} ps q) (a.coef a.active q).gain (fr + 260 * k + q))
    let out := (List.range m).map (fun j =>
      if a.layer.w8 then divRNE (16 * nth 0 y (2 * j + 1) + nth 0 y (2 * j)) 65536 else divRNE (nth 0 y j) 65536)
    let cks := (List.range 2).map (fun h =>
      let kh := divRNE (16 * nth 0 y (257 + 2 * h) + nth 0 y (256 + 2 * h)) 65536
      let tot := ((out.drop (h * (m / 2))).take (m / 2)).foldl (· + ·) 0
      let e := tot - (ckScale (rowSums a.layer.w8 h a.weights) : Int) * kh
      let cl := ((ps.drop (128 * h)).take 128).any (fun p => p.clip) || (nth {} ps (256 + 2 * h)).clip || (nth {} ps (257 + 2 * h)).clip
      (k, h, e.natAbs, cl))
    let data := ps.take 256
    ⟨[out], [data.any (fun p => p.coarse)], [data.any (fun p => p.clip)], cks,
     ((List.range 260).filter (fun q => !(nth {} ps q).clip)).map (fun q => (q, (nth {} ps q).u, (nth {} ps q).n)),
     ps.foldl (fun t p => t + p.nco) 0, ps.foldl (fun t p => t + p.nov) 0⟩

/-- A vector's outcome over all groups; `xs` are the clamped inputs by data row. -/
def vecOut (a : Arr) (xs : FMap Int) (dev : List Int) (fr : Nat) : VecOut :=
  (List.range a.layer.groups).foldl (fun v k =>
    let g := groupOut a xs dev fr k
    ⟨v.vals ++ g.vals, v.coarse ++ g.coarse, v.clip ++ g.clip, v.cks ++ g.cks, v.stats ++ g.stats, v.nco + g.nco, v.nov + g.nov⟩)
    ⟨[], [], [], [], [], 0, 0⟩

/-- Inputs by data row from the sub-vectors' bytes (R101, R102): group `k`'s input `i` drives row `64·(8k/G) + i`. -/
def rowInputs (l : Layer) (subs : List (List Byte)) : FMap Int :=
  (List.range subs.length).flatMap (fun k =>
    (((List.range l.rows).map (fun i => (64 * (8 * k / l.groups) + i, (feedByte l (nth 0 (nth [] subs k) i)).1))).filter
      (fun e => decide (e.2 ≠ 0))))

def clampCount (l : Layer) (subs : List (List Byte)) : Nat :=
  subs.foldl (fun t b => t + ((b.take l.rows).filter (fun x => (feedByte l x).2)).length) 0

end Sys2Proof.Machine
end

