-- ==== Sys2Proof/Machine/Float.lean ====
section
/-!
DEFINITION. Sys2Proof/Machine/Float.lean: IEEE 754 binary32 and binary16 arithmetic as the LV8 uses it
(R149 to R151, R160, R161, R164): exact values as signed dyadic numbers, rounded once.
-/
namespace Sys2Proof.Machine

/-- A number of the output unit or of an ACC.FP tile: NaN, an infinity, or `(-1)^neg * m * 2^e` exactly. -/
inductive FVal where
  | nan
  | inf (neg : Bool)
  | fin (neg : Bool) (m : Nat) (e : Int)
  deriving DecidableEq, Repr

/-- How a value is rounded: to nearest even, or by a 16-bit draw (R150). -/
inductive Rnd where
  | rne
  | sr (draw : Nat)
  deriving DecidableEq, Repr

/-- An IEEE interchange value with `mb` mantissa bits, `eb` exponent bits and least exponent `emin`. -/
def decodeIeee (mb eb : Nat) (emin : Int) (v : Nat) : FVal :=
  let s := bit v (mb + eb)
  let ex := bits v (mb + eb - 1) mb
  let m := v % 2 ^ mb
  if ex = 2 ^ eb - 1 then (if m = 0 then .inf s else .nan)
  else if ex = 0 then .fin s m emin
  else .fin s (2 ^ mb + m) (emin + (ex : Int) - 1)

def decode32 (v : Nat) : FVal := decodeIeee 23 8 (-149) v
def decode16 (v : Nat) : FVal := decodeIeee 10 5 (-24) v

/-- The interchange form of a value already rounded to the format; NaN is `nanBits`. -/
def encodeIeee (mb eb : Nat) (emin : Int) (nanBits : Nat) : FVal → Nat
  | .nan => nanBits
  | .inf s => b2n s <<< (mb + eb) ||| ((2 ^ eb - 1) <<< mb)
  | .fin s m e =>
    if m = 0 then b2n s <<< (mb + eb)
    else
      let len := Nat.log2 m
      let top : Int := e + len          -- exponent of the leading one
      let q : Int := max (top - mb) emin   -- exponent of the last place
      let k := if e ≥ q then m <<< (e - q).toNat else m >>> (q - e).toNat
      let ex := (q - emin).toNat
      (b2n s <<< (mb + eb)) + (if k < 2 ^ mb then k else ((ex + 1) <<< mb) + (k - 2 ^ mb))

def encode32 (v : FVal) : Nat := encodeIeee 23 8 (-149) 0x7FC00000 v
def encode16 (v : FVal) : Nat := encodeIeee 10 5 (-24) 0x7E00 v

/-- A magnitude `m * 2^e` rounded to a multiple of `2^q` (R150 step 2): the multiple. -/
def roundMag (r : Rnd) (m : Nat) (e q : Int) : Nat :=
  if e ≥ q then m <<< (e - q).toNat
  else
    let sh := (q - e).toNat
    let k := m >>> sh
    let rem := m - (k <<< sh)
    if rem = 0 then k
    else match r with
      | .rne => if 2 * rem < 2 ^ sh then k else if 2 * rem > 2 ^ sh then k + 1 else if k % 2 = 0 then k else k + 1
      | .sr draw => if draw < (rem <<< 16) >>> sh then k + 1 else k

/-- A value rounded once to a format with `prec` bits, least place `2^emin` and overflow at `2^emax`. -/
def roundFmt (prec : Nat) (emin : Int) (emax : Nat) (r : Rnd) : FVal → FVal
  | .nan => .nan
  | .inf s => .inf s
  | .fin s m e =>
    if m = 0 then .fin s 0 0
    else
      let q : Int := max (e + Nat.log2 m - (prec - 1 : Nat)) emin
      let k := roundMag r m e q
      if k = 0 then .fin s 0 0
      else if q + Nat.log2 k ≥ emax then .inf s
      else .fin s k q

def round32 (r : Rnd) (v : FVal) : FVal := roundFmt 24 (-149) 128 r v
def round16 (r : Rnd) (v : FVal) : FVal := roundFmt 11 (-24) 16 r v

/-- A value rounded to an integer (R161); meaningful for finite values. -/
def roundInt (r : Rnd) : FVal → Int
  | .fin s m e => let k := roundMag r m e 0; if s then -(k : Int) else (k : Int)
  | _ => 0

def FVal.isNan : FVal → Bool | .nan => true | _ => false
def FVal.isInf : FVal → Bool | .inf _ => true | _ => false

/-- An integer as an exact value; zero is +0. -/
def ofInt (i : Int) : FVal := .fin (decide (i < 0)) i.natAbs 0

/-- The signed mantissa of a finite value at the exponent `q ≤ e`. -/
def mantAt (s : Bool) (m : Nat) (e q : Int) : Int :=
  let k : Nat := m <<< (e - q).toNat
  if s then -(k : Int) else (k : Int)

/-- Exact sum; an exact zero takes the sign that round-to-nearest gives it (R150 steps 1 and 4). -/
def addExact : FVal → FVal → FVal
  | .nan, _ => .nan
  | _, .nan => .nan
  | .inf a, .inf b => if a = b then .inf a else .nan
  | .inf a, _ => .inf a
  | _, .inf b => .inf b
  | .fin sa ma ea, .fin sb mb eb =>
    let q := min ea eb
    let t := mantAt sa ma ea q + mantAt sb mb eb q
    if t = 0 then .fin (sa && sb) 0 0 else .fin (decide (t < 0)) t.natAbs q

/-- Exact product. -/
def mulExact : FVal → FVal → FVal
  | .nan, _ => .nan
  | _, .nan => .nan
  | .inf a, .inf b => .inf (a != b)
  | .inf a, .fin b m _ => if m = 0 then .nan else .inf (a != b)
  | .fin a m _, .inf b => if m = 0 then .nan else .inf (a != b)
  | .fin a ma ea, .fin b mb eb => .fin (a != b) (ma * mb) (ea + eb)

def negF : FVal → FVal
  | .nan => .nan
  | .inf s => .inf (!s)
  | .fin s m e => .fin (!s) m e

/-- `⌊v⌋` of a finite value. -/
def floorF (s : Bool) (m : Nat) (e : Int) : Int :=
  if e ≥ 0 then (let k : Nat := m <<< e.toNat; if s then -(k : Int) else (k : Int))
  else (if s then -(m : Int) else (m : Int)) / ((2 ^ (-e).toNat : Nat) : Int)

/-- Strict order of numbers; infinities are ordered values and +0 = -0 (R164). NaN compares with nothing. -/
def ltF : FVal → FVal → Bool
  | .nan, _ => false
  | _, .nan => false
  | .inf a, .inf b => a && !b
  | .inf a, _ => a
  | _, .inf b => !b
  | .fin sa ma ea, .fin sb mb eb => let q := min ea eb; decide (mantAt sa ma ea q < mantAt sb mb eb q)

/-- A binary32 product or sum, rounded to nearest even (R160). -/
def mul32 (a b : FVal) : FVal := round32 .rne (mulExact a b)
def add32 (a b : FVal) : FVal := round32 .rne (addExact a b)

/-- Fixed-point natural logarithm: `2^64 * ln (num / den)` for `num, den > 0`, by halving to [1, 2) and the
series of the inverse hyperbolic tangent (30 terms). -/
def atanhSeries : Nat → Nat → Nat → Nat → Nat
  | 0, _, _, _ => 0
  | n + 1, k, zp, z2 => zp / (2 * k + 1) + atanhSeries n (k + 1) ((zp * z2) >>> 80) z2

def lnUnit (num den : Nat) : Nat :=
  let z := ((num - den) <<< 80) / (num + den)
  (2 * atanhSeries 30 0 z ((z * z) >>> 80)) >>> 16

def ln2Q : Nat := lnUnit 2 1

def lnQ (num den : Nat) : Int :=
  if num = 0 ∨ den = 0 then 0
  else
    let k : Int := (Nat.log2 num : Int) - (Nat.log2 den : Int)
    let n' := if k < 0 then num <<< (-k).toNat else num
    let d' := if k ≥ 0 then den <<< k.toNat else den
    if n' ≥ d' then k * ln2Q + lnUnit n' d' else (k - 1) * ln2Q + lnUnit (2 * n') d'

def expSeries : Nat → Nat → Nat → Nat → Nat
  | 0, _, _, _ => 0
  | n + 1, k, t, x => t + expSeries n (k + 1) (((t * x) >>> 64) / (k + 1)) x

/-- `2^64 * exp (x / 2^64)`. -/
def expQ (x : Int) : Nat :=
  let n := x / (ln2Q : Int)
  let r := (x % (ln2Q : Int)).toNat
  let v := expSeries 40 0 (2 ^ 64) r
  if n ≥ 0 then v <<< n.toNat else v >>> (-n).toNat

/-- Integer square root, by bits from `n` down. -/
def isqrtAux : Nat → Nat → Nat → Nat
  | 0, _, r => r
  | n + 1, v, r => let c := r + 2 ^ n; isqrtAux n v (if c * c ≤ v then c else r)

def isqrt (v : Nat) : Nat := isqrtAux (Nat.log2 v / 2 + 1) v 0

end Sys2Proof.Machine
end

