-- ==== Sys2Proof/Machine/Flags.lean ====
section
/-!
DEFINITION. Sys2Proof/Machine/Flags.lean: tile entries and tile flags (R147 to R153), the random streams (R151), and
the FLAGS of a completion (R63).
-/
namespace Sys2Proof.Machine

/-- One step of a random stream (R151). -/
def lfsrStep (s : Nat) : Nat := if s % 2 = 1 then (s / 2) ^^^ 0xD800000000000000 else s / 2

def lfsrSkip : Nat → Nat → Nat
  | 0, s => s
  | n + 1, s => lfsrSkip n (lfsrStep s)

/-- The next 16 bits out, first bit out as bit 0, and the state after. -/
def lfsrBits : Nat → Nat → Nat → Nat × Nat
  | 0, _, s => (0, s)
  | n + 1, k, s => let r := lfsrBits n (k + 1) (lfsrStep s); ((if s % 2 = 1 then 2 ^ k else 0) + r.1, r.2)

/-- `n` draws from state `s`. -/
def draws : Nat → Nat → List Nat
  | 0, _ => []
  | n + 1, s => let r := lfsrBits 16 0 s; r.1 :: draws n r.2

/-- A seed of a context's streams (R151). -/
def seedA (seed invoc c : Nat) : Nat :=
  let v := seed ^^^ ((invoc <<< 16) % 2 ^ 64) ^^^ c
  if v = 0 then 1 else v
def seedO (seed invoc c : Nat) : Nat :=
  let v := (2 ^ 64 - 1 - seed % 2 ^ 64) ^^^ ((invoc <<< 16) % 2 ^ 64) ^^^ c
  if v = 0 then 1 else v

/-- Ones in the low `n` bits. -/
def ones : Nat → Nat → Nat
  | 0, _ => 0
  | n + 1, v => v % 2 + ones n (v / 2)

/-- Whether an entry's parity is wrong (R147, R149). -/
def parWrong (e : Nat) : Bool := ones 40 e % 2 == 1

/-- Bits [38:0] with their parity bit. -/
def withPar (v : Nat) : Nat := v % 2 ^ 39 + (if ones 39 v % 2 = 1 then 2 ^ 39 else 0)

/-- An ACC.FX entry (R147). -/
def fxSum (e : Nat) : Int := sext 38 (bits e 37 0)
def fxWrap (e : Nat) : Bool := bit e 38
def in38 (v : Int) : Bool := decide (-(2 ^ 37) ≤ v ∧ v ≤ 2 ^ 37 - 1)
def fxEntry (v : Int) (wrap : Bool) : Nat := withPar (toBits 38 v + (b2n wrap <<< 38))
def fxOvw (v : Int) : Nat := fxEntry v (!in38 v)
def fxAdd (e : Nat) (v : Int) : Nat := let t := fxSum e + v; fxEntry t (fxWrap e || !in38 t)

/-- The visible value of an ACC.FX entry, and whether the read sets SAT (R148). -/
def fxVisible (e : Nat) : Int × Bool :=
  let m : Int := 2 ^ 31 - 1
  let v := fxSum e
  if fxWrap e then (if v ≥ 0 then m else -m, true) else (clampI (-m) m v, decide (v < -m ∨ v > m))

/-- An ACC.FP entry from a rounded value (R149): OVF and INV as the write found them. -/
def fpEntry (v : FVal) (ovf inv : Bool) : Nat := withPar (encode32 v + (b2n ovf <<< 32) + (b2n inv <<< 33))
def fpVal (e : Nat) : FVal := decode32 (bits e 31 0)

/-- One ACC.FP write (R150): the new entry, and whether it has OVF or INV. OVF and INV last until the next
overwrite, so an ADD keeps those the entry has. -/
def fpWrite (add : Bool) (e : Nat) (v : FVal) (draw : Nat) : Nat × Bool × Bool :=
  let exact := if add then addExact (fpVal e) v else v
  let r := round32 (.sr draw) exact
  let ovf := r.isInf && !exact.isInf
  let inv := add && r.isNan && !(fpVal e).isNan && !v.isNan
  (fpEntry r (ovf || (add && bit e 32)) (inv || (add && bit e 33)), ovf, inv)

/-- An entry of a tile. -/
def Tile.e (t : Tile) (i : Nat) : Nat := FMap.get 0 t.ent i
def Tile.setE (t : Tile) (i v : Nat) : Tile := { t with ent := FMap.put 0 t.ent i v }

/-- First entry below `n` with wrong parity. -/
def Tile.badPar (t : Tile) (n : Nat) : Option Nat := findIdx (fun i => parWrong (t.e i)) (List.range n) 0

/-- Entries written under OVW or ADD in ACC.FX; `none` leaves an entry (R87, R147). -/
def writeFxE (add : Bool) : Nat → List (Option Int) → Tile → Tile
  | _, [], t => t
  | i, none :: r, t => writeFxE add (i + 1) r t
  | i, some v :: r, t => writeFxE add (i + 1) r (t.setE i (if add then fxAdd (t.e i) v else fxOvw v))

/-- Entries written in ACC.FP, each with its draw (R150, R151): the tile, OVF results and INV results. -/
def writeFpE (add : Bool) : Nat → List (Option FVal) → List Nat → Tile → Tile × Nat × Nat
  | _, [], _, t => (t, 0, 0)
  | i, v :: r, ds, t =>
    let rest := ds.drop 1
    match v with
    | none => writeFpE add (i + 1) r rest t
    | some x =>
      let w := fpWrite add (t.e i) x (ds.headD 0)
      let o := writeFpE add (i + 1) r rest (t.setE i w.1)
      (o.1, o.2.1 + b2n w.2.1, o.2.2 + b2n w.2.2)

/-- Tile flags after a write (R153). -/
def Tile.flagWrite (t : Tile) (add coarse clip : Bool) : Tile :=
  if add then { t with coarse := t.coarse || coarse, clip := t.clip || clip } else { t with coarse := coarse, clip := clip }

/-- One tile write: new tile, ACC.FP entries set to infinity and to NaN. `vs` are the incoming exact values. -/
def tileWrite (t : Tile) (add : Bool) (vs : List (Option FVal)) (rng : Nat) (coarse clip : Bool) : Tile × Nat × Nat :=
  if t.fp then
    let o := writeFpE add 0 vs (draws 256 rng) t
    let bad := decide (o.2.1 + o.2.2 > 0)
    let t' := o.1.flagWrite add coarse clip
    ({ t' with sat := if bad then true else if add then t'.sat else false }, o.2.1, o.2.2)
  else ((writeFxE add 0 (vs.map (fun v => v.map (roundInt .rne))) t).flagWrite add coarse clip, 0, 0)

/-- FLAGS of an invocation's completion (R63). -/
def Inv.flags (i : Inv) : Nat :=
  b2n i.coarse + 2 * b2n i.clip + 4 * b2n i.sat + 8 * b2n i.degraded + 16 * b2n i.preempted + 32 * b2n i.borrowed
    + 64 * b2n i.spilled + 128 * (i.gen % 2)

/-- A tile read by DRAIN, ARGX or XSEND adds its flags to the invocation's (R153). -/
def Inv.orFlags (i : Inv) (t : Tile) : Inv :=
  { i with coarse := i.coarse || t.coarse, clip := i.clip || t.clip, sat := i.sat || t.sat }

end Sys2Proof.Machine
end

