-- ==== Sys2Proof/Machine/Crypto.lean ====
section
/-!
DEFINITION. Sys2Proof/Machine/Crypto.lean: the checks that the manual names by standard: CRC-32C (R165, R333,
R426), the CRC-64 of R384, SHA-384 (R259, R331), and RSASSA-PSS verification with SHA-384 (R517).
-/
namespace Sys2Proof.Machine

/-- One bit of a reflected CRC. -/
def crc32cBits : Nat → Nat → Nat
  | 0, c => c
  | n + 1, c => crc32cBits n (if c % 2 = 1 then (c >>> 1) ^^^ 0x82F63B78 else c >>> 1)

/-- CRC-32C (Castagnoli) of a byte string. -/
def crc32c (bs : List Byte) : Nat :=
  (bs.foldl (fun c b => crc32cBits 8 (c ^^^ b.toNat)) 0xFFFFFFFF) ^^^ 0xFFFFFFFF

def crc64Bits : Nat → Nat → Nat
  | 0, c => c
  | n + 1, c => crc64Bits n (if bit c 63 then ((c <<< 1) % 2 ^ 64) ^^^ 0x42F0E1EBA9EA3693 else c <<< 1)

/-- CRC-64 with the ECMA-182 polynomial, initial value 0, unreflected, no final XOR (R384). -/
def crc64 (bs : List Byte) : Nat := bs.foldl (fun c b => crc64Bits 8 (c ^^^ (b.toNat <<< 56))) 0

def sha512K : List Nat :=
  [0x428a2f98d728ae22, 0x7137449123ef65cd, 0xb5c0fbcfec4d3b2f, 0xe9b5dba58189dbbc, 0x3956c25bf348b538,
   0x59f111f1b605d019, 0x923f82a4af194f9b, 0xab1c5ed5da6d8118, 0xd807aa98a3030242, 0x12835b0145706fbe,
   0x243185be4ee4b28c, 0x550c7dc3d5ffb4e2, 0x72be5d74f27b896f, 0x80deb1fe3b1696b1, 0x9bdc06a725c71235,
   0xc19bf174cf692694, 0xe49b69c19ef14ad2, 0xefbe4786384f25e3, 0x0fc19dc68b8cd5b5, 0x240ca1cc77ac9c65]
  ++ [0x2de92c6f592b0275, 0x4a7484aa6ea6e483, 0x5cb0a9dcbd41fbd4, 0x76f988da831153b5, 0x983e5152ee66dfab,
   0xa831c66d2db43210, 0xb00327c898fb213f, 0xbf597fc7beef0ee4, 0xc6e00bf33da88fc2, 0xd5a79147930aa725,
   0x06ca6351e003826f, 0x142929670a0e6e70, 0x27b70a8546d22ffc, 0x2e1b21385c26c926, 0x4d2c6dfc5ac42aed,
   0x53380d139d95b3df, 0x650a73548baf63de, 0x766a0abb3c77b2a8, 0x81c2c92e47edaee6, 0x92722c851482353b]
  ++ [0xa2bfe8a14cf10364, 0xa81a664bbc423001, 0xc24b8b70d0f89791, 0xc76c51a30654be30, 0xd192e819d6ef5218,
   0xd69906245565a910, 0xf40e35855771202a, 0x106aa07032bbd1b8, 0x19a4c116b8d2d0c8, 0x1e376c085141ab53,
   0x2748774cdf8eeb99, 0x34b0bcb5e19b48a8, 0x391c0cb3c5c95a63, 0x4ed8aa4ae3418acb, 0x5b9cca4f7763e373,
   0x682e6ff3d6b2b8a3, 0x748f82ee5defb2fc, 0x78a5636f43172f60, 0x84c87814a1f0ab72, 0x8cc702081a6439ec]
  ++ [0x90befffa23631e28, 0xa4506cebde82bde9, 0xbef9a3f7b2c67915, 0xc67178f2e372532b, 0xca273eceea26619c,
   0xd186b8c721c0c207, 0xeada7dd6cde0eb1e, 0xf57d4f7fee6ed178, 0x06f067aa72176fba, 0x0a637dc5a2c898a6,
   0x113f9804bef90dae, 0x1b710b35131c471b, 0x28db77f523047d84, 0x32caab7b40c72493, 0x3c9ebe0a15c9bebc,
   0x431d67c49c100d4c, 0x4cc5d4becb3e42b6, 0x597f299cfc657e2a, 0x5fcb6fab3ad6faec, 0x6c44198c4a475817]

def rotr64 (x n : Nat) : Nat := (x >>> n) ||| ((x <<< (64 - n)) % 2 ^ 64)
def add64 (a b : Nat) : Nat := (a + b) % 2 ^ 64

/-- The message schedule, newest word first. -/
def shaSchedule : Nat → List Nat → List Nat
  | 0, w => w
  | n + 1, w =>
    let a := nth 0 w 1
    let b := nth 0 w 14
    let s1 := rotr64 a 19 ^^^ rotr64 a 61 ^^^ (a >>> 6)
    let s0 := rotr64 b 1 ^^^ rotr64 b 8 ^^^ (b >>> 7)
    shaSchedule n (add64 (add64 s1 (nth 0 w 6)) (add64 s0 (nth 0 w 15)) :: w)

/-- The eight working words of the hash. -/
structure Sha where
  a : Nat
  b : Nat
  c : Nat
  d : Nat
  e : Nat
  f : Nat
  g : Nat
  h : Nat
  deriving DecidableEq, Repr

def shaRound (s : Sha) (kw : Nat × Nat) : Sha :=
  let s1 := rotr64 s.e 14 ^^^ rotr64 s.e 18 ^^^ rotr64 s.e 41
  let ch := (s.e &&& s.f) ^^^ ((s.e ^^^ (2 ^ 64 - 1)) &&& s.g)
  let t1 := (s.h + s1 + ch + kw.1 + kw.2) % 2 ^ 64
  let s0 := rotr64 s.a 28 ^^^ rotr64 s.a 34 ^^^ rotr64 s.a 39
  let mj := (s.a &&& s.b) ^^^ (s.a &&& s.c) ^^^ (s.b &&& s.c)
  ⟨(t1 + s0 + mj) % 2 ^ 64, s.a, s.b, s.c, (s.d + t1) % 2 ^ 64, s.e, s.f, s.g⟩

def shaBlock (s : Sha) (blk : List Byte) : Sha :=
  let w16 := (List.range 16).map (fun i => beNat (sliceB blk (8 * i) 8))
  let w := (shaSchedule 64 w16.reverse).reverse
  let t := (List.zip sha512K w).foldl shaRound s
  ⟨add64 s.a t.a, add64 s.b t.b, add64 s.c t.c, add64 s.d t.d, add64 s.e t.e, add64 s.f t.f, add64 s.g t.g, add64 s.h t.h⟩

def shaBlocks : Nat → Sha → List Byte → Sha
  | 0, s, _ => s
  | n + 1, s, bs => shaBlocks n (shaBlock s (bs.take 128)) (bs.drop 128)

/-- Big-endian bytes. -/
def beBytes (n v : Nat) : List Byte := (leBytes n v).reverse

/-- SHA-384 of a byte string: 48 bytes. -/
def sha384 (bs : List Byte) : List Byte :=
  let padded := bs ++ [0x80#8] ++ List.replicate ((128 - (bs.length + 17) % 128) % 128) 0#8 ++ beBytes 16 (8 * bs.length)
  let s0 : Sha := ⟨0xcbbb9d5dc1059ed8, 0x629a292a367cd507, 0x9159015a3070dd17, 0x152fecd8f70e5939,
    0x67332667ffc00b31, 0x8eb44a8768581511, 0xdb0c2e0d64f98fa7, 0x47b5481dbefa4fa4⟩
  let s := shaBlocks (padded.length / 128) s0 padded
  (beBytes 8 s.a ++ beBytes 8 s.b ++ beBytes 8 s.c ++ beBytes 8 s.d ++ beBytes 8 s.e ++ beBytes 8 s.f)

/-- The first `n` bytes of the MGF1 mask of `seed` with SHA-384. -/
def mgf1 (seed : List Byte) (n : Nat) : List Byte :=
  ((List.range (ceilDiv n 48)).flatMap (fun i => sha384 (seed ++ beBytes 4 i))).take n

def xorB (a b : List Byte) : List Byte := List.zipWith (fun x y => x ^^^ y) a b

def sqMod : Nat → Nat → Nat → Nat
  | 0, _, x => x
  | n + 1, m, x => sqMod n m (x * x % m)

/-- RSASSA-PSS verification, RSA-3072, exponent 65,537, SHA-384, MGF1 with SHA-384, salt of 48 bytes (R517). -/
def rsaPssVerify (modulus msg sig : List Byte) : Bool :=
  let n := beNat modulus
  let s := beNat sig
  if n = 0 ∨ s ≥ n then false
  else
    let em := beBytes 384 (sqMod 16 n s * s % n)
    let mdb := em.take 335
    let h := sliceB em 335 48
    let db := xorB mdb (mgf1 h 335)
    let db := match db with | [] => [] | x :: r => (x &&& 0x7F#8) :: r
    let salt := db.drop 287
    (em.drop 383 == [0xBC#8]) && ((nth 0#8 em 0) &&& 0x80#8 == 0#8)
      && (db.take 287 == List.replicate 286 0#8 ++ [0x01#8])
      && (sha384 (List.replicate 8 0#8 ++ sha384 msg ++ salt) == h)

end Sys2Proof.Machine
end

