-- ==== Sys2Proof/Machine/Image.lean ====
section
/-!
DEFINITION. Sys2Proof/Machine/Image.lean: Thaska images (R331 to R336): where their parts lie, the checks 6, 7, 9
and 12 of R337, the structure digest (R336) and the weight digest (R354).
-/
namespace Sys2Proof.Machine

def imgLen (img : List Byte) : Nat := fieldLe img 8 4
def imgNsec (img : List Byte) : Nat := fieldLe img 13 1
def imgNstream (img : List Byte) : Nat := fieldLe img 14 2
def imgNla (img : List Byte) : Nat := fieldLe img 16 2
def imgTol (img : List Byte) : Nat := fieldLe img 20 4
def imgDigper (img : List Byte) : Nat := fieldLe img 24 4
def imgTrailer (img : List Byte) : List Byte := sliceB img (img.length - 48) 48

/-- The section table: (type, offset, length) (R331). -/
def imgSecs (img : List Byte) : List (Nat × Nat × Nat) :=
  (List.range (min 8 (imgNsec img))).map (fun i => (fieldLe img (64 + 16 * i) 2, fieldLe img (64 + 16 * i + 4) 4, fieldLe img (64 + 16 * i + 8) 4))

/-- The bytes of a section; none when absent. -/
def imgSec (img : List Byte) (t : Nat) : List Byte :=
  match (imgSecs img).find? (fun s => s.1 == t) with
  | none => []
  | some s => sliceB img s.2.1 s.2.2

/-- The program streams from the start of the PROGRAM section: (number, count, instruction words, header bytes). -/
def parseStreams : Nat → List Byte → List (Nat × Nat × List Nat × List Byte)
  | 0, _ => []
  | n + 1, bs =>
    let cnt := fieldLe bs 4 4
    let ws := (List.range (min cnt (bs.length / 16))).map (fun i => fieldLe bs (16 + 16 * i) 16)
    (fieldLe bs 0 2, cnt, ws, sliceB bs 0 16) :: parseStreams n (bs.drop (16 + 16 * cnt))

def imgStreams (img : List Byte) : List (Nat × Nat × List Nat × List Byte) := parseStreams (min 16 (imgNstream img)) (imgSec img 1)

/-- A placement entry (R333). -/
def imgPlace (img : List Byte) (la : Nat) : List Byte := sliceB (imgSec img 2) (32 * la) 32
def plCluster (p : List Byte) : Nat := fieldLe p 2 1
def plFlags (p : List Byte) : Nat := fieldLe p 3 1
def plWord (p : List Byte) : Nat := fieldLe p 12 4
def plLayer (p : List Byte) : Layer := layerOf (plWord p)
def plSlice (p : List Byte) : Nat := fieldLe p 16 4
def plStat (p : List Byte) : Nat := fieldLe p 20 4
def plCrc (p : List Byte) : Nat := fieldLe p 24 4
/-- Rows times outputs over all groups: bytes of a slice (R334). -/
def plBytes (p : List Byte) : Nat := let l := plLayer p; l.groups * l.rows * l.outs
def imgSlice (img : List Byte) (la : Nat) : List Byte :=
  let p := imgPlace img la
  sliceB (imgSec img 3) (plSlice p) (plBytes p)

/-- Weights by row·256 + output from a slice's bytes (R334, R101). -/
def sliceWeights (l : Layer) (bs : List Byte) : FMap Int :=
  (List.range l.groups).flatMap (fun k =>
    (List.range l.rows).flatMap (fun i =>
      ((List.range l.outs).map (fun n => ((64 * (8 * k / l.groups) + i) * 256 + n, (nth 0 bs ((k * l.rows + i) * l.outs + n)).toInt))).filter
        (fun e => decide (e.2 ≠ 0))))

/-- Resource claims as [kind, cluster, first, count, initial value] (R335). -/
def imgClaims (img : List Byte) : List (List Nat) :=
  let r := imgSec img 4
  (List.range (r.length / 16)).map (fun i =>
    [fieldLe r (16 * i) 1, fieldLe r (16 * i + 1) 1, fieldLe r (16 * i + 4) 4, fieldLe r (16 * i + 8) 4, fieldLe r (16 * i + 12) 4])

/-- PROFILE entries: (cluster, number, 1,040 bytes). -/
def imgProfiles (img : List Byte) : List (Nat × Nat × List Byte) :=
  let r := imgSec img 5
  (List.range (r.length / 1056)).map (fun i => (fieldLe r (1056 * i) 1, fieldLe r (1056 * i + 1) 1, sliceB r (1056 * i + 16) 1040))

/-- ROWSTORE entries: (cluster, offset, data). -/
def parseRows : Nat → List Byte → List (Nat × Nat × List Byte)
  | 0, _ => []
  | n + 1, bs =>
    if bs.length < 16 then []
    else
      let l := fieldLe bs 8 4
      (fieldLe bs 0 1, fieldLe bs 4 4, sliceB bs 16 (min l (bs.length - 16))) :: parseRows n (bs.drop (16 + l))

def imgRows (img : List Byte) : List (Nat × Nat × List Byte) := let r := imgSec img 6; parseRows (r.length / 16) r

def imgEnv (img : List Byte) (red : Nat) : ImgEnv :=
  { claims := imgClaims img, red := red
    places := (List.range (imgNla img)).map (fun la => let p := imgPlace img la; (plCluster p, plFlags p, plLayer p)) }

/-! ### Checks -/

/-- The first code of a list of conditions, in order. -/
def firstBad : List (Bool × Code) → Option Code
  | [] => none
  | (b, c) :: r => if b then some c else firstBad r

/-- Check 6 of R337: the trailer is the SHA-384 of everything before it. -/
def trailerOk (img : List Byte) : Bool := decide (48 ≤ img.length) && sha384 (img.take (img.length - 48)) == imgTrailer img

def secOverlap (ss : List (Nat × Nat × Nat)) : Bool :=
  (List.range ss.length).any (fun i => (List.range i).any (fun j =>
    let a := nth (0, 0, 0) ss i
    let b := nth (0, 0, 0) ss j
    decide (a.2.1 < b.2.1 + b.2.2 ∧ b.2.1 < a.2.1 + a.2.2) || a.1 == b.1))

/-- Framing of the PROGRAM section: the streams fill it exactly, each in its place. -/
def framed : Nat → Nat → List Byte → Bool
  | 0, _, bs => bs.isEmpty
  | n + 1, k, bs => decide (16 ≤ bs.length) && fieldLe bs 0 2 == k && decide (16 + 16 * fieldLe bs 4 4 ≤ bs.length)
      && framed n (k + 1) (bs.drop (16 + 16 * fieldLe bs 4 4))

def streamHdrsZero : Nat → List Byte → Bool
  | 0, _ => true
  | n + 1, bs => zeroAt bs 2 2 && zeroAt bs 8 8 && streamHdrsZero n (bs.drop (16 + 16 * fieldLe bs 4 4))

/-- Check 7 of R337. Reserved bytes are decided before legal values, as R11 has it. DEDUCED: log 30. -/
def headerBad (img : List Byte) (len : Nat) (tol : Option Nat) : Option Code :=
  let n := imgNsec img
  let ss := imgSecs img
  let nOk := decide (4 ≤ n ∧ n ≤ 8)
  firstBad
    [(!zeroAt img 18 2 || !zeroAt img 28 4, .rsvd),
     (nOk && (!zeroAt img (64 + 16 * n) (192 - 16 * n)
        || (List.range n).any (fun i => !zeroAt img (64 + 16 * i + 2) 2 || !zeroAt img (64 + 16 * i + 12) 4)), .rsvd),
     (fieldLe img 0 4 ≠ 0x314B4854 || fieldLe img 4 2 ≠ 1 || fieldLe img 6 2 ≠ 256 || imgLen img ≠ len || fieldLe img 12 1 > 1
        || !nOk || imgNstream img = 0 || imgNstream img > 16 || imgNla img = 0 || imgNla img > 4096
        || imgTol img = 0 || imgTol img > 0xFFFFF, .value),
     (ss.any (fun s => decide (s.1 = 0 ∨ s.1 > 8 ∨ s.2.1 % 64 ≠ 0 ∨ s.2.1 < 256 ∨ s.2.1 + s.2.2 > len - 48)) || secOverlap ss
        || [1, 2, 3, 4].any (fun t => !ss.any (fun s => s.1 == t)), .value),
     (!streamHdrsZero (min 16 (imgNstream img)) (imgSec img 1), .rsvd),
     (!framed (imgNstream img) 0 (imgSec img 1), .value),
     ((match tol with | none => false | some t => t != imgTol img), .value)]

/-- A placement entry of check 9 (R333, R334). -/
def placeBad (img : List Byte) (la : Nat) : Option Code :=
  let p := imgPlace img la
  let w := plWord p
  let l := plLayer p
  let sl := imgSlice img la
  firstBad
    [(plFlags p ≥ 4 || !zeroAt p 10 2 || !zeroAt p 28 4 || bit w 7 || w ≥ 2 ^ 22 || l.gain ≥ 5 || l.inbits = 3, .rsvd),
     (fieldLe p 0 2 ≠ la || plCluster p > 63 || bit w 10 || bit w 11 || l.rows = 0 || l.rows > 512 / l.groups
        || plSlice p % 64 ≠ 0 || (plStat p ≠ 0xFFFFFFFF && plStat p % 16 ≠ 0), .value),
     (plSlice p + plBytes p > (imgSec img 3).length
        || (plStat p ≠ 0xFFFFFFFF && plStat p + 4160 > (imgSec img 7).length), .range),
     (sl.any (fun b => decide (b.toInt.natAbs > (if l.w8 then 127 else 15))), .value),
     (crc32c sl ≠ plCrc p, .digest)]

def firstOf {α : Type} (f : α → Option Code) : List α → Option Code
  | [] => none
  | x :: r => match f x with | some c => some c | none => firstOf f r

def resBad (img : List Byte) (i : Nat) : Option Code :=
  let e := sliceB (imgSec img 4) (16 * i) 16
  let k := fieldLe e 0 1
  let c := fieldLe e 1 1
  let n := fieldLe e 4 4
  let m := fieldLe e 8 4
  let lim := if k = 1 then 512 else if k = 2 then 16 else if k = 3 then 240 else if k = 4 then 128 else 1536
  firstBad
    [(!zeroAt e 2 2 || (k ≠ 3 && !zeroAt e 12 4), .rsvd),
     (k = 0 || k > 5 || (if k = 3 ∨ k = 5 then c ≠ 0 else c > 63) || n ≥ lim || m = 0 || m > lim || (k = 3 && m ≠ 1)
        || (k = 3 && fieldLe e 12 4 > 65535), .value),
     (n + m > lim, .range)]

def claimsOverlap (cs : List (List Nat)) : Bool :=
  (List.range cs.length).any (fun i => (List.range i).any (fun j =>
    let a := nth [] cs i
    let b := nth [] cs j
    nth 0 a 0 == nth 0 b 0 && nth 0 a 1 == nth 0 b 1
      && decide (nth 0 a 2 < nth 0 b 2 + nth 0 b 3 ∧ nth 0 b 2 < nth 0 a 2 + nth 0 a 3)))

/-- binary32 that is not finite. -/
def notFinite (v : Nat) : Bool := bits v 30 23 == 255

def profileBad (img : List Byte) (i : Nat) : Option Code :=
  let e := sliceB (imgSec img 5) (1056 * i) 1056
  let p := sliceB e 16 1040
  firstBad
    [(!zeroAt e 2 14 || fieldLe p 9 1 > 1 || !zeroAt p 10 2, .rsvd),
     (fieldLe e 0 1 > 63 || fieldLe e 1 1 > 15 || (sext 8 (fieldLe p 8 1) < -16 || sext 8 (fieldLe p 8 1) > 15)
        || notFinite (fieldLe p 0 4) || notFinite (fieldLe p 4 4) || notFinite (fieldLe p 12 4), .value),
     (!claimed (imgClaims img) 2 (fieldLe e 0 1) (fieldLe e 1 1), .range)]

/-- The claimed row store of a cluster: base and units (R335). -/
def rowClaim (cs : List (List Nat)) (c : Nat) : Nat × Nat :=
  let l := cs.filter (fun r => nth 0 r 0 == 4 && nth 0 r 1 == c)
  if l.isEmpty then (0, 0)
  else
    let lo := l.foldl (fun m r => min m (nth 0 r 2)) 128
    let hi := l.foldl (fun m r => max m (nth 0 r 2 + nth 0 r 3)) 0
    (lo, hi - lo)

def rowsBad (cs : List (List Nat)) : Nat → List Byte → Option Code
  | 0, _ => none
  | n + 1, bs =>
    if bs.isEmpty then none
    else
      let l := fieldLe bs 8 4
      match firstBad
        [(!zeroAt bs 1 3 || !zeroAt bs 12 4, .rsvd),
         (fieldLe bs 0 1 > 63 || l % 64 ≠ 0 || 16 + l > bs.length, .value),
         (((bs.drop 16).take l).any (fun b => b == 0x80#8), .value),
         (fieldLe bs 4 4 + l > 4096 * (rowClaim cs (fieldLe bs 0 1)).2, .range)] with
      | some c => some c
      | none => rowsBad cs n (bs.drop (16 + l))

/-- Check 9 of R337: sections in type order, each entry in turn. DEDUCED: log 31. -/
def contentBad (img : List Byte) : Option Code :=
  let cs := imgClaims img
  match firstOf (placeBad img) (List.range (imgNla img)) with
  | some c => some c
  | none =>
  match firstBad [((imgSec img 2).length ≠ 32 * imgNla img, .value), ((imgSec img 4).length % 16 ≠ 0, .value)] with
  | some c => some c
  | none =>
  match firstOf (resBad img) (List.range ((imgSec img 4).length / 16)) with
  | some c => some c
  | none =>
  match firstBad [(claimsOverlap cs, .value),
    ((List.range (imgNla img)).any (fun la => !cs.any (fun r => nth 0 r 0 == 1 && nth 0 r 1 == plCluster (imgPlace img la))), .value),
    ((imgSec img 5).length % 1056 ≠ 0, .value)] with
  | some c => some c
  | none =>
  match firstOf (profileBad img) (List.range ((imgSec img 5).length / 1056)) with
  | some c => some c
  | none => rowsBad cs ((imgSec img 6).length) (imgSec img 6)

/-- Check 12 of R337 (R207). -/
def programsBad (img : List Byte) (red : Nat) : Option Code :=
  firstOf (fun st => checkStream (imgEnv img red) st.2.1 st.2.2.1) (imgStreams img)

/-- Clusters an image names (check 10 of R337). -/
def imgClusters (img : List Byte) : List Nat :=
  let cs := imgClaims img
  let ls := (List.range (imgNla img)).map (fun la => plCluster (imgPlace img la))
  (List.range 64).filter (fun c => ls.contains c || cs.any (fun r => nth 0 r 1 == c && (nth 0 r 0 == 1 || nth 0 r 0 == 2 || nth 0 r 0 == 4)))

/-! ### Digests -/

def zeroRange (bs : List Byte) (o n : Nat) : List Byte := bs.take o ++ List.replicate (min n (bs.length - o)) 0#8 ++ bs.drop (o + n)

def zeroRowData : Nat → Nat → List Byte → List (Nat × Nat)
  | 0, _, _ => []
  | n + 1, o, bs => if bs.length < 16 then [] else
      let l := fieldLe bs 8 4
      (o + 16, l) :: zeroRowData n (o + 16 + l) (bs.drop (16 + l))

/-- The structure digest (R336): slices, statistics, row store and profile data, SLICECRC, STATOFF, BUILD and the
trailer read as 0. -/
def structDigest (img : List Byte) : List Byte :=
  let sec := fun t => match (imgSecs img).find? (fun s => s.1 == t) with | none => (0, 0) | some s => s.2
  let z := [(32, 32), (img.length - 48, 48), sec 3, sec 7]
    ++ (List.range (imgNla img)).map (fun la => ((sec 2).1 + 32 * la + 20, 8))
    ++ (List.range ((sec 5).2 / 1056)).map (fun i => ((sec 5).1 + 1056 * i + 16, 1040))
    ++ zeroRowData ((sec 6).2 / 16) (sec 6).1 (imgSec img 6)
  sha384 (z.foldl (fun b r => zeroRange b r.1 r.2) img)

/-- Insertion by a key, keeping equal keys in order. -/
def insKey {α : Type} (k : α → Nat) (x : α) : List α → List α
  | [] => [x]
  | y :: r => if k x < k y then x :: y :: r else y :: insKey k x r
def sortKey {α : Type} (k : α → Nat) : List α → List α
  | [] => []
  | x :: r => insKey k x (sortKey k r)

/-- The stream of R354 with the weight rows of each logical array given by `sl`. -/
def weightStream (img : List Byte) (sl : Nat → List Byte) : List Byte :=
  (List.range (imgNla img)).flatMap (fun la => leBytes 4 (plWord (imgPlace img la)) ++ sl la)
    ++ (sortKey (fun r => r.1 * 2 ^ 32 + r.2.1) (imgRows img)).flatMap (fun r => r.2.2)
    ++ (sortKey (fun p => p.1 * 16 + p.2.1) (imgProfiles img)).flatMap (fun p => p.2.2)

/-- The weight digest of a generation (R354). -/
def weightDigest (img : List Byte) : List Byte := sha384 (weightStream img (imgSlice img))

/-- Expected mean and second moment of a pair from STATS (R332). -/
def imgMean (img : List Byte) (la q : Nat) : Int :=
  let o := plStat (imgPlace img la)
  if o = 0xFFFFFFFF then 0 else sext 32 (fieldLe (imgSec img 7) (o + 16 * q) 4)
def imgM2 (img : List Byte) (la q : Nat) : Nat :=
  let o := plStat (imgPlace img la)
  if o = 0xFFFFFFFF then 0 else fieldLe (imgSec img 7) (o + 16 * q + 8) 8

end Sys2Proof.Machine
end

