-- ==== Sys2Proof/Machine/Issue.lean ====
section
/-!
DEFINITION. Sys2Proof/Machine/Issue.lean: issuing an instruction of a stream, stops, semaphores, arrival of an
operation at its destination and its retirement (R208 to R215, R223, R224, R154 to R156, R177, R197, R203, R265,
R266), and the control instructions (R239 to R245).
-/
namespace Sys2Proof.Machine

/-! ### Streams -/

def setNth {α : Type} (l : List α) (i : Nat) (x : α) : List α := modifyNth (fun _ => x) l i

def noStream : StreamSt := { cmp := 0 }

/-- Compositor page a stream is issued on: CMP16 while it is carried (R226). -/
def StreamSt.page (st : StreamSt) : Nat := if st.carried then 16 else st.cmp

/-- A stream of the context's invocation replaced. -/
def State.setStream (s : State) (ctx i : Nat) (st : StreamSt) : State :=
  s.modCtx ctx (fun c => c.modInv (fun v => { v with streams := setNth v.streams i st }))

def State.stream (s : State) (ctx i : Nat) : StreamSt :=
  match (s.ctx ctx).inv with | none => noStream | some v => nth noStream v.streams i

/-- The first stop of an invocation (R223, R224): its code is kept and STOPINFO of the detecting compositor set. A
later stop changes neither. -/
def State.stopAt (s : State) (ctx stream : Nat) (c : Code) : State :=
  match (s.ctx ctx).inv with
  | none => s
  | some v =>
    if v.stop.isSome then s
    else
      let st := nth noStream v.streams stream
      (s.modCtx ctx (fun x => x.modInv (fun v => { v with stop := some (c, stream, st.idx) }))).setReg .cmp st.page 0x54
        (c.num + (st.idx <<< 8) + (ctx <<< 21) + (stream <<< 26))

/-- The stream may issue its next instruction, which has opcode `op`: an invocation is in flight and neither
stopped nor held, and the stream has not ended, does not wait and is not held (R213, R222, R224). -/
def State.issuable (s : State) (ctx i op : Nat) : Option (Inv × StreamSt × Nat) :=
  match (s.ctx ctx).inv with
  | none => none
  | some v =>
    if i ≥ v.streams.length then none
    else
      let st := nth noStream v.streams i
      let ws := nth [] (s.ctx ctx).prog i
      let w := nth 0 ws st.idx
      if v.stop.isNone && !v.heldTest && !st.ended && st.waiting.isNone && st.held.isNone && decide (st.idx < ws.length)
          && opc w == op then some (v, st, w) else none

/-- An instruction has issued (R213): ISSUECNT of the compositor counts one. -/
def State.issued (s : State) (st : StreamSt) : State := s.bump64 .cmp st.page 0x60 1

/-- A control instruction: its effect on the stream, and the next index. -/
def State.control (s : State) (ctx i : Nat) (st st' : StreamSt) (next : Nat) : State :=
  (s.setStream ctx i { st' with idx := next }).issued st

/-! ### Semaphores (R209 to R211) -/

/-- An engine's retirement raises a semaphore by 1. Above 65,535 it holds, and the invocation that issued the
operation stops with E_LIMIT (R211). -/
def State.rise (s : State) (o : Op) : State :=
  if !wRsig o.word then s
  else
    let n := wSem o.word
    if wRglob o.word then
      if s.gs n ≥ 65535 then s.stopAt o.ctx o.stream .limit else s.setGs n (s.gs n + 1)
    else
      let st := s.stream o.ctx o.stream
      let v := FMap.get 0 st.sems n
      if v ≥ 65535 then s.stopAt o.ctx o.stream .limit
      else s.setStream o.ctx o.stream { st with sems := FMap.put 0 st.sems n (v + 1) }

/-- Value of the semaphore a WAIT names. -/
def State.semVal (s : State) (st : StreamSt) (w : WaitSt) : Nat := if w.glob then s.gs w.ix else FMap.get 0 st.sems w.ix

/-- A WAIT that is met subtracts its value (R210). -/
def State.semTake (s : State) (ctx i : Nat) (w : WaitSt) : State :=
  if !w.sub then s
  else if w.glob then s.setGs w.ix (s.gs w.ix - w.v)
  else
    let st := s.stream ctx i
    s.setStream ctx i { st with sems := FMap.put 0 st.sems w.ix (FMap.get 0 st.sems w.ix - w.v) }

/-! ### Arrival and retirement -/

def Op.opc (o : Op) : Nat := Machine.opc o.word

/-- Proof-engine work: PMM, PMMC, POUT and spilled MVMs (R177). -/
def Op.isProof (o : Op) : Bool := decide (o.opc = 0x20 ∨ o.opc = 0x21 ∨ o.opc = 0x22) || o.spilled
/-- Fixed engine of an operation: GATHER 0, PACK 1, RANK 2 (R256). -/
def Op.engine (o : Op) : Option Nat := if o.opc = 0x41 then some 0 else if o.opc = 0x42 then some 1 else if o.opc = 0x43 then some 2 else none

/-- Two accesses to one tile that the scoreboard orders (R155); `free` allows overlapping ACC.FX ADD writes. -/
def accConflict (free : Bool) (e l : TAcc) : Bool :=
  e.cl == l.cl && e.tile == l.tile && (e.write || l.write) && !(free && e.write && e.add && l.write && l.add)

/-- ADD writes to a tile may overlap: it is ACC.FX and ACC.CTRL.ORDERFX is 0. -/
def State.freeAdds (s : State) (a : TAcc) : Bool := !(s.tile (tkey a.cl a.tile)).fp && s.reg .acc a.cl 0x40 % 2 == 0

def State.accWaits (s : State) (earlier : List Op) (a : TAcc) : Bool :=
  earlier.any (fun o => decide (o.stage ≥ 1) && o.acc.any (fun e => accConflict (s.freeAdds a) e a))

def State.accOverlaps (s : State) (earlier : List Op) (a : TAcc) : Bool :=
  s.freeAdds a && a.write && a.add
    && earlier.any (fun o => decide (o.stage ≥ 1) && o.acc.any (fun e => e.cl == a.cl && e.tile == a.tile && e.write && e.add))

/-- Room in the scoreboard for an access (R156): at most 15 pending writers and 15 pending readers. -/
def State.tileRoom (s : State) (a : TAcc) : Bool :=
  decide ((s.ops.flatMap (fun o => if o.stage ≥ 1 then o.acc.filter (fun e => e.cl == a.cl && e.tile == a.tile && e.write == a.write) else [])).length < 15)

def State.countOps (s : State) (p : Op → Bool) : Nat := (s.ops.filter (fun o => decide (o.stage ≥ 1) && p o)).length

/-- Room in the destination's own queue (R177, R197, R203, R259): one executing and 4, 4, 8 or 4 pending. -/
def State.queueRoom (s : State) (o : Op) : Bool :=
  if o.isProof then decide (s.countOps (fun x => x.isProof && x.clusters == o.clusters) < 5)
  else if o.opc = 0x40 then decide (s.countOps (fun x => x.opc == 0x40 && x.clusters == o.clusters) < 5)
  else match o.engine with
    | some e => decide (s.countOps (fun x => x.engine == some e) < 9)
    | none => if o.opc = 0x51 then decide (s.countOps (fun x => x.opc == 0x51) < 5) else true

/-- An operation may be accepted: nothing earlier waits at an entry it passes, or at its engine, and there is room
(R156, R203). -/
def State.accepts (s : State) (o : Op) (earlier : List Op) : Bool :=
  !earlier.any (fun e => e.stage == 0 && (e.clusters.any (fun c => o.clusters.contains c) || (o.engine.isSome && e.engine == o.engine)
      || (o.opc == 0x51 && e.opc == 0x51)))
    && o.acc.all (fun a => s.tileRoom a) && s.queueRoom o

/-- Scoreboard waits and overlaps of a new operation, counted in ACC.HAZCNT and ACC.OVLCNT (R155). -/
def State.scoreboard (s : State) : List TAcc → State × List TAcc
  | [] => (s, [])
  | a :: r =>
    let wt := s.accWaits s.ops a
    let s := if wt then s.bump .acc a.cl 0x7C 1 else if s.accOverlaps s.ops a then s.bump .acc a.cl 0x80 1 else s
    let t := s.scoreboard r
    (t.1, { a with wait := wt } :: t.2)

/-- Draws that an operation takes at arrival (R151): how many tiles' writes, and from which stream. -/
def Op.drawTiles (o : Op) : Nat := if o.chainIx.isSome && wChain o.word then 0 else o.tiles.length

/-- A cluster-test count: vectors and proof-engine operations delivered (R404). -/
def State.countDelivered (s : State) (c n : Nat) : State :=
  let old := (s.clu c).opCount
  let k := 2 ^ (s.reg .tst 0 0x48)
  let due := decide ((old + n) / k > old / k) && bit (s.reg .tst 0 0x40) 1
  s.modClu c (fun x => { x with opCount := old + n, testDue := x.testDue || due, dueAt := if due && !x.testDue then old + n else x.dueAt })

/-- The draws of an operation that arrives (R151): the state with its cluster's sequence moved past them, and where they begin. -/
def State.takeDraws (s : State) (o : Op) : State × Nat :=
  let c := o.clusters.headD 0
  let ra := FMap.get 0 (s.clu c).rngA o.ctx
  let ro := FMap.get 0 (s.clu c).rngO o.ctx
  if (s.ctx o.ctx).fp && o.acc.any (fun a => a.write) && decide (o.opc ≠ 0x33 ∧ o.opc ≠ 0x34) then
    (s.modClu c (fun x => { x with rngA := FMap.put 0 x.rngA o.ctx (lfsrSkip (4096 * o.drawTiles) ra) }), ra)
  else if o.opc == 0x30 && wX4 o.word then
    (s.modClu c (fun x => { x with rngO := FMap.put 0 x.rngO o.ctx (lfsrSkip (16 * (bits o.word 84 77 + 1)) ro) }), ro)
  else (s, 0)

/-- How much an operation counts towards its cluster's next test (R404). -/
def Op.testCount (o : Op) : Nat :=
  if o.isProof then 1 else if o.opc = 0x10 ∨ o.opc = 0x11 then bits o.word 78 73 + 1 else 0

/-- The cluster-test count of an operation that arrives; what arrives while a test is due is counted for its invocation too. -/
def State.countArrival (s : State) (o : Op) : State :=
  let c := o.clusters.headD 0
  let n := o.testCount
  if n = 0 then s
  else if (s.clu c).testDue then
    (s.countDelivered c n).modCtx o.ctx (fun x => x.modInv (fun v => { v with given := FMap.upd 0 v.given c (· + n) }))
  else s.countDelivered c n

/-- An operation arrives at its destination: it takes its draws, its place in every tile's order, and counts. -/
def State.arrive (s : State) (o : Op) : State :=
  let r := s.scoreboard o.acc
  let d := r.1.takeDraws o
  let s := d.1.countArrival o
  s.withOps (s.ops ++ [{ o with stage := 1, acc := r.2, rng := d.2 }])

/-- Handing an instruction to its destination (R213): accepted, it has issued; otherwise it waits and holds its
stream. -/
def State.submit (s : State) (ctx i : Nat) (st : StreamSt) (o : Op) : State :=
  let o := { o with id := s.nextOp, stage := 0 }
  let s := s.withNextOp (s.nextOp + 1)
  if s.accepts o s.ops then ((s.arrive o).setStream ctx i { st with idx := st.idx + 1 }).issued st
  else (s.setStream ctx i { st with held := some o.id }).withOps (s.ops ++ [o])

def removeOp (id : Nat) (l : List Op) : List Op := l.filter (fun o => o.id != id)

/-- A waiting operation is accepted: it leaves the entry and its stream goes on (R156, R213). -/
def State.accept (s : State) (o : Op) : State :=
  let st := s.stream o.ctx o.stream
  let s := s.withOps (removeOp o.id s.ops)
  if st.held == some o.id then ((s.arrive o).setStream o.ctx o.stream { st with idx := st.idx + 1, held := none }).issued st
  else s

/-- Operations waiting at a fixed engine or the digest block proceed when one of its operations retires (R203, R259). -/
def State.engineNext (s : State) (o : Op) : State :=
  match s.ops.find? (fun x => x.stage == 0 && x.clusters.isEmpty && x.opc == o.opc && x.opc != 0x50) with
  | none => s
  | some x => if s.queueRoom x then s.accept x else s

/-- An operation leaves: retired with its rise (R215), or stopped without (R265). -/
def State.dropOp (s : State) (o : Op) : State := (s.withOps (removeOp o.id s.ops)).engineNext o
def State.retire (s : State) (o : Op) : State := (s.rise o).dropOp o
def State.stopOp (s : State) (o : Op) (c : Code) : State := (s.stopAt o.ctx o.stream c).dropOp o

/-- An operation replaced in place. -/
def State.putOp (s : State) (o : Op) : State := s.withOps (s.ops.map (fun x => if x.id = o.id then o else x))
def State.getOp (s : State) (id : Nat) : Option Op := s.ops.find? (fun o => o.id == id)

/-- The tiles that a unit's results wrote enter the newest suspect-log entry of the context's running invocation,
unless the log is frozen (R417, R418). -/
def State.logWrite (s : State) (ctx u c tile : Nat) : State :=
  s.modCtx ctx (fun x =>
    if x.frozen then x
    else match x.inv, x.log.getLast? with
      | some v, some e =>
        if e.invoc = v.num then
          { x with log := x.log.dropLast ++ [{ e with wrote := FMap.upd 0 e.wrote (u * 64 + c) (fun m => m ||| 2 ^ tile) }] }
        else x
      | _, _ => x)

def State.logOp (s : State) (o : Op) (u c tile : Nat) : State := (s.logWrite o.ctx u c tile).logWrite o.ctx (uCmp o.cmp) c tile

/-- A tile write by an operation (R162, R153): an adding write first checks every entry's parity. -/
def State.writeTile (s : State) (o : Op) (c t : Nat) (add : Bool) (vs : List (Option FVal)) (rng : Nat) (co cl : Bool) : Option State :=
  let tl := s.tile (tkey c t)
  if add && (tl.badPar 256).isSome then none
  else
    let r := tileWrite tl add vs rng co cl
    some ((((s.setTile (tkey c t) r.1).bump .acc c 0x74 r.2.1).bump .acc c 0x78 r.2.2).logOp o (uClu c) c t)

/-- A parity failure in tile memory (R162): ACC.PARCNT and the report with cluster, tile and entry. -/
def State.tileFault (s : State) (ctx invoc c t e : Nat) : State :=
  (s.bump .acc c 0x84 1).report { kind := 1, ctx := ctx, invoc := invoc, tile := t, unit := uClu c, detail := e }

/-- The letter of the context's invocation (R329). -/
def State.invGen (s : State) (ctx : Nat) : Nat := match (s.ctx ctx).inv with | none => 0 | some v => v.gen

def State.invNum (s : State) (ctx : Nat) : Nat := match (s.ctx ctx).inv with | none => 0 | some v => v.num

/-! ### Control instructions -/

/-- NOP (R239): no effect. -/
def execNop (ctx i : Nat) (s : State) : Host.Outcome State Fault Refusal :=
  .next (match s.issuable ctx i 0x00 with | none => s | some (_, st, _) => s.control ctx i st st (st.idx + 1))

/-- Index of the instruction after the ENDLOOP that matches the LOOP at index `k` of a stream's words. -/
def afterLoop (ws : List Nat) (k : Nat) : Nat :=
  match endOf ws (k :: nth [] (loopLevels ws 0 []) k) with | none => k + 1 | some j => j + 1

/-- LOOP (R240). -/
def execLoop (ctx i : Nat) (s : State) : Host.Outcome State Fault Refusal :=
  .next (match s.issuable ctx i 0x01 with
  | none => s
  | some (_, st, w) =>
    let n := if wX4 w then st.rc (bits w 107 104) else bits w 31 0
    if n ≥ 1 then s.control ctx i st { st with loops := (n, st.idx + 1) :: st.loops } (st.idx + 1)
    else s.control ctx i st st (afterLoop (nth [] (s.ctx ctx).prog i) st.idx))

/-- ENDLOOP (R241). -/
def execEndloop (ctx i : Nat) (s : State) : Host.Outcome State Fault Refusal :=
  .next (match s.issuable ctx i 0x02 with
  | none => s
  | some (_, st, _) =>
    match st.loops with
    | [] => s.control ctx i st st (st.idx + 1)
    | (n, b) :: r =>
      if n - 1 > 0 then s.control ctx i st { st with loops := (n - 1, b) :: r } b
      else s.control ctx i st { st with loops := r } (st.idx + 1))

/-- Whether the condition of a BRC holds of a counter value (R242). -/
def brcTaken (cond v imm : Nat) : Bool :=
  match cond with
  | 0 => true | 1 => v == 0 | 2 => v != 0 | 3 => decide (v < imm) | _ => decide (v ≥ imm)

/-- Two indices of a stream's words lie at one loop level (R243). -/
def sameLevel (ws : List Nat) (j k : Nat) : Bool := nth [] (loopLevels ws 0 []) j == nth [] (loopLevels ws 0 []) k

/-- BRC (R242, R243): a taken branch that leaves the innermost loop pops its entry. -/
def execBrc (ctx i : Nat) (s : State) : Host.Outcome State Fault Refusal :=
  .next (match s.issuable ctx i 0x03 with
  | none => s
  | some (_, st, w) =>
    let n := bits w 107 104
    let st1 := if wX4 w then st.setC n (st.rc n - 1) else st
    if brcTaken (bits w 111 109) (st1.rc n) (bits w 31 0) then
      let t := bits w 76 64
      s.control ctx i st (if sameLevel (nth [] (s.ctx ctx).prog i) t st.idx then st1 else { st1 with loops := st1.loops.drop 1 }) t
    else s.control ctx i st st1 (st.idx + 1))

/-- The semaphore and value that a WAIT names (R245): a stop code, or what it waits for. -/
def waitOf (v : Inv) (st : StreamSt) (w : Nat) : Code ⊕ WaitSt :=
  let n := if wX4 w then st.rc (bits w 103 100) else bits w 15 0
  if wX4 w && decide (n > 65535) then .inl .value
  else if wX5 w then
    if v.slot then .inr { glob := true, ix := 240 + 2 * (st.rc 2 % 4) + bits (st.rc 2) 2 2, v := n, sub := false } else .inl .state
  else .inr { glob := wRglob w, ix := wSem w, v := n, sub := !(wRglob w && decide (wSem w ≥ 240)) }

/-- WAIT (R210, R245): held at its semaphore until WAIT_MET decides it. -/
def execWait (ctx i : Nat) (s : State) : Host.Outcome State Fault Refusal :=
  .next (match s.issuable ctx i 0x04 with
  | none => s
  | some (v, st, w) =>
    match waitOf v st w with
    | .inl c => s.stopAt ctx i c
    | .inr x => s.control ctx i st { st with waiting := some x } st.idx)

/-- WAIT_MET (R210): the semaphore is at least the value; it is subtracted (not from a symbol counter), and the
cycles waited count in CMP.WAITCYC. -/
def execWaitMet (ctx i cycles : Nat) (s : State) : Host.Outcome State Fault Refusal :=
  .next (match (s.ctx ctx).inv with
  | none => s
  | some v =>
    let st := nth noStream v.streams i
    match st.waiting with
    | none => s
    | some x =>
      if v.stop.isNone && !v.heldTest && decide (s.semVal st x ≥ x.v) then
        let s := s.semTake ctx i x
        let st := s.stream ctx i
        (s.setStream ctx i { st with waiting := none, idx := st.idx + 1 }).bump64 .cmp st.page 0x70 cycles
      else s)

/-- WAIT_LIMIT (R228, R264): with CMP.WAITLIM not 0, a WAIT or an unanswered XRECV stops the invocation. -/
def execWaitLimit (ctx i : Nat) (s : State) : Host.Outcome State Fault Refusal :=
  .next (match (s.ctx ctx).inv with
  | none => s
  | some v =>
    let st := nth noStream v.streams i
    if s.reg .cmp st.page 0x48 == 0 then s
    else if st.waiting.isSome then (if v.stop.isSome then s else s.stopAt ctx i .limit)
    else match s.ops.find? (fun o => o.ctx == ctx && o.stream == i && o.opc == 0x61) with
      | some o => s.stopOp o .limit
      | none => s)

/-- SIG (R210, R211, R245). -/
def execSig (ctx i : Nat) (s : State) : Host.Outcome State Fault Refusal :=
  .next (match s.issuable ctx i 0x05 with
  | none => s
  | some (_, st, w) =>
    let n := wSem w
    let v := bits w 15 0
    if wRglob w then
      if s.gs n + v > 65535 then s.stopAt ctx i .limit else (s.setGs n (s.gs n + v)).control ctx i st st (st.idx + 1)
    else
      let x := FMap.get 0 st.sems n
      if x + v > 65535 then s.stopAt ctx i .limit
      else s.control ctx i st { st with sems := FMap.put 0 st.sems n (x + v) } (st.idx + 1))

/-- HALT (R221, R239): the stream ends; a loop stack is discarded. -/
def execHalt (ctx i : Nat) (s : State) : Host.Outcome State Fault Refusal :=
  .next (match s.issuable ctx i 0x06 with
  | none => s
  | some (_, st, _) => s.control ctx i st { st with ended := true, loops := [] } st.idx)

/-- SETA (R244). -/
def execSeta (ctx i : Nat) (s : State) : Host.Outcome State Fault Refusal :=
  .next (match s.issuable ctx i 0x07 with
  | none => s
  | some (_, st, w) =>
    let d := bits w 111 108
    let n := bits w 107 104
    let st' := if wX4 w then st.setC d (if wX5 w then st.rc n else bits w 31 0)
      else st.setA d (if wX5 w then st.ra n else bits w 63 0)
    s.control ctx i st st' (st.idx + 1))

/-- ADDA (R244, R208): address arithmetic wraps, counter arithmetic saturates. -/
def execAdda (ctx i : Nat) (s : State) : Host.Outcome State Fault Refusal :=
  .next (match s.issuable ctx i 0x08 with
  | none => s
  | some (_, st, w) =>
    let d := bits w 111 108
    let imm := sext 64 (bits w 63 0)
    let t : Int := if wX5 w then (st.rc (bits w 107 104) : Int) * imm else imm
    let st' := if wX4 w then st.setC d (satC ((st.rc d : Int) + t)) else st.setA d (toBits 64 ((st.ra d : Int) + t))
    s.control ctx i st st' (st.idx + 1))

/-- CLUSTER_ENTRY_RELEASE (R156): the first operation waiting at the cluster's entry proceeds once there is room;
the cycles its compositor was held count in CMP.HOLDCYC. -/
def execClusterEntryRelease (c held : Nat) (s : State) : Host.Outcome State Fault Refusal :=
  .next (match s.ops.find? (fun o => o.stage == 0 && o.clusters.contains c) with
  | none => s
  | some o =>
    let earlier := s.ops.takeWhile (fun x => x.id != o.id)
    let st := s.stream o.ctx o.stream
    let stopped := match (s.ctx o.ctx).inv with | none => true | some v => v.stop.isSome
    if stopped then s.withOps (removeOp o.id s.ops)
    else if s.accepts o earlier then (s.bump64 .cmp st.page 0x68 held).accept o else s)

/-- TILE_OP_RELEASE (R155): the earliest access to the tile that waits and that nothing earlier holds is released. -/
def execTileOpRelease (c t : Nat) (s : State) : Host.Outcome State Fault Refusal :=
  let hit := fun (a : TAcc) => a.cl == c && a.tile == t && a.wait
  .next (match s.ops.find? (fun o => o.acc.any hit) with
  | none => s
  | some o =>
    let earlier := s.ops.takeWhile (fun x => x.id != o.id)
    s.putOp { o with acc := o.acc.map (fun a => if hit a && !s.accWaits earlier a then { a with wait := false } else a) })

end Sys2Proof.Machine
end

