-- ==== Sys2Proof/Machine/Array.lean ====
section
/-!
DEFINITION. Sys2Proof/Machine/Array.lean: the array instructions MVM, MVMS and REFREAD (R246 to R248), vectors
(R79, R80, R88), their results, chains and check values (R95, R96, R140 to R144, R398, R407), and reference reads.
-/
namespace Sys2Proof.Machine

/-- Placement of a logical array in the letter an invocation runs on: cluster, flags, layer (R333). -/
def State.place (s : State) (ctx gen la : Nat) : Nat × Nat × Layer :=
  let p := imgPlace ((s.ctx ctx).letter gen).image la
  (plCluster p, plFlags p, plLayer p)

/-- Every tile from `t` on, `n` of them, is owned by the context (R146). -/
def State.ownTiles (s : State) (ctx c t n : Nat) : Bool :=
  decide (t + n ≤ 512) && (List.range n).all (fun i => let x := s.tile (tkey c (t + i)); x.owned && x.ctx == ctx)

/-- The open chain of a compositor on a tile (R142): its index among the cluster's chain sets. -/
def State.openChain (s : State) (c k t : Nat) : Option Nat :=
  findIdx (fun j => let x := FMap.get {} (s.clu c).chains (4 * k + j); x.bound && x.fin.isNone && x.tile == t) (List.range 4) 0

def State.chSet (s : State) (c ix : Nat) : Chain := FMap.get {} (s.clu c).chains ix
def State.setChain (s : State) (c ix : Nat) (x : Chain) : State := s.modClu c (fun u => { u with chains := FMap.put {} u.chains ix x })

/-- A free chain set of a compositor. -/
def State.freeChain (s : State) (c k : Nat) : Option Nat := findIdx (fun j => !(s.chSet c (4 * k + j)).bound) (List.range 4) 0

/-- Whether any compositor has an open chain on the tile. -/
def State.anyChain (s : State) (c t : Nat) : Bool :=
  (s.clu c).chains.any (fun p => p.2.bound && p.2.fin.isNone && p.2.tile == t)

/-- Vectors delivered to an array in this invocation (R222). -/
def Inv.delivered (v : Inv) (k : Nat) : Nat := FMap.get 0 v.vec k

/-- What MVM and MVMS form at issue and check in the order of R266; `g1` says the array has one group. -/
structure MvmForm where
  c      : Nat
  t      : Nat
  v      : Nat
  ia     : Nat
  layer  : Layer
  live   : List Nat
  spilled : Bool
  chain  : Option Nat
  deriving DecidableEq, Repr

def State.mvmForm (s : State) (ctx : Nat) (v : Inv) (st : StreamSt) (w : Nat) : MvmForm :=
  let la := bits w 103 92
  let p := s.place ctx v.gen la
  let all := s.copies ctx v.gen la p.1
  let live := all.filter (fun a => (s.arr (akey p.1 a)).st == 3)
  let two := (s.ctx ctx).red == 2 || ((s.ctx ctx).red == 1 && wX4 w)
  let t := effT st w 79
  { c := p.1, t := t, v := bits w 78 73 + 1, ia := effA st w 49, layer := p.2.2
    live := if two then live else live.take 1, spilled := (s.ctx ctx).spill.contains la
    chain := if p.2.2.split = 0 then s.openChain p.1 st.cmp t else none }

/-- Stride of an input sub-vector (R247). -/
def MvmForm.stride (f : MvmForm) : Nat := 64 * ceilDiv f.layer.rows 64
def MvmForm.subs (f : MvmForm) : Nat := f.v * f.layer.groups

/-- The checks of R266 for MVM and MVMS. -/
def State.mvmCheck (s : State) (ctx : Nat) (v : Inv) (st : StreamSt) (w : Nat) (f : MvmForm) : Option Code :=
  let all := s.copies ctx v.gen (bits w 103 92) f.c
  let ext := (f.subs - 1) * f.stride + f.layer.rows
  let ch := match f.chain with | none => ({} : Chain) | some j => s.chSet f.c (4 * st.cmp + j)
  let mem := s.extent f.ia ext
  firstBad
    [(f.chain.isSome && (ch.w8 != f.layer.w8 || ch.gain != f.layer.gain), .value),
     (f.chain.isSome && !wChain w && decide (f.v > 1), .value),
     (s.cluFenced f.c, .fenced),
     (!f.spilled && f.live.isEmpty && !all.any (fun a => (s.arr (akey f.c a)).st == 2), .fenced),
     (!f.spilled && f.live.isEmpty, .state),
     (decide (f.layer.split ≠ 0) && (List.range f.subs).any (fun i => s.anyChain f.c (f.t + i)), .state),
     (mem != some 0 && mem != some (1 + f.c), .range),
     (!s.ownTiles ctx f.c f.t f.subs, .range),
     (decide (opc w = 0x11 ∧ f.t + f.layer.groups - 1 > 511), .range),
     (!f.spilled && f.live.any (fun a => decide (v.delivered (akey f.c a) + f.v > 4096)), .limit),
     (wChain w && f.chain.isNone && (s.freeChain f.c st.cmp).isNone, .limit)]

/-- The first check that an MVM or MVMS fails, the reach of its input last. -/
def State.mvmBad (s : State) (ctx : Nat) (v : Inv) (st : StreamSt) (w : Nat) : Option Code :=
  let f := s.mvmForm ctx v st w
  match s.mvmCheck ctx v st w f with
  | some c => some c
  | none => s.blocked f.ia ((f.subs - 1) * f.stride + f.layer.rows)

/-- Binding, joining or closing a chain at issue (R142): the chain set index used. -/
def State.chainIssue (s : State) (ctx : Nat) (st : StreamSt) (w : Nat) (f : MvmForm) (id : Nat) : State × Option Nat :=
  if wChain w then
    match f.chain with
    | some j => let ix := 4 * st.cmp + j; (s.setChain f.c ix { s.chSet f.c ix with pend := (s.chSet f.c ix).pend + 1 }, some ix)
    | none =>
      match s.freeChain f.c st.cmp with
      | none => (s, none)
      | some j =>
        let ix := 4 * st.cmp + j
        (s.setChain f.c ix { bound := true, tile := f.t, ctx := ctx, w8 := f.layer.w8, gain := f.layer.gain, vals := List.replicate 256 0, pend := 1 }, some ix)
  else match f.chain with
    | none => (s, none)
    | some j =>
      let ix := 4 * st.cmp + j
      (s.setChain f.c ix { s.chSet f.c ix with pend := (s.chSet f.c ix).pend + 1, fin := some id }, some ix)

/-- MVM and MVMS (R246, R247, R187): checked, then handed to the cluster that holds the logical array. -/
def State.mvmIssue (s : State) (ctx i : Nat) (v : Inv) (st : StreamSt) (w : Nat) : State :=
  let f := s.mvmForm ctx v st w
  match s.mvmBad ctx v st w with
  | some c => s.stopAt ctx i c
  | none =>
    let r := s.chainIssue ctx st w f s.nextOp
    let tiles := (List.range f.subs).map (fun k => f.t + k)
    let keep := wChain w && r.2.isSome
    let o : Op :=
      { id := 0, ctx := ctx, stream := i, cmp := st.cmp, word := w, stage := 1, clusters := [f.c]
        arrays := if f.spilled then [] else f.live, spilled := f.spilled, tiles := tiles
        acc := if keep then [] else tiles.map (fun t => ⟨f.c, t, true, wAdd w, false⟩)
        a1 := f.ia, started := f.live.map (fun _ => 0), chainIx := r.2 }
    let s := if f.spilled then r.1.modCtx ctx (fun c => c.modInv (fun x => { x with spilled := true }))
      else r.1.modCtx ctx (fun c => c.modInv (fun x => { x with vec := f.live.foldl (fun m a => FMap.upd 0 m (akey f.c a) (· + f.v)) x.vec }))
    s.submit ctx i st o

/-- MVM (R247). -/
def execMvm (ctx i : Nat) (s : State) : Host.Outcome State Fault Refusal :=
  .next (match s.issuable ctx i 0x10 with | none => s | some (v, st, w) => s.mvmIssue ctx i v st w)

/-- MVMS (R247, R91): sub-vector k of vector v drives group k and writes tile T + v·G + k. -/
def execMvms (ctx i : Nat) (s : State) : Host.Outcome State Fault Refusal :=
  .next (match s.issuable ctx i 0x11 with | none => s | some (v, st, w) => s.mvmIssue ctx i v st w)

/-- The checks of R266 for REFREAD. -/
def State.refreadBad (s : State) (ctx : Nat) (v : Inv) (st : StreamSt) (w : Nat) : Option Code :=
  let la := bits w 103 92
  let c := (s.place ctx v.gen la).1
  let all := s.copies ctx v.gen la c
  let live := all.filter (fun a => (s.arr (akey c a)).st == 3)
  let sp := (s.ctx ctx).spill.contains la
  let d := effA st w 49
  let mem := s.extent d 16
  match firstBad
    [(s.cluFenced c, .fenced),
     (!sp && live.isEmpty && !all.any (fun a => (s.arr (akey c a)).st == 2), .fenced),
     (sp || live.isEmpty, .state),
     (wX4 w && decide (d % 64 ≠ 0), .align),
     (wX4 w && (mem.isNone || mem == some 65), .range)] with
  | some c => some c
  | none => if wX4 w then s.blocked d 16 else none

/-- REFREAD (R248). -/
def execRefread (ctx i : Nat) (s : State) : Host.Outcome State Fault Refusal :=
  .next (match s.issuable ctx i 0x12 with
  | none => s
  | some (v, st, w) =>
    match s.refreadBad ctx v st w with
    | some c => s.stopAt ctx i c
    | none =>
      let la := bits w 103 92
      let c := (s.place ctx v.gen la).1
      s.submit ctx i st { id := 0, ctx := ctx, stream := i, cmp := st.cmp, word := w, stage := 1, clusters := [c]
                          arrays := ((s.copies ctx v.gen la c).filter (fun a => (s.arr (akey c a)).st == 3)).take 1, a1 := effA st w 49, started := [0] })

/-- Position of an array among an operation's copies. -/
def Op.copyOf (o : Op) (a : Nat) : Option Nat := findIdx (fun x => x == a) o.arrays 0

/-- The earliest operation that still has a vector, or its reference read, to start on an array (R100). -/
def State.nextFor (s : State) (c a : Nat) : Option (Op × Nat) :=
  match s.ops.find? (fun o => decide (o.stage ≥ 1) && !o.spilled && o.clusters == [c]
      && (match o.copyOf a with
          | none => false
          | some k => decide (nth 0 o.started k < (if o.opc = 0x12 then 1 else bits o.word 78 73 + 1)))) with
  | none => none
  | some o => (o.copyOf a).map (fun k => (o, k))

/-- Sub-vector bytes of vector `n` of an operation (R247), each ROWS bytes. -/
def State.vecBytes (s : State) (o : Op) (l : Layer) (n : Nat) : List (List Byte) :=
  let G := if o.opc = 0x11 then l.groups else 1
  let str := 64 * ceilDiv l.rows 64
  (List.range G).map (fun k => s.engRead (o.a1 + (n * G + k) * str) l.rows)

def State.vecBad (s : State) (o : Op) (l : Layer) (n : Nat) : Option Nat :=
  let G := if o.opc = 0x11 then l.groups else 1
  let str := 64 * ceilDiv l.rows 64
  (List.range G).findSome? (fun k => s.badIn (o.a1 + (n * G + k) * str) l.rows)

/-- Statistics of one vector added to an array in an open window (R124); an array stops at 65,536 samples. -/
def addStats (a : Arr) (l : List (Nat × Int × Nat)) : Arr :=
  { a with stats := l.foldl (fun m e =>
      let x := FMap.get {} m e.1
      if x.n ≥ 65536 then m
      else FMap.put {} m e.1 { n := x.n + 1, su := x.su + e.2.1, su2 := x.su2 + e.2.1.natAbs * e.2.1.natAbs, sn := x.sn + e.2.2 }) a.stats }

/-- A 64-bit counter of an array advances (R105) and the page counts an update (R41). -/
def satAdd64 (a b : Nat) : Nat := satNat 64 (a + b)

/-- The array begins a vector: its input is read, clamped and converted, and its counters advance (R74 to R88, R222). -/
def State.runVector (s : State) (c a : Nat) (o : Op) (k n : Nat) (dev : List Int) : State :=
  let key := akey c a
  let r := s.arr key
  let subs := s.vecBytes o r.layer n
  let xs := rowInputs r.layer subs
  let out := vecOut r xs dev s.free
  let zero := xs.isEmpty
  let win := (s.ctx o.ctx).cal.run == 3
  let vec := satAdd64 r.vec 1
  let per := 2 ^ (s.reg .cal c 0x48)
  let r := { r with vec := vec, zeros := satAdd64 r.zeros (b2n zero), coarse := satAdd64 r.coarse out.nco, ovr := satAdd64 r.ovr out.nov
                    inclamp := satNat 32 (r.inclamp + clampCount r.layer subs)
                    readDue := r.readDue || decide (vec / per > r.vec / per)
                    res := r.res ++ [{ op := o.id, copy := k, pos := n, vals := out.vals, coarse := out.coarse, clip := out.clip, cks := out.cks }] }
  let r := if win then addStats r out.stats else r
  let s := (s.setArr key r).modPage (rOff .arr c 0 / 4096) (fun p => { p with updates := (p.updates + 1) % 65536 })
  (s.putOp { o with started := setNth o.started k (n + 1), stage := 2 }).withFree (s.free + 260 * r.layer.groups)

/-- VECTOR_START (R79, R80, R88, R140): the array's earliest waiting vector begins, unless the array still holds a
result that its tile has not let through, or two results, or its quadrant waits to relock (R492); a test vector that is due goes
first (R402, R423). A byte with wrong parity stops the invocation before the
vector is applied (R396). -/
def execVectorStart (c a : Nat) (dev : List Int) (s : State) : Host.Outcome State Fault Refusal :=
  let r := s.arr (akey c a)
  .next (if (r.st ≠ 3 ∧ r.st ≠ 4) ∨ !s.cluOn c ∨ s.relocking (c / 16) ∨ r.res.length ≥ 2 ∨ (r.st = 3 ∧ (r.testDue ∨ r.cmpDue)) then s
  else match s.nextFor c a with
  | none => s
  | some (o, k) =>
    if o.opc = 0x12 then s
    else
      let n := nth 0 o.started k
      match s.vecBad o r.layer n with
      | some b => (s.readFault false b o.ctx (s.invNum o.ctx)).stopOp o .parity
      | none => s.runVector c a o k n dev)

/-- One check value (group, half, |E|, CLIP) against the tolerance (R95, R96, R398). -/
def State.checkValue (c a : Nat) (o : Op) (r : VecRes) (inv tol : Nat) (s : State) (ck : Nat × Nat × Nat × Bool) : State :=
  let e := ck.2.2.1
  if e ≤ tol then s
  else
    let s := s.modArr (akey c a) (fun r => { r with ckfail := satNat 32 (r.ckfail + 1), ckmag := min e 0xFFFFF, ckhalf := ck.2.1, ckgroup := ck.1 })
    let s := s.modCtx o.ctx (fun y => y.modInv (fun v => { v with ckfails := satNat 32 (v.ckfails + 1) }))
    s.report { kind := if ck.2.2.2 then 3 else 2, ctx := o.ctx, invoc := inv, tile := nth 0 o.tiles (r.pos * r.vals.length + ck.1)
               unit := uArr c a, detail := min e 65535, pos := r.pos }

/-- Check values of a result against the context's tolerance (R95, R96, R398): CKFAIL, CKLAST and the report. -/
def State.checkValues (s : State) (c a : Nat) (o : Op) (r : VecRes) : State :=
  r.cks.foldl (State.checkValue c a o r (s.invNum o.ctx) (s.ctx o.ctx).tol) s

/-- Column values as incoming entries of a tile write: a W8 vector leaves entries from 128 on as R87 says. -/
def incoming (add : Bool) (vs : List Int) : List (Option FVal) :=
  vs.map (fun v => some (ofInt v)) ++ List.replicate (256 - vs.length) (if add then none else some (ofInt 0))

/-- The vector's results are written to its tiles, one per group (R91, R140). -/
def State.writeGroups (s : State) (c a : Nat) (o : Op) (r : VecRes) : Nat → Option State
  | 0 => some s
  | n + 1 =>
    match s.writeGroups c a o r n with
    | none => none
    | some s =>
      let ix := r.pos * r.vals.length + n
      let t := nth 0 o.tiles ix
      (s.writeTile o c t (wAdd o.word) (incoming (wAdd o.word) (nth [] r.vals n)) (lfsrSkip (4096 * ix) o.rng) (nth false r.coarse n) (nth false r.clip n)).map
        (fun s => s.logWrite o.ctx (uArr c a) c t)

/-- A result joins its chain set; the closing one writes the total to the tile (R142). -/
def addInts (a b : List Int) : List Int := (List.range a.length).map (fun i => nth 0 a i + nth 0 b i)

def State.chainResult (s : State) (c u : Nat) (o : Op) (ix : Nat) (r : VecRes) : Option State :=
  let ch := s.chSet c ix
  let ch := { ch with vals := addInts ch.vals (nth [] r.vals 0), coarse := ch.coarse || nth false r.coarse 0, clip := ch.clip || nth false r.clip 0
                      pend := ch.pend - 1 }
  let s := s.logWrite o.ctx u c ch.tile
  if ch.fin = some o.id then
    (s.writeTile o c ch.tile (wAdd o.word) (incoming (wAdd o.word) (if ch.w8 then ch.vals.take 128 else ch.vals)) o.rng ch.coarse ch.clip).map
      (fun s => s.setChain c ix {})
  else some (s.setChain c ix ch)

/-- The access of a tile is still held by the scoreboard (R140, R155). -/
def Op.heldAt (o : Op) (c t : Nat) : Bool := o.acc.any (fun a => a.cl == c && a.tile == t && a.wait)

/-- A result may be delivered: none of its tiles is held, and a closing result waits for its chain's members. -/
def State.deliverable (s : State) (c : Nat) (o : Op) (r : VecRes) : Bool :=
  match o.chainIx with
  | some ix => let ch := s.chSet c ix
    if ch.fin = some o.id then decide (ch.pend ≤ 1) && !o.heldAt c ch.tile else true
  | none => (List.range r.vals.length).all (fun k => !o.heldAt c (nth 0 o.tiles (r.pos * r.vals.length + k)))

/-- Two copies' values compared (R407): any output apart by more than U, and by how much at most. -/
def copyDiff (a b : List (List Int)) : Nat :=
  ((List.zip a b).flatMap (fun p => (List.zip p.1 p.2).map (fun q => (q.1 - q.2).natAbs))).foldl max 0

/-- U of R401. -/
def tolU (tol : Nat) : Nat := ceilDiv tol 8

/-- A result written to its tiles or added to its chain set; none where an adding write finds wrong parity (R162). -/
def State.deliver (s : State) (c a : Nat) (o : Op) (r : VecRes) : Option State :=
  match o.chainIx with | some ix => s.chainResult c (uArr c a) o ix r | none => s.writeGroups c a o r r.vals.length

/-- Copy 0's result of a vector is written once both copies' results are in (R407). -/
def State.finishVector (s : State) (c : Nat) (o : Op) (r : VecRes) : State :=
  match s.deliver c (nth 0 o.arrays r.copy) o r with
  | none =>
    let t := nth 0 o.tiles (r.pos * r.vals.length)
    let e := ((s.tile (tkey c t)).badPar 256).getD 0
    (s.tileFault o.ctx (s.invNum o.ctx) c t e).stopOp o .parity
  | some s =>
    let o := { o with done := o.done + 1, hold := o.hold.filter (fun h => h.pos != r.pos)
                      acc := o.acc.filter (fun x => !(List.range r.vals.length).any (fun k => x.tile == nth 512 o.tiles (r.pos * r.vals.length + k))) }
    if o.done ≥ bits o.word 78 73 + 1 then s.retire o else s.putOp o

/-- VECTOR_RESULT (R80 steps 6 and 7, R95, R96, R140, R396, R407): the array's oldest result passes its residue
check, its check values are compared, and it is written to its tile or chain set once nothing holds it. -/
def execVectorResult (c a : Nat) (residueOk : Bool) (s : State) : Host.Outcome State Fault Refusal :=
  let k := akey c a
  .next (match (s.arr k).res with
  | [] => s
  | r :: rest =>
    match s.getOp r.op with
    | none => s.modArr k (fun x => { x with res := rest })
    | some o =>
      if !residueOk then
        ((s.modArr k (fun x => { x with res := rest })).report { kind := 1, ctx := o.ctx, invoc := s.invNum o.ctx, tile := nth 0 o.tiles 0, unit := uClu c, pos := r.pos, detail := r.pos % 65536 }).stopOp o .parity
      else if !s.deliverable c o r then s
      else
        let s := (s.modArr k (fun x => { x with res := rest })).checkValues c a o r
        if o.arrays.length < 2 then s.finishVector c o r
        else match o.hold.find? (fun h => h.pos == r.pos) with
          | none => s.putOp { o with hold := o.hold ++ [r] }
          | some h =>
            let d := copyDiff h.vals r.vals
            let s := if d > tolU (s.ctx o.ctx).tol then
                s.report { kind := 5, ctx := o.ctx, invoc := s.invNum o.ctx, tile := nth 0 o.tiles 0, unit := uArr c (nth 0 o.arrays 0)
                           unit2 := uArr c (nth 0 o.arrays 1), detail := min d 65535, pos := r.pos }
              else s
            s.finishVector c o (if r.copy = 0 then r else h))

/-- A reference read of an array ends (R98): both sums stand and REFCNT advances. -/
def State.setRefs (s : State) (k s0 s1 : Nat) : State :=
  (s.modArr k (fun x => { x with ref0 := s0, ref1 := s1, refcnt := satNat 32 (x.refcnt + 1) })).modPage (rOff .arr (k / 128) 0 / 4096)
    (fun p => { p with updates := (p.updates + 2) % 65536 })

/-- REFREAD_DONE (R98, R248): the 256 passes end; with STORE the sums are written at DST; the operation retires. -/
def execRefreadDone (c a s0 s1 : Nat) (s : State) : Host.Outcome State Fault Refusal :=
  .next (match s.nextFor c a with
  | none => s
  | some (o, _) =>
    if o.opc ≠ 0x12 ∨ ((s.arr (akey c a)).st ≠ 3 ∧ (s.arr (akey c a)).st ≠ 4) then s
    else
      let s := s.setRefs (akey c a) s0 s1
      let s := if wX4 o.word then s.engWrite o.a1 (leBytes 8 s0 ++ leBytes 8 s1) else s
      s.retire o)

end Sys2Proof.Machine
end

