-- ==== Sys2Proof/Machine/Accum.lean ====
section
/-!
DEFINITION. Sys2Proof/Machine/Accum.lean: the accumulator and output unit: DRAIN, ARGX, ASAVE, ARESTORE, AZERO and
CMPR (R158 to R167, R252 to R255, R261), their retirement, and the readback registers (R168).
-/
namespace Sys2Proof.Machine

/-- A tile operand's open chain of the stream's own compositor whose closing has not issued (R143). -/
def State.ownChain (s : State) (st : StreamSt) (c t : Nat) : Bool := (s.openChain c st.cmp t).isSome

/-- Bytes of `n` outputs in an output format (R161) and of `n` operands (R158). -/
def outBytes (f n : Nat) : Nat := match f with | 0 => n | 1 => 2 * n | 2 => 2 * n | 3 => 4 * n | _ => ceilDiv (5 * n) 8
def opndBytes (f n : Nat) : Nat := match f with | 0 => n | 1 => 2 * n | 2 => 2 * n | _ => 4 * n

/-- The cluster's own scratchpad or the galley holds the extent (R158). -/
def State.nearExtent (s : State) (c a n : Nat) : Bool := let m := s.extent a n; m == some 0 || m == some (1 + c)
/-- A scratchpad or the galley holds the extent. -/
def State.bar2Extent (s : State) (a n : Nat) : Bool := match s.extent a n with | none => false | some m => m != 65

def State.profile (s : State) (c p : Nat) : Profile := FMap.get {} (s.clu c).profiles p

/-- The profile belongs to the context and holds data (R158, R159). -/
def State.profileOk (s : State) (ctx c p : Nat) : Bool := let x := s.profile c p; x.owned && x.ctx == ctx && !x.data.isEmpty

/-- First reason an engine cannot reach one of several extents. -/
def State.blockedAny (s : State) : List (Nat × Nat) → Option Code
  | [] => none
  | (a, n) :: r => match s.blocked a n with | some c => some c | none => s.blockedAny r

/-- What an instruction for a cluster or engine forms at issue: its checks in the order of R266, the extents it reaches, and
its operation. -/
structure IssueForm where
  chk : List (Bool × Code)
  ext : List (Nat × Nat)
  op  : Op
  deriving DecidableEq, Repr

/-- The first check of R266 that fails, if any. -/
def State.formBad (s : State) (f : IssueForm) : Option Code :=
  match firstBad f.chk with
  | some c => some c
  | none => s.blockedAny f.ext

/-- The instruction passes its checks and is handed over, or stops its invocation (R223, R266). -/
def State.accIssue (s : State) (ctx i : Nat) (st : StreamSt) (f : IssueForm) : State :=
  match s.formBad f with
  | some c => s.stopAt ctx i c
  | none => s.submit ctx i st f.op

/-- An operation on tiles `ts` of cluster `c`. -/
def mkOp (ctx i : Nat) (st : StreamSt) (w c : Nat) (ts : List Nat) (acc : List TAcc) : Op :=
  { id := 0, ctx := ctx, stream := i, cmp := st.cmp, word := w, stage := 1, clusters := [c], tiles := ts, acc := acc }

/-- What DRAIN checks at issue, in the order of R266, the bytes it reaches, and the operation it forms. -/
def State.drainForm (s : State) (ctx i : Nat) (st : StreamSt) (w : Nat) : IssueForm :=
  let c := wClu w
  let t := effT st w 85
  let n := bits w 84 77 + 1
  let fuse := bits w 72 71 ≠ 0
  let a := effA st w 18
  let b := effA st w 42
  let na := outBytes (bits w 68 66) n
  let nb := opndBytes (bits w 70 69) n
  { chk := [(s.cluFenced c, .fenced), (s.ownChain st c t, .state),
       (decide (a % 64 ≠ 0) || (decide fuse && decide (b % 64 ≠ 0)), .align),
       (!s.nearExtent c a na || (decide fuse && !s.nearExtent c b nb) || !s.ownTiles ctx c t 1 || !s.profileOk ctx c (bits w 76 73), .range)]
    ext := ((a, na) :: (if fuse then [(b, nb)] else []))
    op := { mkOp ctx i st w c [t] [⟨c, t, false, false, false⟩] with a1 := a, a2 := b } }

/-- DRAIN (R158, R252). -/
def execDrain (ctx i : Nat) (s : State) : Host.Outcome State Fault Refusal :=
  .next (match s.issuable ctx i 0x30 with | none => s | some (_, st, w) => s.accIssue ctx i st (s.drainForm ctx i st w))

/-- What ARGX checks at issue, in the order of R266, the bytes it reaches, and the operation it forms. -/
def State.argxForm (s : State) (ctx i : Nat) (st : StreamSt) (w : Nat) : IssueForm :=
  let c := wClu w
  let t := effT st w 85
  let a := effA st w 33
  { chk := [(s.cluFenced c, .fenced), (s.ownChain st c t, .state), (decide (a % 64 ≠ 0), .align),
       (!s.nearExtent c a 8 || !s.ownTiles ctx c t 1 || !s.profileOk ctx c (bits w 76 73), .range)]
    ext := [(a, 8)]
    op := { mkOp ctx i st w c [t] [⟨c, t, false, false, false⟩] with a1 := a } }

/-- ARGX (R164, R253). -/
def execArgx (ctx i : Nat) (s : State) : Host.Outcome State Fault Refusal :=
  .next (match s.issuable ctx i 0x31 with | none => s | some (_, st, w) => s.accIssue ctx i st (s.argxForm ctx i st w))

/-- What ASAVE checks at issue, in the order of R266, the bytes it reaches, and the operation it forms. -/
def State.asaveForm (s : State) (ctx i : Nat) (st : StreamSt) (w : Nat) : IssueForm :=
  let c := wClu w
  let t := effT st w 85
  let n := bits w 84 79 + 1
  let ts := (List.range n).map (fun k => t + k)
  let a := effA st w 55
  { chk := [(s.cluFenced c, .fenced), (ts.any (fun t => s.ownChain st c t), .state), (decide (a % 64 ≠ 0), .align),
       ((s.extent a (68 + 1296 * n)).isNone || !s.ownTiles ctx c t n, .range)]
    ext := [(a, 68 + 1296 * n)]
    op := { mkOp ctx i st w c ts (ts.map (fun t => ⟨c, t, false, false, false⟩)) with a1 := a } }

/-- ASAVE (R165, R254). -/
def execAsave (ctx i : Nat) (s : State) : Host.Outcome State Fault Refusal :=
  .next (match s.issuable ctx i 0x32 with | none => s | some (_, st, w) => s.accIssue ctx i st (s.asaveForm ctx i st w))

/-- What ARESTORE checks at issue, in the order of R266, the bytes it reaches, and the operation it forms. -/
def State.arestoreForm (s : State) (ctx i : Nat) (st : StreamSt) (w : Nat) : IssueForm :=
  let c := wClu w
  let t := effT st w 85
  let n := bits w 84 79 + 1
  let ts := (List.range n).map (fun k => t + k)
  let a := effA st w 55
  { chk := [(s.cluFenced c, .fenced), (decide (a % 64 ≠ 0), .align),
       ((s.extent a (68 + 1296 * n)).isNone || !s.ownTiles ctx c t n, .range)]
    ext := [(a, 68 + 1296 * n)]
    op := { mkOp ctx i st w c ts (ts.map (fun t => ⟨c, t, true, false, false⟩)) with a1 := a } }

/-- ARESTORE (R166, R254). -/
def execArestore (ctx i : Nat) (s : State) : Host.Outcome State Fault Refusal :=
  .next (match s.issuable ctx i 0x33 with | none => s | some (_, st, w) => s.accIssue ctx i st (s.arestoreForm ctx i st w))

/-- What AZERO checks at issue, in the order of R266, the bytes it reaches, and the operation it forms. -/
def State.azeroForm (s : State) (ctx i : Nat) (st : StreamSt) (w : Nat) : IssueForm :=
  let c := wClu w
  let t := effT st w 85
  let n := bits w 84 76 + 1
  let ts := (List.range n).map (fun k => t + k)
  { chk := [(s.cluFenced c, .fenced), (!s.ownTiles ctx c t n, .range)]
    ext := []
    op := (mkOp ctx i st w c ts (ts.map (fun t => ⟨c, t, true, false, false⟩))) }

/-- AZERO (R167, R255). -/
def execAzero (ctx i : Nat) (s : State) : Host.Outcome State Fault Refusal :=
  .next (match s.issuable ctx i 0x34 with | none => s | some (_, st, w) => s.accIssue ctx i st (s.azeroForm ctx i st w))

/-- What CMPR checks at issue, in the order of R266, the bytes it reaches, and the operation it forms. -/
def State.cmprForm (s : State) (ctx i : Nat) (st : StreamSt) (w : Nat) : IssueForm :=
  let c := wClu w
  let d := bits w 84 79
  let t := effT st w 85
  let u := effT st w 66
  let a := effA st w 18
  { chk := [(s.cluFenced c || s.cluFenced d, .fenced), (s.ownChain st c t || s.ownChain st d u, .state),
       (wX4 w && decide (a % 64 ≠ 0), .align),
       ((wX4 w && !s.bar2Extent a 8) || !s.ownTiles ctx c t 1 || !s.ownTiles ctx d u 1, .range)]
    ext := (if wX4 w then [(a, 8)] else [])
    op := { mkOp ctx i st w c [t, u] [⟨c, t, false, false, false⟩, ⟨d, u, false, false, false⟩] with
        clusters := if c = d then [c] else [c, d], a1 := a } }

/-- CMPR (R261). -/
def execCmpr (ctx i : Nat) (s : State) : Host.Outcome State Fault Refusal :=
  .next (match s.issuable ctx i 0x53 with | none => s | some (_, st, w) => s.accIssue ctx i st (s.cmprForm ctx i st w))

/-! ### The output unit -/

/-- An entry as read (R148, R160 step 1): its exact value, and whether the read sets SAT. -/
def Tile.read (t : Tile) (i : Nat) : FVal × Bool :=
  if t.fp then (fpVal (t.e i), false) else let v := fxVisible (t.e i); (ofInt v.1, v.2)

/-- A read of entries 0 to n - 1: SAT and ACC.SATCNT (R148). -/
def State.readTile (s : State) (c t n : Nat) : State :=
  let x := s.tile (tkey c t)
  let k := ((List.range n).filter (fun i => (x.read i).2)).length
  if k = 0 then s else (s.setTile (tkey c t) { x with sat := true }).bump .acc c 0x70 k

/-- A fused operand of format `f` (R158): exact. -/
def opndVal (f : Nat) (bs : List Byte) (i : Nat) : FVal :=
  match f with
  | 0 => ofInt (sext 8 (fieldLe bs i 1))
  | 1 => ofInt (sext 16 (fieldLe bs (2 * i) 2))
  | 2 => decode16 (fieldLe bs (2 * i) 2)
  | _ => decode32 (fieldLe bs (4 * i) 4)

/-- Activation (R160 step 4). -/
def activate (p : List Byte) (v : FVal) : FVal :=
  let seg := fun (k : Nat) => (decode16 (fieldLe p (16 + 4 * k) 2), decode16 (fieldLe p (18 + 4 * k) 2))
  let isZero := fun (x : FVal) => match x with | .fin _ m _ => m == 0 | _ => false
  let app := fun (k : Nat) (v : FVal) => let ab := seg k; if isZero ab.1 then ab.2 else add32 (mul32 ab.1 v) ab.2
  match v with
  | .nan => .nan
  | .inf s => app (if s then 0 else 255) v
  | .fin _ _ _ =>
    match addExact v (negF (decode32 (fieldLe p 4 4))) with
    | .fin s m e => app (clampI 0 255 (floorF s m (e - sext 8 (fieldLe p 8 1)))).toNat v
    | _ => .nan

/-- Stages 2 to 4 of R160. `fuse`: 0 NONE, 1 ADD, 2 MUL. -/
def stages (p : List Byte) (fuse : Nat) (x opd : FVal) : FVal :=
  let v := mul32 (round32 .rne x) (decode32 (fieldLe p 0 4))
  let v := match fuse with | 1 => add32 v opd | 2 => mul32 v opd | _ => v
  if bit (fieldLe p 9 1) 0 then activate p v else v

/-- Requantisation to an integer range (R161): value, clamped, NaN. -/
def quantInt (r : Rnd) (lo hi : Int) (v : FVal) : Int × Nat × Nat :=
  match v with
  | .nan => (0, 0, 1)
  | .inf s => (if s then lo else hi, 1, 0)
  | _ => let k := roundInt r v; (clampI lo hi k, b2n (decide (k < lo ∨ k > hi)), 0)

/-- Stage 5 (R160, R161): the encoded output, and the counts of QCLAMP and QNAN. -/
def requant (f : Nat) (r : Rnd) (v : FVal) : Nat × Nat × Nat :=
  match f with
  | 0 => let q := quantInt r (-128) 127 v; (toBits 8 q.1, q.2.1, q.2.2)
  | 1 => let q := quantInt r (-32768) 32767 v; (toBits 16 q.1, q.2.1, q.2.2)
  | 2 => (encode16 (round16 r v), 0, 0)
  | 3 => (encode32 (round32 r v), 0, 0)
  | _ => let q := quantInt r (-15) 15 v; (toBits 5 q.1, q.2.1, q.2.2)

/-- Stage 6: values packed, `b` bits each, first value in the low bits (R161). -/
def packBits (b : Nat) : List Nat → Nat
  | [] => 0
  | v :: r => v % 2 ^ b + 2 ^ b * packBits b r

def outBits (f : Nat) : Nat := match f with | 0 => 8 | 1 => 16 | 2 => 16 | 3 => 32 | _ => 5

/-- Stalled cycles at a memory (R268, R277): SPD.STALLb of its bank, or GAL.STALL. -/
def State.stallAt (s : State) (a n : Nat) : State :=
  if n = 0 then s
  else if isGal a then s.bump .gal 0 0x70 n
  else if isSpad a then s.bump .spd (spadOf a) (0x48 + 4 * (a / 0x100000 % 4)) n else s

/-- An operation may execute: it has been accepted and no tile holds it. -/
def Op.free (o : Op) : Bool := decide (o.stage ≥ 1) && !o.acc.any (fun a => a.wait)

/-- The drained values of entries 0 to n - 1 and their counts. -/
def drainVals (t : Tile) (p opd : List Byte) (w rng : Nat) : List (Nat × Nat × Nat) :=
  let n := bits w 84 77 + 1
  let ds := if wX4 w then draws n rng else []
  let os := decode32 (fieldLe p 12 4)
  (List.range n).map (fun i =>
    let y := stages p (bits w 72 71) (t.read i).1 (opndVal (bits w 70 69) opd i)
    requant (bits w 68 66) (if wX4 w then .sr (nth 0 ds i) else .rne) (mulExact y os))

/-- A drain executes (R160 to R163): parity stops it with nothing written; otherwise the output stands at DST. -/
def State.runDrain (s : State) (c : Nat) (o : Op) : State :=
  let w := o.word
  let t := nth 0 o.tiles 0
  let n := bits w 84 77 + 1
  let x := s.tile (tkey c t)
  let inv := s.invNum o.ctx
  let nb := opndBytes (bits w 70 69) n
  let fuse := decide (bits w 72 71 ≠ 0)
  match x.badPar n with
  | some e => (s.tileFault o.ctx inv c t e).stopOp o .parity
  | none =>
  match (if fuse then s.badIn o.a2 nb else none) with
  | some b => (s.readFault false b o.ctx inv).stopOp o .parity
  | none =>
    let s := s.readTile c t n
    let s := s.modCtx o.ctx (fun k => k.modInv (fun v => v.orFlags (s.tile (tkey c t))))
    let vals := drainVals x (s.profile c (bits w 76 73)).data (if fuse then s.engRead o.a2 nb else []) w o.rng
    let f := bits w 68 66
    let s := s.engWrite o.a1 (leBytes (outBytes f n) (packBits (outBits f) (vals.map (fun v => v.1))))
    let s := (s.bump .out c 0x64 (vals.foldl (fun t v => t + v.2.1) 0)).bump .out c 0x68 (vals.foldl (fun t v => t + v.2.2) 0)
    (s.bump64 .out c 0x58 1).retire o

/-- Whether candidate `a` beats `b` (R164), by value and then lower index; a NaN wins over numbers. -/
def beats (min : Bool) (a b : FVal × Nat) : Bool :=
  let lt := if min then ltF a.1 b.1 else ltF b.1 a.1
  let gt := if min then ltF b.1 a.1 else ltF a.1 b.1
  if a.1.isNan && !b.1.isNan then true
  else if b.1.isNan && !a.1.isNan then false
  else if a.1.isNan && b.1.isNan then decide (a.2 < b.2)
  else if lt then true else if gt then false else decide (a.2 < b.2)

def bestOf (min : Bool) : List (FVal × Nat) → FVal × Nat
  | [] => (.nan, 0)
  | [x] => x
  | x :: r => let y := bestOf min r; if beats min x y then x else y

/-- ARGX executes (R164). -/
def State.runArgx (s : State) (c : Nat) (o : Op) : State :=
  let w := o.word
  let t := nth 0 o.tiles 0
  let n := bits w 84 77 + 1
  let x := s.tile (tkey c t)
  let inv := s.invNum o.ctx
  match x.badPar n with
  | some e => (s.tileFault o.ctx inv c t e).stopOp o .parity
  | none =>
  match (if wX5 w then s.badIn o.a1 8 else none) with
  | some b => (s.readFault false b o.ctx inv).stopOp o .parity
  | none =>
    let s := s.readTile c t n
    let s := s.modCtx o.ctx (fun k => k.modInv (fun v => v.orFlags (s.tile (tkey c t))))
    let p := (s.profile c (bits w 76 73)).data
    let best := bestOf (wX4 w) ((List.range n).map (fun i => (stages p 0 (x.read i).1 (ofInt 0), i)))
    let own := (best.1, (bits w 72 57 + best.2) % 65536)
    let old := s.engRead o.a1 8
    let old := (decode32 (fieldLe old 0 4), fieldLe old 4 2)
    let win := if wX5 w && beats (wX4 w) old own then old else own
    let s := s.engWrite o.a1 (leBytes 4 (encode32 win.1) ++ leBytes 2 win.2 ++ leBytes 1 (b2n win.1.isNan + 2 * b2n (wX5 w)) ++ leBytes 1 0)
    (s.bump .out c 0x60 1).retire o

/-- DRAIN_RETIRE (R163 step 12, R215): the earliest drain or ARGX that nothing holds writes its output and retires;
cycles lost to bank conflicts count in OUT.STALL. -/
def execDrainRetire (c stall : Nat) (s : State) : Host.Outcome State Fault Refusal :=
  .next (match s.ops.find? (fun o => o.clusters == [c] && (o.opc == 0x30 || o.opc == 0x31) && o.free) with
  | none => s
  | some o =>
    let s := (s.bump .out c 0x6C stall).stallAt o.a1 stall
    if o.opc = 0x30 then s.runDrain c o else s.runArgx c o)

/-! ### Save, restore and zero -/

/-- A saved tile's part of an ASAVE image (R165). -/
def savedTile (t : Nat) (x : Tile) : List Byte :=
  leBytes 2 t ++ leBytes 1 (b2n x.coarse + 2 * b2n x.clip + 4 * b2n x.sat) ++ leBytes 13 0 ++ (List.range 256).flatMap (fun i => leBytes 5 (x.e i))

/-- The image of R165. -/
def State.saveImage (s : State) (c : Nat) (o : Op) : List Byte :=
  let x := s.ctx o.ctx
  let gn := match x.inv with | none => x.gennum | some v => v.gennum
  let body := leBytes 2 0x5341 ++ leBytes 1 1 ++ leBytes 1 (b2n x.fp) ++ leBytes 1 o.ctx ++ leBytes 1 c ++ leBytes 2 o.tiles.length
    ++ leBytes 4 x.epoch ++ leBytes 2 gn ++ leBytes 50 0 ++ o.tiles.flatMap (fun t => savedTile t (s.tile (tkey c t)))
  body ++ leBytes 4 (crc32c body)

/-- The checks of R166 on an image of `n` tiles, after COUNT = n (R254). -/
def State.restoreBad (s : State) (ctx n : Nat) (im : List Byte) : Option Code :=
  let tiles := (List.range n).map (fun k => sliceB im (64 + 1296 * k) 1296)
  firstBad
    [(decide (fieldLe im 6 2 ≠ n), .value),
     (decide (fieldLe im 0 2 ≠ 0x5341 ∨ fieldLe im 2 1 ≠ 1) || !zeroAt im 14 50
        || tiles.any (fun t => decide (fieldLe t 2 1 ≥ 8) || !zeroAt t 3 13), .value),
     (decide (crc32c (im.take (64 + 1296 * n)) ≠ fieldLe im (64 + 1296 * n) 4), .digest),
     (decide (fieldLe im 3 1 ≠ b2n (s.ctx ctx).fp ∨ fieldLe im 4 1 ≠ ctx), .state),
     (decide (fieldLe im 8 4 ≠ (s.ctx ctx).epoch), .epoch),
     (tiles.any (fun t => (List.range 256).any (fun e => parWrong (fieldLe t (16 + 5 * e) 5))), .parity)]

/-- A tile as an image holds it. -/
def tileFrom (x : Tile) (t : List Byte) : Tile :=
  let f := fieldLe t 2 1
  { x with ent := ((List.range 256).map (fun e => (e, fieldLe t (16 + 5 * e) 5))).filter (fun p => decide (p.2 ≠ 0))
           coarse := bit f 0, clip := bit f 1, sat := bit f 2 }

def State.restoreTiles (s : State) (o : Op) (c : Nat) (im : List Byte) : List Nat → Nat → State
  | [], _ => s
  | t :: r, k => ((s.modTile (tkey c t) (fun x => tileFrom x (sliceB im (64 + 1296 * k) 1296))).logOp o (uClu c) c t).restoreTiles o c im r (k + 1)

/-- ACC_OP_RETIRE (R165 to R167, R215): the earliest ASAVE, ARESTORE or AZERO that nothing holds. -/
def execAccOpRetire (c : Nat) (s : State) : Host.Outcome State Fault Refusal :=
  .next (match s.ops.find? (fun o => o.clusters == [c] && (o.opc == 0x32 || o.opc == 0x33 || o.opc == 0x34) && o.free) with
  | none => s
  | some o =>
    let n := o.tiles.length
    let inv := s.invNum o.ctx
    if o.opc = 0x34 then
      (o.tiles.foldl (fun s t => (s.modTile (tkey c t) (fun x => { x with ent := [], coarse := false, clip := false, sat := false })).logOp o (uClu c) c t) s).retire o
    else if o.opc = 0x32 then
      match o.tiles.findSome? (fun t => ((s.tile (tkey c t)).badPar 256).map (fun e => (t, e))) with
      | some te => (s.tileFault o.ctx inv c te.1 te.2).stopOp o .parity
      | none => (s.engWrite o.a1 (s.saveImage c o)).retire o
    else
      match s.badIn o.a1 (68 + 1296 * n) with
      | some b => (s.readFault (decide (o.a1 ≥ 2 ^ 63)) b o.ctx inv).stopOp o .parity
      | none =>
        let im := s.engRead o.a1 (68 + 1296 * n)
        let s := if o.a1 ≥ 2 ^ 63 then s.lpCountRead (o.a1 % 2 ^ 63) (68 + 1296 * n) else s
        match s.restoreBad o.ctx n im with
        | some e => s.stopOp o e
        | none => (s.restoreTiles o c im o.tiles 0).retire o)

/-! ### CMPR -/

/-- The integer a binary32 pattern maps to (R261). -/
def ordF (v : Nat) : Int := if bit v 31 then -((v % 2 ^ 31 : Nat) : Int) else (v : Int)
def isNan32 (v : Nat) : Bool := bits v 30 23 == 255 && decide (bits v 22 0 ≠ 0)

/-- Difference of two entries, saturating at 0xFFFF_FFFF, and whether they mismatch (R261). -/
def cmprEntry (fp : Bool) (tol a b : Nat) : Nat × Bool :=
  if fp then
    let x := bits a 31 0
    let y := bits b 31 0
    if isNan32 x || isNan32 y then (if isNan32 x && isNan32 y then (0, false) else (0xFFFFFFFF, true))
    else let d := (ordF x - ordF y).natAbs; (min d 0xFFFFFFFF, decide (d > tol))
  else let d := ((fxVisible a).1 - (fxVisible b).1).natAbs; (min d 0xFFFFFFFF, decide (d > tol))

/-- CMPR_DONE (R261): the earliest comparison of cluster CLU whose two reads are released. -/
def execCmprDone (c : Nat) (s : State) : Host.Outcome State Fault Refusal :=
  .next (match s.ops.find? (fun o => o.clusters.headD 64 == c && o.opc == 0x53 && o.free) with
  | none => s
  | some o =>
    let w := o.word
    let d := bits w 84 79
    let t := nth 0 o.tiles 0
    let u := nth 0 o.tiles 1
    let n := bits w 65 58 + 1
    let x := s.tile (tkey c t)
    let y := s.tile (tkey d u)
    let inv := s.invNum o.ctx
    match x.badPar n, y.badPar n with
    | some e, _ => (s.tileFault o.ctx inv c t e).stopOp o .parity
    | none, some e => (s.tileFault o.ctx inv d u e).stopOp o .parity
    | none, none =>
      let r := (List.range n).map (fun i => cmprEntry x.fp (bits w 57 42) (x.e i) (y.e i))
      let bad := (r.filter (fun e => e.2)).length
      let first := (findIdx (fun e => e.2) r 0).getD 0xFFFF
      let big := r.foldl (fun m e => max m e.1) 0
      let s := (s.readTile c t n).readTile d u n
      let s := if wX4 w then s.engWrite o.a1 (leBytes 2 bad ++ leBytes 2 first ++ leBytes 4 big) else s
      if bad = 0 then s.retire o
      else
        let s := s.report { kind := 0x11, ctx := o.ctx, invoc := inv, tile := t, detail := min big 65535, pos := first }
        if wX5 w then s.stopOp o .digest else s.retire o)

/-! ### Readback (R168) -/

/-- Word that marks a readback among the operations; no instruction has this opcode. -/
def rbWord : Nat := 0xF0 * 2 ^ 120

/-- RBSEL_GO (R168, R170): a request becomes a reader in tile order, without passing the cluster's entry (DEDUCED:
log 24). GO while one is pending is rejected with E_BUSY. -/
def execRbselGo (c : Nat) (v : Word) (s : State) : Host.Outcome State Fault Refusal :=
  let n := v.toNat
  let t := bits n 8 0
  let off := rOff .acc c 0x50
  .next (if c > 63 then s
  else if !s.pageOn .acc c then s.rejectOff off .power
  else if bits n 30 17 ≠ 0 then s.rejectOff off .rsvd
  else if bit n 31 then
    if (s.clu c).rb.pend.isSome then s.rejectOff off .busy
    else
      let s := s.setReg .acc c 0x50 (n % 2 ^ 31)
      let o : Op := { id := s.nextOp, ctx := 255, stream := 0, cmp := 0, word := rbWord, stage := 1, clusters := [c], tiles := [t], acc := [⟨c, t, false, false, false⟩] }
      let r := s.scoreboard o.acc
      let s := (r.1.withOps (r.1.ops ++ [{ o with acc := r.2 }])).withNextOp (r.1.nextOp + 1)
      s.modClu c (fun u => { u with rb := { u.rb with pend := some (t, bits n 16 9), op := o.id } })
  else s.setReg .acc c 0x50 n)

/-- READBACK_ARRIVE (R168): the raw entry stands in RBDATA; a parity error counts and is reported, and stops nothing. -/
def execReadbackArrive (c : Nat) (s : State) : Host.Outcome State Fault Refusal :=
  let rb := (s.clu c).rb
  .next (match rb.pend, s.getOp rb.op with
  | some (t, e), some o =>
    if !o.free then s
    else
      let x := (s.tile (tkey c t)).e e
      let s := s.withOps (removeOp o.id s.ops)
      let s := s.modClu c (fun u => { u with rb := { rb with data := x, valid := true, dup := false, ovr := rb.valid, tile := t, entry := e, pend := none } })
      let s := s.modPage (rOff .acc c 0 / 4096) (fun p => { p with updates := (p.updates + 1) % 65536 })
      if parWrong x then s.tileFault 255 0 c t e else s
  | _, _ => s)

/-- RBDATA as read (R170). -/
def Readback.word (r : Readback) : Nat :=
  r.data + (b2n r.valid <<< 40) + (b2n r.dup <<< 41) + (b2n r.ovr <<< 42) + (b2n r.pend.isSome <<< 43) + (r.tile <<< 44) + (r.entry <<< 53)

def State.reply (s : State) (bs : List Byte) : State := s.withHost { s.host with reply := bs, poisoned := false, unsup := false }

/-- RBDATA_READ (R168): a 4-byte read of the low word, or an 8-byte read, returns the present contents and consumes
a valid result. -/
def execRbdataRead (c size : Nat) (s : State) : Host.Outcome State Fault Refusal :=
  .next (if c > 63 ∨ (size ≠ 4 ∧ size ≠ 8) then s
  else if !s.pageOn .acc c then s.reply (leBytes size 0)
  else
    let rb := (s.clu c).rb
    let w := rb.word
    let s := s.reply (leBytes size w)
    let s := if size = 4 then s.modPage (rOff .acc c 0 / 4096) (fun p => { p with snapHi := w / 2 ^ 32, latches := (p.latches + 1) % 65536 }) else s
    if rb.valid then s.modClu c (fun u => { u with rb := { rb with valid := false, dup := true, ovr := false } }) else s)

end Sys2Proof.Machine
end

