-- ==== Sys2Proof/Machine/Flash.lean ====
section
/-!
DEFINITION. Sys2Proof/Machine/Flash.lean: the boot flash, its directory and the verification of firmware images (R515 to R520).
-/
namespace Sys2Proof.Machine

def State.flashRead (s : State) (a n : Nat) : List Byte := readBytes 0xFF#8 s.sec.flash a n
def State.flashWrite (s : State) (a : Nat) (bs : List Byte) : State :=
  { s with sec := { s.sec with flash := writeBytes 0xFF#8 s.sec.flash a bs } }

/-- A directory copy (R516). -/
structure FwDir where
  seq    : Nat := 0
  active : Nat := 0
  rega   : Nat := 0
  regb   : Nat := 1
  staged : Nat := 3
  svna   : Nat := 0
  svnb   : Nat := 0
  deriving DecidableEq, Repr

def FwDir.region (d : FwDir) (slot : Nat) : Nat := if slot = 0 then d.rega else d.regb
def FwDir.svn (d : FwDir) (slot : Nat) : Nat := if slot = 0 then d.svna else d.svnb
/-- The region that no slot names. -/
def FwDir.free (d : FwDir) : Nat := 3 - d.rega - d.regb

def fwMagic : List Byte := [0x4C#8, 0x56#8, 0x46#8, 0x57#8]
def dirMagic : List Byte := [0x4C#8, 0x56#8, 0x44#8, 0x52#8]

/-- A valid copy of the directory: its magic, its CRC, and fields inside their ranges. -/
def State.dirCopyAt (s : State) (n : Nat) : Option FwDir :=
  let b := s.flashRead (0x10000 * n) 64
  let d : FwDir := { seq := fieldLe b 4 4, active := fieldLe b 8 1, rega := fieldLe b 9 1, regb := fieldLe b 10 1, staged := fieldLe b 11 1
                     svna := fieldLe b 12 4, svnb := fieldLe b 16 4 }
  if b.take 4 = dirMagic ∧ crc32c (b.take 60) = fieldLe b 60 4 ∧ d.active ≤ 1 ∧ d.rega ≤ 2 ∧ d.regb ≤ 2 ∧ d.rega ≠ d.regb then some d else none

/-- The directory in force, and the copy it comes from: 2 when neither is valid. -/
def State.fwDir (s : State) : FwDir × Nat :=
  match s.dirCopyAt 0, s.dirCopyAt 1 with
  | none, none => ({}, 2)
  | some a, none => (a, 0)
  | none, some b => (b, 1)
  | some a, some b => if newer32 b.seq a.seq then (b, 1) else (a, 0)

def FwDir.bytes (d : FwDir) : List Byte :=
  let b := dirMagic ++ leBytes 4 d.seq ++ leBytes 1 d.active ++ leBytes 1 d.rega ++ leBytes 1 d.regb ++ leBytes 1 d.staged ++ leBytes 4 d.svna
    ++ leBytes 4 d.svnb ++ leBytes 40 0
  b ++ leBytes 4 (crc32c b)

/-- A directory write: the sector of the copy that does not hold the newer SEQ is erased and programmed; a write that does not
read back leaves that sector without a valid copy. -/
def State.dirWrite (s : State) (d : FwDir) (ok : Bool) : State :=
  let cur := s.fwDir
  let t := if cur.2 = 0 then 1 else 0
  let lo := 0x10000 * t
  let s := { s with sec := { s.sec with flash := s.sec.flash.filter (fun p => !decide (lo ≤ p.1 ∧ p.1 < lo + 0x10000)) } }
  if ok then s.flashWrite lo ({ d with seq := (cur.1.seq + 1) % 2 ^ 32 } : FwDir).bytes else s

def regionBase (r : Nat) : Nat := 0x100000 + 0x800000 * r

/-! ### Images (R517, R519) -/

def fwLen (img : List Byte) : Nat := fieldLe img 8 4
def fwSvn (img : List Byte) : Nat := fieldLe img 12 4
/-- The firmware measurement. -/
def fwMeas (img : List Byte) : List Byte := sha384 (sliceB img 0 496)

/-- Header fields and zero bytes under R517, with a LENGTH that fits the region. -/
def fwHeader (img : List Byte) : Bool :=
  img.take 4 == fwMagic && fieldLe img 4 1 == 1 && fieldLe img 5 1 == 0xB1 && fieldLe img 6 2 == 0x4C38 && zeroAt img 17104 304
    && decide (17472 ≤ fwLen img ∧ fwLen img ≤ 8388608 ∧ fwLen img % 64 = 0)

/-- Which checks of RSAKEY, SLHKEY, RSASIG and SLHSIG fail; all four are always made. -/
def fwSigFails (img : List Byte) : Nat :=
  let m := sliceB img 0 496
  b2n (sha384 (sliceB img 64 384) != Config.fuseRsa) + b2n (sha384 (sliceB img 448 48) != Config.fuseSlh)
    + b2n (!rsaPssVerify (sliceB img 64 384) m (sliceB img 496 384)) + b2n (!Config.slhVerify (sliceB img 448 48) m (sliceB img 880 16224))

/-- PAYDIG equals the digest of the payload. -/
def fwPayload (img : List Byte) : Bool := sha384 ((img.take (fwLen img)).drop 17408) == sliceB img 16 48

/-- An image verifies, or the code of the check that fails: signatures, then SVN, then header and payload (DEDUCED: log 64). -/
def State.fwBad (s : State) (img : List Byte) : Option Code :=
  if fwSigFails img ≠ 0 then some .sig
  else if fwSvn img < s.sec.svnMin then some .lock
  else if !fwHeader img || !fwPayload img then some .digest
  else none

/-- Failed key and signature checks count in SEC.SIGFAIL. -/
def State.sigCount (s : State) (img : List Byte) : State := s.bump .sec 0 0xA8 (fwSigFails img)

/-- The image of a region: as many bytes as its LENGTH, where that is one, or its header alone. -/
def State.fwImage (s : State) (r : Nat) : List Byte :=
  let h := s.flashRead (regionBase r) 17408
  if fwHeader h then s.flashRead (regionBase r) (fwLen h) else h

end Sys2Proof.Machine
end

