-- ==== Sys2Proof/Machine/Colophon.lean ====
section
/-!
DEFINITION. Sys2Proof/Machine/Colophon.lean: the Colophon store (R424 to R441): homes, records and their payloads, the
copy chosen at mount, counter rings, waiting writes, the supply check and their steps.
-/
namespace Sys2Proof.Machine

/-! ### Homes and records (R426 to R429) -/

/-- Offsets of every RWK word of BAR0, ascending (R429). -/
def pageNums : List Nat := List.range 0x5A ++ (List.range 0x400).map (fun i => 0x1000 + i)
/-- Offset of a page's RWK words. XTAGMAP is retained on DSY1 only (R391). -/
def rwkOf (p : Nat) : List Nat :=
  match pageAt p with
  | none => []
  | some (t, i) => (regsOf t).flatMap (fun r =>
      if r.acc == .rwk && !(t == .dsy && i == 0 && r.off == 0xA0) then (List.range (r.count * r.size / 4)).map (fun k => p * 4096 + r.off + 4 * k) else [])
def rwkWords : List Nat := pageNums.flatMap rwkOf
/-- SETTINGS payload length (R429, R454). -/
def setLen : Nat := 4 * rwkWords.length

/-- First page of a home's group A or B, and its pages (R428). Homes: 0 SETTINGS, 1 DEVICE, 2 to 9 CONTEXT, 10 to 19
OWNERSHIP, 20 to 23 CALIB, 24 to 27 HISTORY, 28 to 35 REPAIR, 36 FACTORY, 37 PASSWORD, 38 ROLLBACK (R521). -/
def homePage (h g : Nat) : Nat :=
  if h = 0 then 2 * g else if h = 1 then 4 + g
  else if h < 10 then 6 + 2 * (h - 2) + g
  else if h < 20 then 22 + 4 * (h - 10) + 2 * g
  else if h < 24 then 64 + 18 * (h - 20) + 9 * g
  else if h < 28 then 136 + 2 * (h - 24) + g
  else if h < 36 then 144 + 2 * (h - 28) + g
  else if h = 36 then 224 + 2 * g else if h = 37 then 228 + g else 230 + g
def homePages (h : Nat) : Nat :=
  if h = 0 ∨ h = 36 ∨ (10 ≤ h ∧ h < 20) then 2 else if 20 ≤ h ∧ h < 24 then 9 else 1

/-- A home's records: offset in the group, type, instance, payload length. -/
def homeRecs (h : Nat) : List (Nat × Nat × Nat × Nat) :=
  if h = 0 then [(0, 0x01, 0, setLen)]
  else if h = 1 then [(0, 0x02, 0, 64), (128, 0x03, 0, 16), (256, 0x04, 0, 96)]
  else if h < 10 then (List.range 4).map (fun i => (256 * i, 0x05, 4 * (h - 2) + i, 192))
  else if h < 20 then (List.range (min 7 (64 - 7 * (h - 10)))).map (fun i => (288 * i, 0x06, 7 * (h - 10) + i, 272))
  else if h < 24 then (List.range 16).map (fun i => (576 * i, 0x07, 16 * (h - 20) + i, 544))
  else if h < 28 then [(0, 0x08, h - 24, 960)]
  else if h < 36 then [(0, 0x09, h - 28, 1008)]
  else if h = 36 then [(0, 0x0A, 0, setLen + 64)] else if h = 37 then [(0, 0x0B, 0, 64)] else [(0, 0x0C, 0, 16)]

/-- A record: header with its CRC, then its payload (R426). -/
def recBytes (ty inst seq : Nat) (pl : List Byte) : List Byte :=
  let h := leBytes 2 0x4C43 ++ leBytes 1 ty ++ leBytes 1 0 ++ leBytes 2 pl.length ++ leBytes 2 inst ++ leBytes 4 seq
  h ++ leBytes 4 (crc32c (h ++ pl)) ++ pl

/-! ### Ring slots (R437 to R439) -/

def slotBytes (seq kind data : Nat) : List Byte :=
  let b := leBytes 2 seq ++ leBytes 1 kind ++ leBytes 9 data
  b ++ leBytes 4 (crc32c b)

/-- A snapshot page: 33 parts of the string of 17-bit counts. -/
def snapPage (seq : Nat) (counts : List Nat) : List Byte :=
  let str := packBits17 counts
  (List.range 33).flatMap (fun i => slotBytes seq (0x40 + i) (str >>> (72 * i) % 2 ^ 72)) ++ List.replicate 496 0xFF#8
where
  packBits17 : List Nat → Nat
    | [] => 0
    | c :: r => min c 131071 + 2 ^ 17 * packBits17 r

/-! ### The factory contents -/

/-- Factory contents of a page: the FACTORY record in both groups (passwords 0), zero counts in every ring's first
page, and an OWNERSHIP record per cluster that holds arrays 0 to 63 FREE and 64 to 67 SPARE (DESIGN CHOICE: log 40);
every other byte 0xFF. -/
def factoryPage (p : Nat) : List Byte :=
  if 224 ≤ p ∧ p < 228 then
    let r := recBytes 0x0A 0 1 (rwkWords.flatMap (fun o => leBytes 4 (wordReset o).toNat) ++ List.replicate 64 0#8)
    ((r ++ List.replicate (2048 - r.length) 0xFF#8).drop (1024 * (p % 2))).take 1024
  else if 22 ≤ p ∧ p < 62 ∧ (p - 22) % 4 < 2 then
    let pl := (List.range 68).flatMap (fun a => leBytes 4 (if a < 64 then 1 else 0))
    let g := (homeRecs (10 + (p - 22) / 4)).flatMap (fun r => recBytes r.2.1 r.2.2.1 1 pl)
    ((g ++ List.replicate (2048 - g.length) 0xFF#8).drop (1024 * ((p - 22) % 4))).take 1024
  else if 160 ≤ p ∧ p < 224 ∧ p % 2 = 0 then snapPage 0 (List.replicate 136 0)
  else List.replicate 1024 0xFF#8

def factoryRange (a n : Nat) : List Byte :=
  (((List.range ((a % 1024 + n + 1023) / 1024)).flatMap (fun i => factoryPage (a / 1024 + i))).drop (a % 1024)).take n

/-- What an unlisted byte of the Colophon reads as. -/
def factoryByte (a : Nat) : Byte := nth 0xFF#8 (factoryRange a 1) 0

/-- `n` bytes of the Colophon. -/
def State.colBytes (s : State) (a n : Nat) : List Byte :=
  (List.zip (factoryRange a n) (List.range n)).map (fun p => FMap.get p.1 s.col.mem (a + p.2))

/-- The Colophon with bytes written. -/
def colPut (m : FMap Byte) (a : Nat) (bs : List Byte) : FMap Byte :=
  (List.zip (List.range bs.length) (List.zip (factoryRange a bs.length) bs)).foldl (fun m p => FMap.put p.2.1 m (a + p.1) p.2.2) m

/-! ### The copy chosen (R430, R431) -/

/-- A valid copy of record `ix` of home `h` in group `g`: its sequence number and payload (R426). -/
def State.colCopy (s : State) (h ix g : Nat) : Option (Nat × List Byte) :=
  match nth (0, 0, 0, 0) (homeRecs h) ix with
  | (off, ty, inst, len) =>
    let b := s.colBytes (1024 * homePage h g + off) (16 + len)
    if fieldLe b 0 2 = 0x4C43 ∧ fieldLe b 2 1 = ty ∧ fieldLe b 4 2 = len ∧ fieldLe b 6 2 = inst
        ∧ crc32c (b.take 12 ++ b.drop 16) = fieldLe b 12 4 then some (fieldLe b 8 4, b.drop 16) else none

/-- The newest valid copy: sequence number, payload, and the group it alone stands newest in (2: both alike); and
whether the record is AMBIGUOUS, with its sequence number. -/
inductive Chosen where
  | absent
  | ambiguous (seq : Nat)
  | found (seq : Nat) (pl : List Byte) (grp : Nat)
  deriving DecidableEq, Repr

def State.colChosen (s : State) (h ix : Nat) : Chosen :=
  match s.colCopy h ix 0, s.colCopy h ix 1 with
  | none, none => .absent
  | some a, none => .found a.1 a.2 0
  | none, some b => .found b.1 b.2 1
  | some a, some b =>
    if a.1 = b.1 then (if a.2 = b.2 then .found a.1 a.2 2 else .ambiguous a.1)
    else if newer32 a.1 b.1 then .found a.1 a.2 0 else .found b.1 b.2 1

/-- The group a step writes: the one that does not hold the newest copy of its first record; where both do, the one
that holds no other record's only newest copy. A removed record is taken out of a group that still holds it.
DEDUCED: log 41. -/
def State.colTarget (s : State) (h : Nat) (recs : List (Nat × List Byte)) : Nat :=
  let grp := fun (ix : Nat) => match s.colChosen h ix with | .found _ _ g => g | _ => 2
  let ix := (recs.headD (0, [])).1
  let gs := grp ix :: (List.range (homeRecs h).length).map grp
  let t := match gs.find? (fun g => g != 2) with | some 0 => 1 | some _ => 0 | none => 0
  if recs.any (fun r => r.2.isEmpty && (s.colCopy h r.1 t).isNone) then 1 - t else t

/-- The new image of a home's group (R427); an empty payload removes the record. -/
def State.groupImage (s : State) (h : Nat) (recs : List (Nat × List Byte)) : List Byte :=
  let place := fun (img : List Byte) (p : Nat × (Nat × Nat × Nat × Nat)) =>
    let ix := p.1
    let put := fun (seq : Nat) (pl : List Byte) =>
      let b := recBytes p.2.2.1 p.2.2.2.1 seq pl
      img.take p.2.1 ++ b ++ img.drop (p.2.1 + b.length)
    match recs.find? (fun r => r.1 == ix) with
    | some r =>
      if r.2.isEmpty then img
      else put (match s.colChosen h ix with | .absent => 1 | .ambiguous q => (q + 2) % 2 ^ 32 | .found q _ _ => (q + 1) % 2 ^ 32) r.2
    | none => match s.colChosen h ix with | .found q pl _ => put q pl | _ => img
  (List.zip (List.range (homeRecs h).length) (homeRecs h)).foldl place (List.replicate (1024 * homePages h) 0xFF#8)

/-- The SETTINGS payload in force at mount: the SETTINGS record's, or the FACTORY record's (R432). -/
def State.settings (s : State) : Option (List Byte) :=
  match s.colChosen 0 0 with
  | .found _ pl _ => some pl
  | _ => match s.colChosen 36 0 with | .found _ pl _ => some (pl.take setLen) | _ => none

/-- Value of a retained word as last committed (R14). -/
def State.committed (s : State) (off : Nat) : Nat :=
  match findIdx (fun o => o == off) rwkWords 0, s.settings with
  | some i, some pl => fieldLe pl (4 * i) 4
  | _, _ => (wordReset off).toNat

/-! ### Rings (R438, R439) -/

/-- A ring page's snapshot: its sequence number and counts, when all 33 parts agree. -/
def State.ringSnap (s : State) (p : Nat) : Option (Nat × List Nat) :=
  let b := s.colBytes (1024 * p) 528
  let sl := (List.range 33).map (fun i => sliceB b (16 * i) 16)
  let q := fieldLe b 0 2
  if (List.zip (List.range 33) sl).all (fun x => fieldLe x.2 0 2 == q && fieldLe x.2 2 1 == 0x40 + x.1 && crc32c (x.2.take 12) == fieldLe x.2 12 4) then
    let str := sl.foldr (fun x a => fieldLe x 3 9 + 2 ^ 72 * a) 0
    some (q, (List.range 136).map (fun i => str >>> (17 * i) % 2 ^ 17))
  else none

/-- The current page of ring pair `k` (0 or 1), and its snapshot. -/
def State.ringCur (s : State) (k : Nat) : Option (Nat × Nat × List Nat) :=
  match s.ringSnap (160 + 2 * k), s.ringSnap (161 + 2 * k) with
  | none, none => none
  | some a, none => some (0, a.1, a.2)
  | none, some b => some (1, b.1, b.2)
  | some a, some b => if newer16 b.1 a.1 then some (1, b.1, b.2) else some (0, a.1, a.2)

/-- The delta slots of the current page that count: kind and data (R438). -/
def State.ringDeltas (s : State) (page q : Nat) : List (Nat × Nat × Nat) :=
  let b := s.colBytes (1024 * page + 528) 496
  ((List.range 31).map (fun i => sliceB b (16 * i) 16)).filterMap (fun x =>
    if crc32c (x.take 12) = fieldLe x 12 4 ∧ newer16 (fieldLe x 0 2) q then some (fieldLe x 0 2, fieldLe x 2 1, fieldLe x 3 9) else none)

/-- Counts of a ring pair's 136 arrays; 100,000 where no snapshot is valid (R438). -/
def State.ringCounts (s : State) (k : Nat) : List Nat :=
  match s.ringCur k with
  | none => List.replicate 136 100000
  | some (g, q, cs) =>
    let ds := s.ringDeltas (160 + 2 * k + g) q
    (List.zip (List.range 136) cs).map (fun p =>
      min 131071 (p.2 + (ds.filter (fun d => d.2.1 == 1 + p.1 / 68 && bit d.2.2 (p.1 % 68))).length))

/-- First unused delta slot of a page: past the last one that holds a byte other than 0xFF (R439). -/
def State.ringUnused (s : State) (page : Nat) : Nat :=
  let b := s.colBytes (1024 * page + 528) 496
  (List.range 31).foldl (fun m i => if (sliceB b (16 * i) 16).all (fun x => x == 0xFF#8) then m else i + 1) 0

def newest16 (q : Nat) (l : List Nat) : Nat := l.foldl (fun m x => if newer16 x m then x else m) q

/-- A ring change: start address, new bytes and page operations. `recs` names the pair's clusters (0, 1) and the arrays,
as bits, that take one cycle. -/
def State.ringBytes (s : State) (k : Nat) (recs : List (Nat × List Byte)) : Nat × List Byte × Nat :=
  let cur := match s.ringCur k with | some c => c | none => (0, 0, List.replicate 136 100000)
  let page := 160 + 2 * k + cur.1
  let last := newest16 cur.2.1 ((s.ringDeltas page cur.2.1).map (fun d => d.1))
  let un := s.ringUnused page
  if (s.ringCur k).isSome ∧ un + recs.length ≤ 31 then
    (1024 * page + 528 + 16 * un,
     (List.zip (List.range recs.length) recs).flatMap (fun p => slotBytes ((last + 1 + p.1) % 65536) (1 + p.2.1) (leNat p.2.2)), 0)
  else
    let cs := (List.zip (List.range 136) (s.ringCounts k)).map (fun p =>
      if recs.any (fun r => r.1 == p.1 / 68 && bit (leNat r.2) (p.1 % 68)) then p.2 + 1 else p.2)
    (1024 * (160 + 2 * k + (1 - cur.1)), snapPage ((last + 1) % 65536) cs, 1)

/-! ### Payloads (R358, R429, R440) -/

def State.settingsPayload (s : State) : List Byte := rwkWords.flatMap (fun o => leBytes 4 (s.rd o))

def State.devicePayload (s : State) : List Byte :=
  leBytes 4 s.cfg.epoch ++ sliceB s.col.lastDigest 0 48 ++ leBytes 4 s.epochCtr ++ leBytes 4 s.col.hours ++ leBytes 4 0

def State.fencePayload (s : State) : List Byte :=
  let m := fun (n : Nat) (u : Nat → Nat) => (List.range n).foldl (fun a i => a + (if (s.unit (u i)).state = 1 then 2 ^ i else 0)) 0
  leBytes 8 (m 64 uClu) ++ leBytes 3 (m 17 uCmp) ++ leBytes 1 (m 4 uSlice) ++ leBytes 3 (m 18 (fun i => uLane (i / 9) (i % 9))) ++ leBytes 1 0

def State.thermPayload (s : State) : List Byte := sliceB (s.thm.log.flatMap (fun x => x)) 0 96

/-- The 192 bytes of a context-table record (R358). -/
def State.ctxPayload (s : State) (c : Nat) : List Byte :=
  let x := s.ctx c
  let borrowed := s.arrays.any (fun p => p.2.owned && p.2.ctx == c && p.2.lent)
  leBytes 1 c ++ leBytes 1 x.state ++ leBytes 1 (b2n x.fp) ++ leBytes 1 x.red ++ leBytes 1 (b2n x.critical + 2 * b2n borrowed)
    ++ leBytes 1 (x.la.st + 4 * x.lb.st) ++ leBytes 1 (x.active.getD 0xFF) ++ leBytes 1 0 ++ leBytes 4 x.epoch ++ leBytes 4 x.tol
    ++ leBytes 8 x.seed ++ leBytes 6 x.invoc ++ leBytes 2 x.gennum ++ sliceB x.la.digest 0 48 ++ sliceB x.lb.digest 0 48
    ++ leBytes 4 x.digper ++ leBytes 60 0

/-- An array's ownership word (R358). Bit 11 stays 0: a spilled logical array has no physical array (DEDUCED: log 42). -/
def ownWord (r : Arr) : Nat :=
  if r.owned then r.st + (r.ctx <<< 3) + (r.gen <<< 8) + (r.copy <<< 9) + (b2n r.lent <<< 10) + (r.logical <<< 16) else r.st

def State.ownPayload (s : State) (c : Nat) : List Byte := (List.range 68).flatMap (fun a => leBytes 4 (ownWord (s.arr (akey c a))))

/-- CAL.RECORD0 and CAL.RECORD1 (R138). -/
def record0 (r : Arr) : Nat := toBits 12 r.recD + (toBits 8 (r.tbase + 40) <<< 12) + (toBits 8 (r.tcal + 40) <<< 20)
def record1 (r : Arr) : Nat := r.gamma % 65536 + ((r.lcal % 65536) <<< 16)

def State.calibPayload (s : State) (c : Nat) : List Byte :=
  (List.range 68).flatMap (fun a =>
    let r := s.arr (akey c a)
    if r.hasRec then leBytes 4 (record0 r + (b2n r.due <<< 28) + (b2n r.twinfail <<< 29)) ++ leBytes 4 (record1 r) else leBytes 8 0)

/-- A HISTORY entry (R440). -/
def State.histEntry (s : State) (slot : Nat) : List Byte :=
  match FMap.get 0 s.col.hist slot with
  | 0 => leBytes 2 0xFFFF ++ leBytes 38 0
  | u + 1 =>
    let x := s.unit u
    leBytes 2 u ++ leBytes 2 x.total ++ leBytes 1 x.state ++ leBytes 1 x.reason ++ leBytes 2 0
      ++ (List.range 4).flatMap (fun i => match x.evs[i]? with
          | some e => leBytes 1 e.kind ++ leBytes 1 e.ctx ++ leBytes 6 e.invoc
          | none => leBytes 8 0)

def State.histPayload (s : State) (i : Nat) : List Byte := (List.range 24).flatMap (fun e => s.histEntry (24 * i + e))

def State.repairPayload (s : State) (i : Nat) : List Byte :=
  (List.range 126).flatMap (fun e => match s.col.repairs[126 * i + e]? with | some b => sliceB b 0 8 | none => List.replicate 8 0xFF#8)

/-! ### Waiting writes (R434, R435) -/

def State.colQueue (s : State) (w : ColWrite) : State :=
  if w.steps.isEmpty then s else s.withCol { s.col with queue := s.col.queue ++ [w] }

/-- The homes that hold a context's records: its clusters' ownership, its context record, and DEVICE (R434, R448). -/
def State.ctxSteps (s : State) (c : Nat) (clus : List Nat) (gone : Bool) : List ColStep :=
  let own := (List.range 10).filterMap (fun j =>
    let l := clus.filter (fun k => k / 7 == j)
    if l.isEmpty then none else some { home := 10 + j, recs := l.map (fun k => (k % 7, s.ownPayload k)) })
  let h := 2 + c / 4
  own ++ (if gone then [{ home := h, recs := [(c % 4, [])] }, { home := h, recs := [(c % 4, [])] }]
      else [{ home := h, recs := [(c % 4, s.ctxPayload c)] }])
    ++ [{ home := 1, recs := [(0, s.devicePayload)] }]

/-- A wear write for arrays given by key: one ring step per ring pair (R134, R439). -/
def wearSteps (keys : List Nat) : List ColStep :=
  (List.range 32).filterMap (fun k =>
    let m := fun (c : Nat) => (List.range 68).foldl (fun a i => a + (if keys.contains (akey c i) then 2 ^ i else 0)) 0
    let rs := [(0, m (2 * k)), (1, m (2 * k + 1))].filter (fun x => decide (x.2 ≠ 0))
    if rs.isEmpty then none else some { home := 64 + k, recs := rs.map (fun x => (x.1, leBytes 9 x.2)) })

def calibStep (s : State) (c : Nat) : ColStep := { home := 20 + c / 16, recs := [(c % 16, s.calibPayload c)] }
def fenceStep (s : State) : ColStep := { home := 1, recs := [(1, s.fencePayload)] }
def thermStep (s : State) : ColStep := { home := 1, recs := [(2, s.thermPayload)] }
def deviceStep (s : State) : ColStep := { home := 1, recs := [(0, s.devicePayload)] }

/-- What a step writes: start address, new bytes, page operations, and energy in microjoules (R424, R435). -/
def State.stepBytes (s : State) (st : ColStep) : Nat × List Byte × Nat × Nat :=
  if st.home < 39 then
    (1024 * homePage st.home (s.colTarget st.home st.recs), s.groupImage st.home st.recs, homePages st.home, 60 * homePages st.home)
  else if st.home < 128 then
    let r := s.ringBytes (st.home - 64) st.recs
    (r.1, r.2.1, r.2.2, if r.2.2 = 0 then 4 else 60)
  else
    let a := (st.recs.headD (0, [])).1
    let bs := (st.recs.headD (0, [])).2
    let p := a / 1024
    let n := (a % 1024 + bs.length + 1023) / 1024
    let old := s.colBytes (1024 * p) (1024 * n)
    (1024 * p, old.take (a % 1024) ++ bs ++ old.drop (a % 1024 + bs.length), n, 60 * n)

/-- HLD.EUSABLE, 0 while a measurement runs (R449). -/
def State.eusable (s : State) : Nat := if s.hld.measuring then 0 else s.hld.eusable

/-- The supply check of R435 for a step that needs `e` microjoules. -/
def State.supplyOk (s : State) (e : Nat) : Bool :=
  s.hld.mainGood && !s.hld.measuring && (bit (s.reg .hld 0 0x40) 0 || decide (4 * e ≤ s.eusable))

/-- Pages busy: those of the step in progress (R443). -/
def State.busyPages (s : State) : List Nat :=
  match s.col.queue with
  | w :: _ => match w.active with
    | some (a, bs, _) => (List.range ((bs.length + 1023) / 1024)).map (fun i => a / 1024 + i)
    | none => []
  | [] => []

/-- COLOPHON_STEP_START (R435): the first write's next step passes the supply check and starts, or it waits; each step
that waits counts once in COL.DENYCNT. -/
def execColophonStepStart (s : State) : Host.Outcome State Fault Refusal :=
  .next (match s.col.queue with
  | [] => s
  | w :: r =>
    match w.active, w.steps with
    | none, st :: _ =>
      let b := s.stepBytes st
      let e := b.2.2.2
      let ok := s.supplyOk e
      let s := s.setReg .hld 0 0x5C (min (4 * e) 65535 + (b2n ok <<< 16))
      if ok then
        (s.bump .hld 0 0x58 1).withCol { s.col with queue := { w with active := some (b.1, b.2.1, b.2.2.1), denied := false } :: r }
      else if w.denied then s
      else (s.bump .col 0 0x74 1).withCol { s.col with queue := { w with denied := true } :: r }
    | _, _ => s)

/-- Arrays whose cycle a finished ring change recorded take it (R136). -/
def State.ringTaken (s : State) (k : Nat) (recs : List (Nat × List Byte)) : State :=
  recs.foldl (fun s r => (List.range 68).foldl (fun s a =>
    if bit (leNat r.2) a then s.modArr (akey (2 * k + r.1) a) (fun x => { x with progcyc := min 131071 (x.progcyc + 1) }) else s) s) s

/-- The step in progress ends: its bytes stand, page operations count, and the write is at its next step; the write
that has ended is answered with the state (R434, R436, R453). -/
def State.colStepEnd (s : State) : State × Option ColWrite :=
  match s.col.queue with
  | [] => (s, none)
  | w :: r =>
    match w.active, w.steps with
    | some (a, bs, pg), st :: more =>
      let s := s.withCol { s.col with mem := colPut s.col.mem a bs }
      let s := s.bump64 .col 0 0x68 pg
      let s := if 64 ≤ st.home ∧ st.home < 96 then s.ringTaken (st.home - 64) st.recs else s
      if more.isEmpty then ((s.withCol { s.col with queue := r }).bump .col 0 0x70 1, some w)
      else ((s.withCol { s.col with queue := { w with steps := more, active := none, denied := false } :: r }), none)
    | _, _ => (s, none)

/-- The first waiting write of a command, or of a password, whose step is not in progress, taken off the queue (R435, R445). -/
def takeJob : List ColWrite → Option (ColWrite × List ColWrite)
  | [] => none
  | w :: r => if (w.job.isSome || w.k == 19) && w.active.isNone then some (w, r) else (takeJob r).map (fun x => (x.1, w :: x.2))

end Sys2Proof.Machine
end

