-- ==== Sys2Proof/Machine/Fences.lean ====
section
/-!
DEFINITION. Sys2Proof/Machine/Fences.lean: when a context runs DEGRADED (R413), unit histories (R410, R441), confirmed
faults (R418), backing images (R357), the choice of physical arrays (R338, R135), remapping (R344), how a fence takes
effect (R412), and where streams find room (R206, R227).
-/
namespace Sys2Proof.Machine

/-- Keys of a list filtered by the array they name. -/
def State.arrKeys (s : State) (p : Nat → Arr → Bool) : List Nat := (s.arrays.filter (fun e => p e.1 e.2)).map (fun e => e.1)

/-- Arrays that a context holds. -/
def State.ctxArrays (s : State) (c : Nat) : List Nat := s.arrKeys (fun _ r => r.owned && r.ctx == c)

/-- Contexts that exist. -/
def State.ctxList (s : State) : List Nat := (s.ctxs.filter (fun p => p.2.ex)).map (fun p => p.1)

/-! ### DEGRADED (R339, R413) -/

/-- Physical arrays that a logical array receives (R339). -/
def needCopies (red flags : Nat) : Nat := if red = 2 ∨ (red = 1 ∧ bit flags 0) then 2 else 1

/-- SERVING copies of a logical array. -/
def State.servingCopies (s : State) (c g la k : Nat) : Nat :=
  ((s.copies c g la k).filter (fun a => (s.arr (akey k a)).st == 3)).length

/-- The context runs DEGRADED (R413). -/
def State.degraded (s : State) (c : Nat) : Bool :=
  let x := s.ctx c
  match x.active with
  | none => false
  | some g =>
    let l := x.letter g
    l.backing.isNone
      || (List.range (imgNla l.image)).any (fun la =>
          let p := imgPlace l.image la
          !x.spill.contains la && decide (s.servingCopies c g la (plCluster p) < needCopies x.red (plFlags p)))
      || (imgClusters l.image).any (fun k => s.cluFenced k)

/-- The context holds a lent array (R340). -/
def State.borrowed (s : State) (c : Nat) : Bool := s.arrays.any (fun p => p.2.owned && p.2.ctx == c && p.2.lent)

/-- What a command on a context answers when it succeeds (R413). -/
def State.okCode (s : State) (c : Nat) : Code := if s.degraded c then .degraded else .ok

/-- The completion of a command that names a context: a DEGRADED context's carries FLAGS[3] (R413). -/
def State.ctxDone (s : State) (e : Entry) (c : Code) (r0 r1 : Nat) (flags : Nat := 0) (gennum : Nat := 0) : State :=
  s.complete e c r0 r1 (if s.degraded e.ctx then flags ||| 8 else flags) gennum

/-- Value of the FENCE register of a unit (R41). -/
def State.fenceReg (s : State) (u : Nat) : Nat := (s.unit u).state + (s.unit u).reason <<< 8

/-- The UNIT_UNFENCE commands that wait for a unit complete (R414). A unit that failed its return completes them with
E_FENCED (DESIGN CHOICE: log 52). -/
def State.unfenceAnswer (s : State) (u : Nat) (c : Code) : State :=
  let js := s.jobs.filter (fun j => j.kind == 16 && j.a == u)
  js.foldl (fun s j => s.complete j.e c (s.fenceReg u) 0) (s.withJobs (s.jobs.filter (fun j => !(j.kind == 16 && j.a == u))))

/-! ### TEST_RUN (R423): jobs of kind 12 (array tests), 13 (cluster tests), 14 (twin checks) and 15 (comparisons) -/

/-- Which of a job's units still owe their test. -/
def State.owes (s : State) (kind u : Nat) : Bool :=
  match kind with
  | 12 => (s.arr u).testDue
  | 13 => (s.clu u).testDue
  | 14 => (s.arr u).twinDue
  | _ => (s.arr u).cmpDue

/-- A TEST_RUN whose units have all been tested, or no longer can be: the cluster tests of test 0 follow its array tests;
otherwise it completes. -/
def State.settleTests (s : State) : State :=
  (s.jobs.filter (fun j => decide (12 ≤ j.kind ∧ j.kind ≤ 15) && !j.n.any (s.owes j.kind))).foldl (fun (s : State) (j : Job) =>
    let s := s.withJobs (s.jobs.filter (fun x => x != j))
    let ks := (List.range 64).filter (fun c => bit (j.e.p 16 8) c && s.cluOn c && !s.cluFenced c)
    if j.kind = 12 ∧ !ks.isEmpty then
      let s := ks.foldl (fun s c => s.modClu c (fun u => { u with testDue := true, dueAt := if u.testDue then u.dueAt else u.opCount })) s
      s.withJobs (s.jobs ++ [{ j with kind := 13, n := ks }])
    else s.ctxDone j.e (if j.ctx = 255 then .ok else s.okCode j.ctx) j.a j.b) s

/-- A unit's test is over: every TEST_RUN that waits for it counts its outcome. -/
def State.testCount (s : State) (kind u : Nat) (pass : Bool) : State :=
  s.withJobs (s.jobs.map (fun j => if j.kind = kind ∧ j.n.contains u then
      { j with n := j.n.filter (fun x => x != u), a := j.a + b2n pass, b := j.b + b2n (!pass) } else j))

/-! ### Unit histories (R410, R441) -/

def State.histSlotOf (s : State) (u : Nat) : Option Nat := (s.col.hist.find? (fun p => p.2 == u + 1)).map (fun p => p.1)

/-- Smallest of a list under a key, the first on a tie. -/
def minBy (k : Nat → Nat) : List Nat → Option Nat
  | [] => none
  | x :: r => match minBy k r with | none => some x | some y => if k y < k x then some y else some x

/-- A unit receives a history entry (R441). -/
def State.histAdmit (s : State) (u : Nat) : State :=
  if (s.histSlotOf u).isSome then s
  else
    let setSlot := fun (s : State) (k : Nat) => s.withCol { s.col with hist := FMap.put 0 s.col.hist k (u + 1) }
    match (List.range 96).find? (fun k => FMap.get 0 s.col.hist k == 0) with
    | some k => setSlot s k
    | none =>
      let s := s.bump .col 0 0x88 1
      let free := (List.range 96).filter (fun k => !s.fenced (FMap.get 0 s.col.hist k - 1))
      match minBy (fun k => let v := FMap.get 0 s.col.hist k - 1; (s.unit v).total * 65536 + v) free with
      | none => s
      | some k => setSlot (s.modUnit (FMap.get 0 s.col.hist k - 1) (fun r => { r with total := 0 })) k

/-- The write of a unit's history (R410). -/
def State.histWrite (s : State) (u : Nat) : State :=
  let s := s.histAdmit u
  match s.histSlotOf u with
  | none => s
  | some k => s.colQueue { steps := [{ home := 24 + k / 24, recs := [(0, s.histPayload (k / 24))] }] }

/-- The write of a cluster's ownership record (R358, R448). -/
def State.ownStep (s : State) (k : Nat) : ColStep := { home := 10 + k / 7, recs := [(k % 7, s.ownPayload k)] }

/-! ### Confirmed faults (R418) -/

/-- Whether a unit served an entry: a tile it wrote, for a cluster by any of its units. -/
def serves (u : Nat) (e : LogEntry) : Bool :=
  e.wrote.any (fun p => if u / 8192 = 1 then p.1 % 64 == u / 128 % 64 && decide (p.1 / 64 / 8192 ≤ 1) else p.1 / 64 == u)

def State.confirmIn (s : State) (u reason c : Nat) : State :=
  let x := s.ctx c
  if !x.log.any (serves u) then s
  else if x.frozen then s.modCtx c (fun x => { x with multi := true })
  else
    let at' := (s.unit u).passAt
    s.modCtx c (fun x => { x with frozen := true, faulted := true, slUnit := u, slReason := reason
                                  log := x.log.map (fun e => if serves u e && decide (e.all > at') then { e with touched := true } else e) })

def State.confirm (s : State) (u reason : Nat) : State := s.ctxList.foldl (fun s c => s.confirmIn u reason c) s

/-! ### Backing images (R357) -/

/-- The letter loses its backing image, and the fault manager is told. -/
def State.loseBacking (s : State) (c g detail : Nat) : State :=
  (s.modCtx c (fun x => x.setLetter g { x.letter g with backing := none })).report { kind := 0x15, ctx := c, detail := detail }

/-- Weight data of a logical array read from the backing image and checked against the recorded SLICECRC. A backing image
in host memory is read as software must have left it (R357). -/
def State.backingSlice (s : State) (c g la : Nat) : State × Option (List Byte) :=
  let l := (s.ctx c).letter g
  match l.backing with
  | none => (s, none)
  | some (lp, a) =>
    if !lp then (s, some (imgSlice l.image la))
    else
      let off := (match (imgSecs l.image).find? (fun x => x.1 == 3) with | some x => x.2.1 | none => 0) + plSlice (imgPlace l.image la)
      let n := plBytes (imgPlace l.image la)
      let bs := s.engRead (2 ^ 63 + a + off) n
      if (s.badIn (2 ^ 63 + a + off) n).isNone && decide (crc32c bs = plCrc (imgPlace l.image la)) then (s.lpCountRead (a + off) n, some bs)
      else (s.loseBacking c g la, none)

/-! ### Choosing arrays (R338, R135) -/

/-- Arrays of a cluster in a state that programming may take, fewest cycles first. -/
def State.eligible (s : State) (k st : Nat) : List Nat :=
  sortKey (fun a => (s.arr (akey k a)).progcyc * 128 + a)
    ((List.range 68).filter (fun a => let r := s.arr (akey k a); r.st == st && !r.owned && decide (r.progcyc < 100000)))

def State.pickFree (s : State) (k : Nat) : Option Nat := (s.eligible k 1).head?
def State.pickSpare (s : State) (k : Nat) : Option Nat := (s.eligible k 0).head?

/-- An array is given a logical array to hold and waits for its programming (R346, R101). -/
def State.assign (s : State) (k ctx g la copy : Nat) (lent : Bool) (img slice : List Byte) : State :=
  let p := imgPlace img la
  let stat := decide (plStat p ≠ 0xFFFFFFFF)
  let pairs := List.range 260
  s.modArr k (fun r => { r with
    wasSpare := r.st == 0, st := 2, begun := false, owned := true, ctx := ctx, gen := g, logical := la, copy := copy, lent := lent
    serveAt := false, forArr := none, layer := plLayer p, weights := sliceWeights (plLayer p) slice, hasStat := stat
    expMean := if stat then pairs.foldl (fun m q => FMap.put 0 m q (imgMean img la q)) [] else []
    expM2 := if stat then pairs.foldl (fun m q => FMap.put 0 m q (imgM2 img la q)) [] else [] })

/-- An array leaves its context: SPARE or FREE, with or without erasure (R132, R348, R349, R364). -/
def freed (spare erase : Bool) (r : Arr) : Arr :=
  { r with st := if r.st = 4 then 4 else if spare then 0 else 1, owned := false, ctx := 0, gen := 0, logical := 0, copy := 0
           lent := false, wasSpare := false, begun := false, serveAt := false, forArr := none, due := false, refreshing := false
           armed := false, retest := false, testDue := false, cmpDue := false, twinDue := false, readDue := false
           weights := if erase then [] else r.weights, layer := if erase then {} else r.layer }

/-! ### Remapping (R344) -/

/-- The remap of a fenced array's copy begins: a target is taken and its wear write queued. -/
def State.remapStart (s : State) (key : Nat) : State :=
  let r := s.arr key
  let c := key / 128
  let x := s.ctx r.ctx
  if !r.owned || s.cluFenced c || s.arrays.any (fun p => p.2.forArr == some key) then s
  else
    match (match s.pickSpare c with | some a => some a | none => s.pickFree c) with
    | none => s
    | some a =>
      let b := s.backingSlice r.ctx r.gen r.logical
      match b.2 with
      | none => b.1
      | some sl =>
        let t := akey c a
        let s := b.1.assign t r.ctx r.gen r.logical r.copy false (x.letter r.gen).image sl
        (s.modArr t (fun q => { q with forArr := some key })).colQueue { steps := wearSteps [t], k := 13, args := [t] }

/-! ### Room for streams (R206, R227) -/

/-- Streams that stand on a compositor, or will at their next boundary: context, instructions. -/
def State.streamsOn (s : State) (k : Nat) : List (Nat × Nat) :=
  s.ctxList.flatMap (fun c =>
    let x := s.ctx c
    (List.zip (List.range x.prog.length) x.prog).filterMap (fun p =>
      let at' := match x.moves.find? (fun m => m.1 == p.1) with | some m => m.2 | none => nth 16 x.cmps p.1
      if at' = k then some (c, p.2.length) else none))

def State.progFree (s : State) (k : Nat) : Nat := 8192 - ((s.streamsOn k).foldl (fun t p => t + p.2) 0)

/-- CMP16 carries compositor `k`, and new invocations take its place (R226 step 2). -/
def State.carried (s : State) (k : Nat) : Bool :=
  (s.cmp 16).carry == k + 1 && ((s.cmp k).phase == 2 || (s.cmp k).phase == 3 || (s.cmp k).phase == 5)

/-- A compositor is out of service with no carrier (R219). -/
def State.cmpOut (s : State) (k : Nat) : Bool := s.fenced (uCmp k) && !s.carried k

/-- The compositor with the most free store that may take a stream of `len` instructions (R206). `occ` lists streams
placed in the same request: compositor, context, instructions. -/
def State.pickCmp (s : State) (ctx len : Nat) (occ : List (Nat × Nat × Nat)) : Option Nat :=
  let on := fun k => s.streamsOn k ++ (occ.filter (fun o => o.1 == k)).map (fun o => o.2)
  let free := fun k => 8192 - ((on k).foldl (fun t p => t + p.2) 0)
  minBy (fun k => (8192 - free k) * 32 + k)
    ((List.range 16).filter (fun k => !s.cmpOut k && !(on k).any (fun p => p.1 == ctx) && decide ((on k).length < 8 ∧ len ≤ free k)))

/-- Where the streams of compositor `k` would move (context, stream, compositor), and the streams that find no room. -/
def State.movesFrom (s : State) (k : Nat) : List (Nat × Nat × Nat) × List (Nat × Nat) :=
  let all := s.ctxList.flatMap (fun c =>
    let x := s.ctx c
    (List.zip (List.range x.prog.length) x.prog).filterMap (fun p => if nth 16 x.cmps p.1 = k then some (c, p.1, p.2.length) else none))
  let r := all.foldl (fun (acc : List (Nat × Nat × Nat × Nat) × List (Nat × Nat)) p =>
    match s.pickCmp p.1 p.2.2 (acc.1.map (fun m => (m.2.2.1, m.1, m.2.2.2))) with
    | some q => if q = k then (acc.1, acc.2 ++ [(p.1, p.2.1)]) else (acc.1 ++ [(p.1, p.2.1, q, p.2.2)], acc.2)
    | none => (acc.1, acc.2 ++ [(p.1, p.2.1)])) ([], [])
  (r.1.map (fun m => (m.1, m.2.1, m.2.2.1)), r.2)

def State.doMoves (s : State) (ms : List (Nat × Nat × Nat)) : State :=
  ms.foldl (fun s m => s.modCtx m.1 (fun x => { x with moves := x.moves ++ [(m.2.1, m.2.2)] })) s

/-- CMP16 cannot be used for another replacement: it carries a fenced compositor, or is itself fenced (R227, R524). -/
def State.spareBusy (s : State) : Bool :=
  s.fenced (uCmp 16) || ((s.cmp 16).carry != 0 && s.fenced (uCmp ((s.cmp 16).carry - 1)) && (s.cmp ((s.cmp 16).carry - 1)).phase == 5)

/-! ### A fence takes effect (R412) -/

/-- The unit becomes FENCED: its record, FENCECNT, the retained record, its history and the confirmation. -/
def State.markFenced (s : State) (u reason : Nat) : State :=
  let r := s.unit u
  if r.state = 1 then (s.modUnit u (fun r => { r with reason := reason, due := none })).histWrite u
  else
    let s := s.modUnit u (fun r => { r with state := 1, reason := reason, due := none })
    let s := if reason = 1 then s else s.bump .flt 0 0x98 1
    let s := s.colQueue { steps := [if u / 8192 = 0 then s.ownStep (u / 128) else fenceStep s] }
    let s := s.histWrite u
    if reason = 1 then s else s.confirm u reason

/-- A scheduled test that a fence abandons has not passed: its context's round is not clean (R403, R412). -/
def State.testLost (s : State) (key : Nat) : State :=
  let r := s.arr key
  if r.testDue && r.owned then s.modCtx r.ctx (fun x => { x with roundBad := true }) else s

/-- An array becomes FENCED and its logical array is remapped (R412, R344). -/
def State.fenceArray (s : State) (key reason : Nat) : State :=
  let s := s.testLost key
  let s := s.modArr key (fun r => { r with st := 4, testDue := false, retest := false, cmpDue := false, held := none })
  ((s.markFenced (uArr (key / 128) (key % 128)) reason).remapStart key).settleTests

/-- A cluster becomes FENCED: every array of it at once, with no remapping; each keeps the state it will return to. -/
def State.fenceCluster (s : State) (c reason : Nat) : State :=
  let s := (List.range 68).foldl (fun s a =>
    (s.testLost (akey c a)).modArr (akey c a) (fun r =>
      if r.st = 4 then r else { r with held := some r.st, st := 4, testDue := false, retest := false, cmpDue := false })) s
  ((s.modClu c (fun x => { x with testDue := false })).markFenced (uClu c) reason).settleTests

/-- UNIT_FENCE commands that wait for a unit complete (R414). -/
def State.fenceAnswer (s : State) (u : Nat) (c : Code) : State :=
  let js := s.jobs.filter (fun j => j.kind == 7 && j.a == u)
  js.foldl (fun s j => s.complete j.e c (if c = .ok then s.fenceReg u else 0) 0) (s.withJobs (s.jobs.filter (fun j => !(j.kind == 7 && j.a == u))))

/-- An invocation in flight issues on compositor `k` itself. -/
def State.issuesOn (s : State) (k : Nat) : Bool :=
  s.ctxs.any (fun p => match p.2.inv with | some v => v.streams.any (fun st => st.cmp == k && !st.carried) | none => false)

/-- Fences of compositors that no carrier will take: each takes effect once no invocation in flight issues there (R227). -/
def State.cmpFenceDue (s : State) : State :=
  if !s.spareBusy then s
  else (List.range 16).foldl (fun s k =>
    match (s.unit (uCmp k)).due with
    | none => s
    | some why => if s.issuesOn k || (s.cmp k).phase != 0 then s else (s.markFenced (uCmp k) why).fenceAnswer (uCmp k) .ok) s

/-- A fence of a unit for a reason. An array that serves a context is fenced at its next boundary, except for PERMANENT;
a compositor once its streams run elsewhere (R226, R227); the others at once. -/
def State.fence (s : State) (u reason : Nat) : State :=
  let k := u / 128 % 64
  if (s.unit u).state = 1 then s.markFenced u reason
  else match u / 8192 with
  | 0 =>
    let key := akey k (u % 128)
    let r := s.arr key
    if r.owned && decide (reason ≠ 2) && (s.ctx r.ctx).inv.isSome then s.modUnit u (fun x => { x with due := some reason })
    else s.fenceArray key reason
  | 1 => s.fenceCluster k reason
  | 2 =>
    if k = 16 then s.markFenced u reason
    else if s.spareBusy then
      let m := s.movesFrom k
      ((s.doMoves m.1).modUnit u (fun x => { x with due := some reason })).cmpFenceDue
    else s.modUnit u (fun x => { x with due := some reason })
  | _ => s.markFenced u reason

end Sys2Proof.Machine
end

