-- ==== Sys2Proof/Machine/Calib.lean ====
section
/-!
DEFINITION. Sys2Proof/Machine/Calib.lean: formes, converter self-calibration, the twin check, the drift clock and
calibration runs (R108 to R128), and the start of a refresh (R131 to R135).
-/
namespace Sys2Proof.Machine

/-- The thermal supervisor reports a sensor fault (R120). -/
def State.sensorFault (s : State) : Bool := s.thm.st == 3

/-- `⌊n / d⌋`, or one more where the manual states no rounding direction and the value is not whole. -/
def roundFree (n d fr : Nat) : Nat := n / d + (if n % d ≠ 0 ∧ Config.roundUp fr then 1 else 0)

/-- A temperature in quarter degrees rounded to whole degrees; at a half the manual names no direction. -/
def wholeDeg (tq : Int) (fr : Nat) : Int := tq / 4 + (if tq % 4 > 2 ∨ (tq % 4 = 2 ∧ Config.roundUp fr) then 1 else 0)

/-- `8000 * kT` of R119 for a temperature and a base, both in quarter degrees. -/
def kT8000 (tq base : Int) : Nat := (8000 + 3 * (tq - base)).toNat

/-! ### The twin check (R115, R116) -/

/-- The means of 16 differences, given as eight sums of them, lie within 2 LSB. -/
def twinOk (tw : List Int) : Bool := tw.all (fun d => decide (d.natAbs ≤ 32))

/-- A twin check with its repeat on failure; a second failure is reported. -/
def State.twin (s : State) (key : Nat) (tw1 tw2 : List Int) : State :=
  let c := key / 128
  if twinOk tw1 then s.modArr key (fun r => { r with twinfail := false })
  else
    let s := s.bump .cal c 0xC8 1
    if twinOk tw2 then s.modArr key (fun r => { r with twinfail := false })
    else (s.modArr key (fun r => { r with twinfail := true })).report { kind := 9, unit := uArr c (key % 128) }

/-- The check passed, at once or at its repeat. -/
def twinPass (tw1 tw2 : List Int) : Bool := twinOk tw1 || twinOk tw2

/-! ### The drift clock (R117 to R120) -/

/-- What a read gives (R119): L in Q6.10, the age and the ratio in Q2.16. -/
def driftOf (r : Arr) (s0 s1 : Nat) (tq : Int) (fr : Nat) : Nat × Nat × Nat :=
  let num := (s0 + s1) * 8000
  let den := (188416 + r.recD).toNat * kT8000 tq (4 * r.tbase)
  let ratio := min (2 ^ 18 - 1) (if den = 0 then 2 ^ 18 - 1 else roundFree (num * 65536) den fr)
  let l := if num ≥ den then 0
    else if num = 0 then 65535
    else min 65535 (roundFree ((lnQ den num).toNat * 51200) (2 ^ 64) (fr + 1))
  (l, min (2 ^ 32 - 1) (if l = 0 then 60 else roundFree (60 * expQ ((l : Int) * 2 ^ 64 / 1024)) (2 ^ 64) (fr + 2)), ratio)

/-- A drift-clock read of an array (R118 to R120), with its REFREAD and without its twin check. -/
def State.driftRead (s : State) (key s0 s1 : Nat) : State :=
  let s := s.setRefs key s0 s1
  let c := key / 128
  let r := s.arr key
  if (Int.natAbs ((s0 : Int) - s1)) * 200 > s0 + s1 then
    (s.modArr key (fun r => { r with refbad := true, agevalid := r.agevalid && !s.sensorFault })).report
      { kind := 7, ctx := if r.owned then r.ctx else 255, invoc := if r.owned then (s.ctx r.ctx).invoc else 0, unit := uArr c (key % 128) }
  else if s.sensorFault then s.modArr key (fun r => { r with refbad := false, agevalid := false })
  else
    let d := driftOf r s0 s1 s.thm.temp s.free
    (s.modArr key (fun r => { r with refbad := false, agevalid := true, lq := d.1, age := d.2.1, ratio := d.2.2, readT := s.thm.temp })).withFree (s.free + 3)

/-! ### Calibration runs (R121, R122, R127) -/

/-- Arrays in a context's service: SERVING arrays of its ACTIVE letter. -/
def State.inService (s : State) (c : Nat) : List Nat :=
  let x := s.ctx c
  s.arrKeys (fun _ r => r.owned && r.ctx == c && r.st == 3 && some r.gen == x.active && r.forArr.isNone && !r.serveAt)

/-- Arrays of the context's run: in its masked clusters. -/
def State.runArrays (s : State) (c : Nat) : List Nat := (s.inService c).filter (fun k => bit (s.ctx c).cal.mask (k / 128))

/-- Each array of the run owes a drift-clock read (R118). -/
def State.readsDue (s : State) (c : Nat) : State := (s.runArrays c).foldl (fun s k => s.modArr k (fun r => { r with readDue := true })) s

/-- REFSTEP begins. -/
def State.runBegin (s : State) (c trig mask : Nat) : State :=
  (s.modCtx c (fun x => { x with cal := { x.cal with run := 1, trig := trig, mask := mask, again := false } })).readsDue c

/-- A trigger of a calibration run: 0 command, 1 temperature, 2 age, 3 entry into service (R121, R127). -/
def State.calTrigger (s : State) (c trig mask : Nat) : State :=
  let x := s.ctx c
  if !x.ex || decide (x.state ≠ 1) then s
  else match x.cal.run with
  | 0 => s.runBegin c trig mask
  | 3 => if trig = 1 ∨ trig = 2 then s.runBegin c trig x.cal.mask
         else if trig = 3 then s.modCtx c (fun x => { x with cal := { x.cal with mask := 2 ^ 64 - 1 } }) else s
  | 4 => if trig = 0 then s else s.modCtx c (fun x => { x with cal := { x.cal with again := true } })
  | 5 => if trig = 0 then s else s.modCtx c (fun x => { x with cal := { x.cal with again := true } })
  | _ => s

/-- The temperature and age triggers of one array, evaluated on a reading or a drift-clock read (R121). -/
def State.evalTriggers (s : State) (key : Nat) : State :=
  let r := s.arr key
  let c := key / 128
  let ctl := s.reg .cal c 0x50
  if s.sensorFault || !(s.inService r.ctx).contains key then s
  else
    let step := s.reg .cal c 0x40
    let n := s.reg .cal c 0x44
    let s := if bit ctl 0 && decide (step ≠ 0) && s.thm.valid && decide ((s.thm.temp - r.trigT).natAbs > step) then s.calTrigger r.ctx 1 (2 ^ 64 - 1) else s
    if bit ctl 1 && decide (n ≠ 0) && r.agevalid && decide (((r.lq : Int) - r.trigL) * 2 ^ 64 > 1024 * lnQ (8 + n) 8) then
      s.calTrigger r.ctx 2 (2 ^ 64 - 1) else s

/-- Commands that wait for the context's run are answered when it reaches IDLE (R128). -/
def State.runAnswer (s : State) (c : Nat) : State :=
  let cal := (s.ctx c).cal
  let js := s.jobs.filter (fun j => j.kind == 1 && j.ctx == c)
  let s := s.withJobs (s.jobs.filter (fun j => !(j.kind == 1 && j.ctx == c)))
  js.foldl (fun s j => s.ctxDone j.e (s.okCode c) (j.a + cal.passed) (j.b + cal.failed)) s

/-- The run reaches IDLE; a trigger that came too late for it starts the next. -/
def State.runIdle (s : State) (c : Nat) : State :=
  let again := (s.ctx c).cal.again
  let s := (s.modCtx c (fun x => { x with cal := { x.cal with run := 0, again := false } })).runAnswer c
  if again then s.runBegin c 3 (2 ^ 64 - 1) else s

/-! ### New pair values (R109, R126) -/

/-- Outcome of a pair's check; `boot` leaves out STEP. -/
def pairOutcome (old new : Coef) (boot : Bool) : Nat :=
  if new.gain * 5 < 4 * 16384 then 2
  else if new.gain * 4 > 5 * 16384 then 3
  else if !boot && decide (((new.gain : Int) - old.gain).natAbs * 20 > old.gain) then 4
  else if new.off.natAbs > 32 then 5 else 1

/-- The inactive forme is written and armed. `news` gives each pair its new values or an outcome without any. -/
def armForme (r : Arr) (method : Nat) (news : Nat → Coef ⊕ Nat) : Arr :=
  let outs := (List.range 260).map (fun q =>
    let old := r.coef r.active q
    match news q with
    | .inl c => let o := pairOutcome old c false; (q, o, if o = 1 then c else old)
    | .inr o => (q, o, old))
  { r with
    forme := outs.foldl (fun m e => FMap.put {} m (512 * (1 - r.active) + e.1) e.2.2) r.forme
    fit := outs.foldl (fun m e => FMap.put 0 m e.1 (e.2.1 + 16 * method)) r.fit
    due := r.due || outs.any (fun e => e.2.1 == 2)
    armed := true, armT := r.readT, armL := r.lq }

def outcomeOf (r : Arr) (q : Nat) : Nat := FMap.get 0 r.fit q % 16
/-- Pairs that failed a check in the last step; pairs without a window or statistics failed none (DEDUCED: log 50). -/
def failedPairs (r : Arr) : List Nat := (List.range 260).filter (fun q => let o := outcomeOf r q; decide (2 ≤ o ∧ o ≤ 5))
def passedPairs (r : Arr) : Nat := ((List.range 260).filter (fun q => outcomeOf r q == 1)).length

/-- Failing pairs count in CAL.FAILCNT and are reported (R126). -/
def State.countFails (s : State) (key : Nat) : State :=
  let c := key / 128
  let r := s.arr key
  (failedPairs r).foldl (fun s _ => s.report { kind := 8, ctx := r.ctx, invoc := (s.ctx r.ctx).invoc, unit := uArr c (key % 128) })
    (s.bump .cal c 0xC0 (failedPairs r).length)

/-- New gain of the reference step (R123). -/
def refGain (r : Arr) (old : Nat) (fr : Nat) : Nat :=
  let e := expQ (((r.lcal : Int) - r.lq) * 2 ^ 64 / 51200)
  let d := kT8000 (4 * r.tcal) (4 * r.tbase) * 2 ^ 64
  min 65535 (if d = 0 then 65535 else roundFree (old * e * kT8000 r.readT (4 * r.tbase)) d fr)

/-- One array's reference step: new gains, checked, written to its inactive forme and armed (R123, R126). -/
def State.refStepArr (s : State) (k : Nat) : State :=
  let fr := s.free
  ((s.modArr k (fun r => armForme r 0 (fun q => .inl { gain := refGain r (r.coef r.active q).gain (fr + q), off := (r.coef r.active q).off }))).countFails k).withFree (fr + 260)

/-- REFERENCE_STEP (R123, R126): once every array of the run has been read, new gains are computed, checked, written to
the inactive formes and armed. Under a sensor fault the step is skipped (R120). -/
def execReferenceStep (c : Nat) (s : State) : Host.Outcome State Fault Refusal :=
  .next (
    let ks := s.runArrays c
    if (s.ctx c).cal.run ≠ 1 ∨ ks.any (fun k => (s.arr k).readDue) then s
    else
      let s := if s.sensorFault then s else ks.foldl State.refStepArr s
      s.modCtx c (fun x => { x with cal := { x.cal with run := 2 } }))

/-- The window has closed for an array: every pair is full, or its cluster's WINMAX invocations have passed. -/
def State.winDone (s : State) (c k : Nat) : Bool :=
  (List.range 260).all (fun q => (FMap.get {} (s.arr k).stats q).n == 65536) || decide ((s.ctx c).cal.invocs ≥ s.reg .cal (k / 128) 0x4C)

/-- STAT_WINDOW_CLOSE (R124): the window closes and each array owes a drift-clock read. -/
def execStatWindowClose (c : Nat) (s : State) : Host.Outcome State Fault Refusal :=
  .next (if (s.ctx c).cal.run = 3 ∧ (s.runArrays c).all (s.winDone c) then
      (s.modCtx c (fun x => { x with cal := { x.cal with run := 4 } })).readsDue c
    else s)

/-- Nearest integer to `sqrt (a / b)`, ties to even. -/
def sqrtRNE (a b : Nat) : Nat :=
  let g := isqrt (a / b)
  let t := (2 * g + 1) * (2 * g + 1) * b
  if 4 * a > t ∨ (4 * a = t ∧ g % 2 = 1) then g + 1 else g

/-- The fit of one pair (R125): N = 65,536 samples, μ in Q24.8 and m₂ in Q56.8. -/
def fitPair (x : Stat) (mu : Int) (m2 : Nat) : Coef ⊕ Nat :=
  if x.n ≠ 65536 then .inr 6
  else
    let vy := 256 * (m2 : Int) - mu * mu
    if vy < 65536 then .inr 7
    else
      let g := sqrtRNE ((65536 * (x.su2 : Int) - x.su * x.su).toNat * 4096) vy.toNat
      .inl { gain := g, off := divRNA (64 * x.su - (g : Int) * mu) (16 * max 1 x.sn) }

/-- One array's fit (R125, R126). -/
def State.fitArr (s : State) (k : Nat) : State :=
  (s.modArr k (fun r => armForme r 1 (fun q => fitPair (FMap.get {} r.stats q) (FMap.get 0 r.expMean q) (FMap.get 0 r.expM2 q)))).countFails k

/-- STAT_FIT (R125, R126): once every array of the run has been read, gains and offsets are fitted, checked and armed. -/
def execStatFit (c : Nat) (s : State) : Host.Outcome State Fault Refusal :=
  .next (
    let ks := s.runArrays c
    if (s.ctx c).cal.run ≠ 4 ∨ ks.any (fun k => (s.arr k).readDue) then s
    else
      (ks.foldl State.fitArr s).modCtx c (fun x => { x with cal := { x.cal with run := 5 } }))

/-- DRIFT_CLOCK_READ (R118 to R121): a due read with its twin check; the array's triggers are evaluated. -/
def execDriftClockRead (c a s0 s1 : Nat) (tw1 tw2 : List Int) (s : State) : Host.Outcome State Fault Refusal :=
  .next (
    let k := akey c a
    if !(s.arr k).readDue || !s.cluOn c then s
    else (((s.modArr k (fun r => { r with readDue := false })).driftRead k s0 s1).twin k tw1 tw2).evalTriggers k)

/-! ### The swap (R110, R111, R129) -/

/-- One array swaps: its inactive forme becomes active, and its trigger and calibration records follow (R129). -/
def swapArr (r : Arr) (fr : Nat) : Arr :=
  let r' := { r with active := 1 - r.active, armed := false, trigT := r.armT, trigL := r.armL, failed := (failedPairs r).length }
  if passedPairs r = 0 then r'
  else
    let sum := (List.range 260).foldl (fun t q => t + (r'.coef r'.active q).gain) 0
    { r' with lcal := r.armL, tcal := wholeDeg r.armT fr, gamma := roundFree sum 260 (fr + 1), hasRec := true }

/-- The forme swap of a context at a boundary (R110), and the next state of its run (R122). -/
def State.formeSwap (s : State) (c : Nat) : State :=
  let ks := (s.inService c).filter (fun k => (s.arr k).armed)
  let s := ks.foldl (fun s k => (s.modArr k (fun r => swapArr r s.free)).withFree (s.free + 2)) s
  let clus := (List.range 64).filter (fun n => ks.any (fun k => k / 128 == n))
  let s := clus.foldl (fun s n => (s.bump .cal n 0xC4 1).colQueue { steps := [calibStep s n] }) s
  let ok := ks.foldl (fun t k => t + passedPairs (s.arr k)) 0
  let bad := ks.foldl (fun t k => t + (s.arr k).failed) 0
  let put := fun (s : State) (run : Nat) => s.modCtx c (fun x => { x with cal := { x.cal with run := run, passed := ok, failed := bad, invocs := 0 } })
  match (s.ctx c).cal.run with
  | 2 =>
    if (s.runArrays c).any (fun k => (s.arr k).hasStat) then
      (s.runArrays c).foldl (fun s k => s.modArr k (fun r => { r with stats := [] })) (put s 3)
    else (put s 0).runIdle c
  | 5 => (put s 0).runIdle c
  | _ => s

/-- Arrays that leave service at a switch discard their armed formes; their pairs record SUPERSEDED (R111). -/
def superseded (r : Arr) : Arr :=
  if r.armed then { r with armed := false, fit := (List.range 260).foldl (fun m q => FMap.upd 0 m q (fun v => v / 16 * 16 + 8)) r.fit } else r

/-! ### Self-calibration (R112 to R114) and CAL_RUN (R128) -/

/-- Trims of a converter from what it needs: outside the range they stay 0 with FAIL. -/
def trimOf (t : Int × Int) : Trim :=
  if t.1.natAbs ≤ 127 ∧ t.2.natAbs ≤ 127 then { o := t.1, g := t.2 } else { fail := true }

def failedTrims (r : Arr) : List Nat := (List.range 264).filter (fun q => (FMap.get {} r.trims q).fail)

/-- Spare pairs still to give (R69): two, less those used and those whose own converter failed. -/
def sparePairs (r : Arr) : Nat := 2 - r.colmap.length - ((failedTrims r).filter (fun q => q ≥ 262)).length

/-- Pairs that the next programming must replace (R114): failed data and checksum pairs not yet replaced. -/
def trimPairs (r : Arr) : List Nat := (failedTrims r).filter (fun q => decide (q < 260) && !r.colmap.contains q)

/-- A finished self-calibration counts in the CAL_RUN that asked for it; the last one ends its SCAL part. -/
def State.scalCount (s : State) (key good bad : Nat) : State :=
  match s.jobs.find? (fun j => j.kind == 2 && j.n.contains key) with
  | none => s
  | some j =>
    let j' := { j with n := j.n.filter (fun k => k != key), a := j.a + good, b := j.b + bad }
    if !j'.n.isEmpty then s.withJobs (s.jobs.map (fun x => if x = j then j' else x))
    else
      let s := s.withJobs (s.jobs.filter (fun x => x != j))
      if j.ctx = 255 then s.complete j.e .ok j'.a j'.b
      else if ((s.inService j.ctx).filter (fun k => bit (j.e.p 16 8) (k / 128))).isEmpty then s.ctxDone j.e (s.okCode j.ctx) j'.a j'.b
      else (s.withJobs (s.jobs ++ [{ j' with kind := 1 }])).calTrigger j.ctx 0 (j.e.p 16 8)

/-- Whether an array is to be self-calibrated now (R113). -/
def State.scalDue (s : State) (key : Nat) : Bool :=
  s.jobs.any (fun j => j.kind == 2 && j.n.contains key) || s.sec.stage == 6 || ((s.arr key).st == 2 && (s.arr key).begun)

/-- An array's 264 converters take their trims (R112, R114). -/
def State.takeTrims (s : State) (k : Nat) (trims : List (Int × Int)) : State :=
  (s.modArr k (fun r => { r with trims := (List.range 264).foldl (fun m q => FMap.put {} m q (trimOf (nth (0, 0) trims q))) [] })).modClu (k / 128) (fun x => { x with scalDone := true })

/-- What failed trims lead to (R114): a report on a FENCED array, a fence of a SPARE or FREE one without spare pairs for them. -/
def State.trimFails (s : State) (k : Nat) : State :=
  let r := s.arr k
  if (failedTrims r).isEmpty then s
  else if r.st = 4 then s.report { kind := 8, unit := uArr (k / 128) (k % 128) }
  else if (trimPairs r).length > sparePairs r ∧ (r.st = 0 ∨ r.st = 1) then s.fence (uArr (k / 128) (k % 128)) 9
  else s

/-- CONVERTER_SELF_CAL (R112 to R114): an array's 264 converters take their trims, and its twin check runs. -/
def execConverterSelfCal (c a : Nat) (trims : List (Int × Int)) (tw1 tw2 : List Int) (s : State) : Host.Outcome State Fault Refusal :=
  .next (
    let k := akey c a
    if !s.scalDue k || !s.cluOn c then s
    else
      let s := s.takeTrims k trims
      let r := s.arr k
      ((s.trimFails k).twin k tw1 tw2).scalCount k (264 - (failedTrims r).length) (failedTrims r).length)

/-- Arrays that CAL_RUN self-calibrates in the clusters of mask `m` (R113). -/
def State.scalArrays (s : State) (m : Nat) : List Nat :=
  ((List.range 64).filter (fun c => bit m c && s.cluOn c)).flatMap (fun c =>
    ((List.range 68).map (akey c)).filter (fun k => let st := (s.arr k).st; st == 0 || st == 1 || st == 4))

/-- CAL_RUN (R128): self-calibration of the masked clusters' SPARE, FREE and FENCED arrays, a calibration run of a
context, or one after the other. -/
def execCalRun (e : Entry) (s : State) : Host.Outcome State Fault Refusal :=
  .next (s.begin e 0x0C (fun s =>
    let m := e.p 16 8
    let scal := bit (e.p 8 1) 0
    match (entryBad e [2] false [(8, 1), (16, 8)] (e.p 8 1 > 1)).or (firstBad
      [(!scal && e.ctx == 255, .value), (m == 0, .value), ((List.range 64).any (fun c => bit m c && s.cluFenced c), .fenced),
       (e.ctx != 255 && !(s.ctx e.ctx).ex, .state)]) with
    | some c => s.ctxDone e c 0 0
    | none =>
      let ks := if scal then s.scalArrays m else []
      if !ks.isEmpty then s.withJobs (s.jobs ++ [{ e := e, kind := 2, ctx := e.ctx, n := ks }])
      else if e.ctx = 255 ∨ ((s.inService e.ctx).filter (fun k => bit m (k / 128))).isEmpty then s.ctxDone e (if e.ctx = 255 then .ok else s.okCode e.ctx) 0 0
      else (s.withJobs (s.jobs ++ [({ e := e, kind := 1, ctx := e.ctx } : Job)])).calTrigger e.ctx 0 m))

/-! ### Refresh (R131 to R135) -/

/-- The cluster's first array that is due, in the service of a READY context with a backing image (R132). -/
def State.refreshDue (s : State) (c : Nat) : Option Nat :=
  (List.range 68).find? (fun a =>
    let k := akey c a
    let r := s.arr k
    let x := s.ctx r.ctx
    r.due && (s.inService r.ctx).contains k && x.state == 1 && (match x.active with | some g => (x.letter g).backing.isSome | none => false))

/-- The target of a refresh: a FREE array, or else a SPARE one (R132). -/
def State.refreshTarget (s : State) (c : Nat) : Option Nat := match s.pickFree c with | some b => some b | none => s.pickSpare c

/-- The refresh of array `k` into `t` begins with the slice of its backing image: the wear write of both is queued (R132, R134). -/
def State.refreshInto (s : State) (k t : Nat) (sl : List Byte) : State :=
  let r := s.arr k
  let s := s.assign t r.ctx r.gen r.logical r.copy r.lent ((s.ctx r.ctx).letter r.gen).image sl
  ((s.modArr t (fun x => { x with forArr := some k })).modArr k (fun x => { x with refreshing := true })).colQueue
    { steps := wearSteps [t, k], k := 12, args := [t] }

/-- REFRESH_START (R132): the cluster's first due array of a context with a backing image gets a target, whose wear write
(with the erasure of the due array) is queued. A due array past its endurance is fenced instead (R135). -/
def execRefreshStart (c : Nat) (s : State) : Host.Outcome State Fault Refusal :=
  .next (match s.refreshDue c with
    | none => s
    | some a =>
      let k := akey c a
      let r := s.arr k
      if !bit (s.reg .cal c 0x50) 2 || !s.cluOn c || (List.range 68).any (fun b => (s.arr (akey c b)).refreshing) then s
      else if r.progcyc ≥ 100000 then
        (s.fence (uArr c a) 7).report { kind := 0x0D, ctx := r.ctx, invoc := (s.ctx r.ctx).invoc, unit := uArr c a }
      else
        match s.refreshTarget c with
        | none => s
        | some b =>
          let q := s.backingSlice r.ctx r.gen r.logical
          match q.2 with
          | none => q.1
          | some sl => q.1.refreshInto k (akey c b) sl)

end Sys2Proof.Machine
end

