-- ==== Sys2Proof/Machine/Engines.lean ====
section
/-!
DEFINITION. Sys2Proof/Machine/Engines.lean: the proof engines (PMM, PMMC, POUT and spilled MVMs: R174 to R188, R249 to
R251), the fixed engines and the movers (GATHER, PACK, RANK, MOVE: R189 to R203, R256, R257), and their refusals
and faults (R198).
-/
namespace Sys2Proof.Machine

/-- A scratchpad of any cluster holds the extent (R181). -/
def State.spadExtent (s : State) (a n : Nat) : Bool := match s.extent a n with | none => false | some m => m != 0 && m != 65

/-! ### The row store (R179, R180, R345) -/

/-- Engine address of row store unit `u` (4 KiB) of cluster `c`: bank 2 of its scratchpad. -/
def rowBase (c u : Nat) : Nat := 0x10000000 + c * 0x400000 + 0x200000 + u * 4096

def State.region (s : State) (ctx c : Nat) : Region := FMap.get {} (s.ctx ctx).regions c

/-- The part of its region that a letter owns lies this far above the addresses programs use (R345). -/
def State.rowShift (s : State) (ctx gen c : Nat) : Nat :=
  if ((s.ctx ctx).letter gen).second then (s.region ctx c).part * 4096 else 0

/-- A row-store extent, as read, lies in the context's region of the cluster (R179). DEDUCED: log 32. -/
def State.rowOk (s : State) (ctx c a n : Nat) : Bool :=
  let r := s.region ctx c
  decide (r.part * r.parts ≠ 0 ∧ rowBase c r.base ≤ a ∧ a + n ≤ rowBase c (r.base + r.part * r.parts))

def rowPitch (n : Nat) : Nat := 64 * ceilDiv n 64
/-- Bytes of `k` rows of `n` weights, the padding of the last row not read (R180). -/
def rowsBytes (k n : Nat) : Nat := if k = 0 then 0 else (k - 1) * rowPitch n + n

def i8s (bs : List Byte) : List Int := bs.map (fun b => b.toInt)
def i16s (bs : List Byte) : List Int := (List.range (bs.length / 2)).map (fun i => sext 16 (fieldLe bs (2 * i) 2))

/-- `k` rows of `n` weights at an engine address. -/
def State.rowsAt (s : State) (a k n : Nat) : List (List Int) :=
  (List.range k).map (fun i => i8s (s.engRead (a + i * rowPitch n) n))

/-- Σ over k of x_k · W[k][n], for each n (R181). -/
def dotRows (n : Nat) (xs : List Int) (ws : List (List Int)) : List Int :=
  (List.zip xs ws).foldl (fun acc p => List.zipWith (fun a w => a + p.1 * w) acc p.2) (List.replicate n 0)

/-- The value Σ·2^(-SHIFT) as it reaches a tile (R176). -/
def scaled (fp : Bool) (shift : Nat) (v : Int) : FVal :=
  let x := FVal.fin (decide (v < 0)) v.natAbs (-(shift : Int))
  if fp then round32 .rne x else x

/-- A tile's incoming values: entries beyond the outputs are 0 under OVW and left alone under ADD (R176). -/
def proofVals (fp add : Bool) (shift : Nat) (vs : List Int) : List (Option FVal) :=
  vs.map (fun v => some (scaled fp shift v)) ++ List.replicate (256 - vs.length) (if add then none else some (ofInt 0))

/-- The tiles of an operation written in ascending order; a wrong parity under ADD stops before that tile. -/
def State.proofTiles (s : State) (c : Nat) (o : Op) : Nat → List (List (Option FVal)) → State × Option Nat
  | _, [] => (s, none)
  | ix, vs :: r =>
    let t := nth 0 o.tiles ix
    match s.writeTile o c t (wAdd o.word) vs (lfsrSkip (4096 * ix) o.rng) false false with
    | none => (s, some t)
    | some s => s.proofTiles c o (ix + 1) r

/-- A number from 0 to `n` that nothing constrains. -/
def State.upTo (s : State) (n : Nat) : Nat := (Config.freeValue s.free).toNat % (n + 1)

/-- The proof engine's counters of a retired operation (R199, R200). -/
def State.proofDone (s : State) (c work : Nat) : State := (s.bump64 .prf c 0x50 1).bump64 .prf c 0x58 work

/-- The tiles' values are written, and the operation retires or stops on a tile's parity (R162). -/
def State.proofFinish (s : State) (c : Nat) (o : Op) (vals : List (List (Option FVal))) (work : Nat) : State :=
  let r := s.proofTiles c o 0 vals
  match r.2 with
  | none => (r.1.proofDone c work).retire o
  | some t =>
    let e := ((r.1.tile (tkey c t)).badPar 256).getD 0
    (r.1.tileFault o.ctx (s.invNum o.ctx) c t e).stopOp o .parity

/-- A byte read by a proof engine is bad (R198): of the tiles that may already stand written, a number that the manual
leaves open is; the others stay unchanged. -/
def State.proofFault (s : State) (c : Nat) (o : Op) (b : Nat) (may : List (List (Option FVal))) : State :=
  let s := (s.readFault false b o.ctx (s.invNum o.ctx)).bump .prf c 0x68 1
  let n := s.upTo may.length
  let s := (s.proofTiles c o 0 (may.take n)).1
  (s.withFree (s.free + 1)).stopOp o .parity

/-! ### PMM (R181, R249) -/

/-- What PMM checks at issue, in the order of R266, the bytes it reaches, and the operation it forms. -/
def State.pmmForm (s : State) (ctx i : Nat) (v : Inv) (st : StreamSt) (w : Nat) : IssueForm :=
  let c := wClu w
  let t := effT st w 85
  let nv := bits w 84 79 + 1
  let k := bits w 78 67 + 1
  let n := bits w 66 59 + 1
  let ia := effA st w 31
  let wa := effA st w 7
  let ra := wa + s.rowShift ctx v.gen c
  let ni := (nv - 1) * (64 * ceilDiv k 64) + k
  let ts := (List.range nv).map (fun j => t + j)
  { chk := [(s.cluFenced c, .fenced), (decide (ia % 64 ≠ 0 ∨ wa % 64 ≠ 0), .align),
       (!s.spadExtent ia ni || !s.rowOk ctx c ra (rowsBytes k n) || !s.ownTiles ctx c t nv, .range)]
    ext := [(ia, ni), (ra, rowsBytes k n)]
    op := { mkOp ctx i st w c ts (ts.map (fun t => ⟨c, t, true, wAdd w, false⟩)) with a1 := ia, a2 := ra } }

/-- PMM: checks at issue. -/
def execPmm (ctx i : Nat) (s : State) : Host.Outcome State Fault Refusal :=
  .next (match s.issuable ctx i 0x20 with | none => s | some (v, st, w) => s.accIssue ctx i st (s.pmmForm ctx i v st w))

/-- The values that a PMM writes to its tiles, in tile order (R181, R176). -/
def State.pmmVals (s : State) (o : Op) : List (List (Option FVal)) :=
  let w := o.word
  let k := bits w 78 67 + 1
  let n := bits w 66 59 + 1
  let ws := s.rowsAt o.a2 k n
  (List.range (bits w 84 79 + 1)).map (fun v =>
    proofVals (s.ctx o.ctx).fp (wAdd w) (bits w 58 55) (dotRows n (i8s (s.engRead (o.a1 + v * (64 * ceilDiv k 64)) k)) ws))

/-- First bad byte of the rows that a PMM reads, and first vector with a bad byte. -/
def State.pmmBadRow (s : State) (o : Op) : Option Nat :=
  let n := bits o.word 66 59 + 1
  (List.range (bits o.word 78 67 + 1)).findSome? (fun j => s.badIn (o.a2 + j * rowPitch n) n)
def State.pmmBadIn (s : State) (o : Op) : Option (Nat × Nat) :=
  let k := bits o.word 78 67 + 1
  (List.range (bits o.word 84 79 + 1)).findSome? (fun v => (s.badIn (o.a1 + v * (64 * ceilDiv k 64)) k).map (fun b => (v, b)))

/-- PMM executes. -/
def State.runPmm (s : State) (c : Nat) (o : Op) : State :=
  match s.pmmBadRow o with
  | some b => s.proofFault c o b []
  | none =>
  match s.pmmBadIn o with
  | some vb => s.proofFault c o vb.2 ((s.pmmVals o).take (vb.1 / 4 * 4))
  | none => s.proofFinish c o (s.pmmVals o) (ceilDiv (bits o.word 84 79 + 1) 4 * ceilDiv (bits o.word 78 67 + 1) 4)

/-! ### PMMC (R185, R186, R250) -/

/-- Matrices that E elements use. -/
def pmmcMats (w : Nat) : Nat := let e := bits w 84 74 + 1; if wX4 w then ceilDiv e (bits w 73 68 + 1) else e

/-- What PMMC checks at issue, in the order of R266, the bytes it reaches, and the operation it forms. -/
def State.pmmcForm (s : State) (ctx i : Nat) (st : StreamSt) (w : Nat) : IssueForm :=
  let c := wClu w
  let t := effT st w 85
  let e := bits w 84 74 + 1
  let nt := ceilDiv e 32
  let ma := effA st w 40
  let va := effA st w 16
  let ts := (List.range nt).map (fun j => t + j)
  { chk := [(s.cluFenced c, .fenced), (decide (ma % 64 ≠ 0 ∨ va % 64 ≠ 0), .align),
       (!s.bar2Extent ma (32 * pmmcMats w) || !s.bar2Extent va (8 * e) || !s.ownTiles ctx c t nt, .range)]
    ext := [(ma, 32 * pmmcMats w), (va, 8 * e)]
    op := { mkOp ctx i st w c ts (ts.map (fun t => ⟨c, t, true, wAdd w, false⟩)) with a1 := ma, a2 := va } }

/-- PMMC: checks at issue. -/
def execPmmc (ctx i : Nat) (s : State) : Host.Outcome State Fault Refusal :=
  .next (match s.issuable ctx i 0x21 with | none => s | some (_, st, w) => s.accIssue ctx i st (s.pmmcForm ctx i st w))

/-- One element of PMMC: eight outputs, real then imaginary (R186). -/
def pmmcElem (conj : Bool) (m v : List Int) : List Int :=
  (List.range 4).flatMap (fun i =>
    let t := (List.range 4).map (fun j =>
      let r := if conj then nth 0 m (8 * j + 2 * i) else nth 0 m (8 * i + 2 * j)
      let q := if conj then -(nth 0 m (8 * j + 2 * i + 1)) else nth 0 m (8 * i + 2 * j + 1)
      let x := nth 0 v (2 * j)
      let y := nth 0 v (2 * j + 1)
      (r * x - q * y, r * y + q * x))
    [t.foldl (fun a p => a + p.1) 0, t.foldl (fun a p => a + p.2) 0])

/-- Engine address of element `j`'s matrix (R185). -/
def pmmcMat (o : Op) (j : Nat) : Nat := o.a1 + 32 * (if wX4 o.word then j / (bits o.word 73 68 + 1) else j)

/-- The values that a PMMC writes to its tiles: 32 elements of eight outputs each (R185, R186). -/
def State.pmmcVals (s : State) (o : Op) : List (List (Option FVal)) :=
  let w := o.word
  let e := bits w 84 74 + 1
  (List.range (ceilDiv e 32)).map (fun t =>
    proofVals (s.ctx o.ctx).fp (wAdd w) (bits w 67 64) ((List.range (min 32 (e - 32 * t))).flatMap (fun j =>
      pmmcElem (wX5 w) (i8s (s.engRead (pmmcMat o (32 * t + j)) 32)) (i8s (s.engRead (o.a2 + 8 * (32 * t + j)) 8)))))

/-- First element of a PMMC with a bad byte, and the byte. -/
def State.pmmcBadIn (s : State) (o : Op) : Option (Nat × Nat) :=
  (List.range (bits o.word 84 74 + 1)).findSome? (fun j => match s.badIn (pmmcMat o j) 32 with
    | some b => some (j, b)
    | none => (s.badIn (o.a2 + 8 * j) 8).map (fun b => (j, b)))

/-- PMMC executes. -/
def State.runPmmc (s : State) (c : Nat) (o : Op) : State :=
  let e := bits o.word 84 74 + 1
  match s.pmmcBadIn o with
  | some jb => s.proofFault c o jb.2 ((s.pmmcVals o).take (jb.1 / 32))
  | none => s.proofFinish c o (s.pmmcVals o) (if wX4 o.word then ceilDiv e 64 else ceilDiv e 32)

/-! ### POUT (R182 to R184, R251) -/

/-- What POUT checks at issue, in the order of R266, the bytes it reaches, and the operation it forms. -/
def State.poutForm (s : State) (ctx i : Nat) (st : StreamSt) (w : Nat) : IssueForm :=
  let c := wClu w
  let t := effT st w 85
  let nv := bits w 84 79 + 1
  let da := effA st w 55
  let sa := effA st w 31
  let ts := (List.range nv).map (fun j => t + j)
  { chk := [(s.cluFenced c, .fenced), (decide (da % 64 ≠ 0), .align),
       (!s.spadExtent da 64 || !s.bar2Extent sa 2 || !s.ownTiles ctx c t nv, .range)]
    ext := [(da, 64)]
    op := { mkOp ctx i st w c ts (ts.map (fun t => ⟨c, t, true, wAdd w, false⟩)) with a1 := da, a2 := sa } }

/-- POUT: checks at issue. -/
def execPout (ctx i : Nat) (s : State) : Host.Outcome State Fault Refusal :=
  .next (match s.issuable ctx i 0x22 with | none => s | some (_, st, w) => s.accIssue ctx i st (s.poutForm ctx i st w))

/-- Reserved bits of a stored engine address (R173). -/
def storedBad (a : Nat) : Bool := if a ≥ 2 ^ 63 then bits a 62 36 ≠ 0 else bits a 62 32 ≠ 0

/-- Strictly ascending. -/
def ascending : List Nat → Bool
  | [] => true
  | [_] => true
  | a :: b :: r => decide (a < b) && ascending (b :: r)

/-- The checks of R198 on a POUT descriptor `d` (its 64 bytes and indices), but for parity. -/
def State.poutBad (s : State) (c : Nat) (o : Op) (shift : Nat) (d : List Byte) : Option Code :=
  let nv := bits o.word 84 79 + 1
  let k := fieldLe d 0 2
  let m := fieldLe d 2 2
  let n := fieldLe d 8 2
  let th := fieldLe d 4 1
  let ib := fieldLe d 5 1
  let rb := fieldLe d 16 8
  let cd := fieldLe d 24 8
  let lim := if ib = 0 then 7 else if ib = 1 then 31 else 127
  let ch := (List.range m).map (fun j => fieldLe d (64 + 2 * j) 2)
  firstBad
    [(!zeroAt d 7 1 || !zeroAt d 10 6 || !zeroAt d 32 32 || storedBad rb || storedBad cd, .rsvd),
     (decide (k = 0 ∨ k > 512 ∨ m > 512 ∨ ib > 2 ∨ th = 0 ∨ th > lim ∨ fieldLe d 6 1 > 15 ∨ n = 0 ∨ n > 256), .value),
     (ch.any (fun x => decide (x ≥ k)) || !ascending ch, .value),
     (decide (rb % 64 ≠ 0 ∨ cd % 64 ≠ 0), .align),
     (!s.spadExtent o.a1 (64 + 2 * m) || !s.spadExtent cd ((nv - 1) * (64 * ceilDiv k 64) + k)
        || !s.bar2Extent o.a2 ((nv - 1) * (64 * ceilDiv (2 * k) 64) + 2 * k)
        || (decide (m ≠ 0) && !s.rowOk o.ctx c (rb + shift) (rowsBytes m n)), .range)]

/-- Bytes at `a`, each one new or old as the manual leaves open (R198). -/
def State.writePart (s : State) (a : Nat) (bs : List Byte) : State :=
  let old := s.engRead a bs.length
  (s.engWrite a ((List.range bs.length).map (fun i => if Config.partialNew s.free i then nth 0#8 bs i else nth 0#8 old i))).withFree (s.free + 1)

/-- What a POUT with descriptor `d` reaches, writes and computes (R182 to R184). -/
structure PoutWork where
  /-- Extents reached. -/
  ext    : List (Nat × Nat)
  /-- First bad byte of its inputs and rows. -/
  bad    : Option Nat
  /-- The clipped vectors, and where they go. -/
  writes : List (Nat × List Byte)
  /-- The tiles' values. -/
  vals   : List (List (Option FVal))
  /-- Channels clipped that no row corrects. -/
  lost   : Nat
  work   : Nat

def State.poutWork (s : State) (o : Op) (shift : Nat) (d : List Byte) : PoutWork :=
  let w := o.word
  let nv := bits w 84 79 + 1
  let k := fieldLe d 0 2
  let m := min 512 (fieldLe d 2 2)
  let n := fieldLe d 8 2
  let th : Int := (fieldLe d 4 1 : Nat)
  let rb := fieldLe d 16 8 + shift
  let cd := fieldLe d 24 8
  let str := 64 * ceilDiv (2 * k) 64
  let cstr := 64 * ceilDiv k 64
  let ch := (List.range m).map (fun j => fieldLe d (64 + 2 * j) 2)
  let xs := (List.range nv).map (fun v => i16s (s.engRead (o.a2 + v * str) (2 * k)))
  let cl := xs.map (fun x => x.map (clampI (-th) th))
  let rs := (List.zip xs cl).map (fun p => List.zipWith (fun a b => a - b) p.1 p.2)
  let ws := s.rowsAt rb m n
  { ext := [(o.a2, (nv - 1) * str + 2 * k), (cd, (nv - 1) * cstr + k), (if m = 0 then o.a1 else rb, max 1 (rowsBytes m n))]
    bad := match (List.range nv).findSome? (fun v => s.badIn (o.a2 + v * str) (2 * k)) with
      | some b => some b
      | none => (List.range m).findSome? (fun j => s.badIn (rb + j * rowPitch n) n)
    writes := (List.range nv).map (fun v => (cd + v * cstr, nth [] (cl.map (fun v => v.map (fun x => BitVec.ofInt 8 x))) v))
    vals := rs.map (fun r => proofVals (s.ctx o.ctx).fp (wAdd w) (fieldLe d 6 1) (dotRows n (ch.map (fun j => nth 0 r j)) ws))
    lost := rs.foldl (fun t r => t + ((List.range k).filter (fun j => nth 0 r j != 0 && !ch.contains j)).length) 0
    work := nv * ceilDiv k 64 + 2 * (ceilDiv nv 4 * ceilDiv m 4) }

/-- A POUT's descriptor and indices as they stand, and the row shift of its letter. -/
def State.poutDesc (s : State) (o : Op) : List Byte := s.engRead o.a1 (64 + 2 * min 512 (fieldLe (s.engRead o.a1 64) 2 2))
def State.poutShift (s : State) (c : Nat) (o : Op) : Nat :=
  s.rowShift o.ctx (s.invGen o.ctx) c

/-- POUT executes: descriptor checks, then the clipped vectors, then the tiles. -/
def State.runPout (s : State) (c : Nat) (o : Op) : State :=
  let d := s.poutDesc o
  let shift := s.poutShift c o
  match s.poutBad c o shift d with
  | some e => s.stopOp o e
  | none =>
  match s.badIn o.a1 (64 + 2 * min 512 (fieldLe d 2 2)) with
  | some b => ((s.readFault false b o.ctx (s.invNum o.ctx)).bump .prf c 0x68 1).stopOp o .parity
  | none =>
    let p := s.poutWork o shift d
    match s.blockedAny p.ext with
    | some e => s.stopOp o e
    | none =>
    match p.bad with
    | some b => (p.writes.foldl (fun s q => s.writePart q.1 q.2) s).proofFault c o b []
    | none => ((p.writes.foldl (fun s q => s.engWrite q.1 q.2) s).bump .prf c 0x4C p.lost).proofFinish c o p.vals p.work

/-! ### Spilled MVMs (R187) -/

/-- Offset in its part of a spilled logical array's rows, from the top of the claimed row store (R341, R345). -/
def State.spillOff (s : State) (ctx gen la : Nat) : Nat :=
  let c := (s.place ctx gen la).1
  ((s.ctx ctx).spill.filter (fun x => decide (x < la) && (s.place ctx gen x).1 == c)).foldl
    (fun t x => let l := (s.place ctx gen x).2.2; t + l.groups * l.rows * rowPitch l.outs) 0

/-- Engine address of a spilled logical array's rows. -/
def State.spillAddr (s : State) (ctx gen la : Nat) : Nat :=
  let c := (s.place ctx gen la).1
  let r := s.region ctx c
  rowBase c (r.base + r.claim) + s.rowShift ctx gen c + s.spillOff ctx gen la

/-- An input byte of a spilled MVM, as the slice's format gives it (R187). -/
def spillIn (l : Layer) (b : Byte) : Int := if l.insigned then b.toInt else (b.toNat : Int)

/-- A spilled operation over its rows (`n` bytes at `base`) and its `nv`·`G` inputs of `rows` bytes, `str` apart: its tiles'
values, its sums for a chain set, and its work in row groups (R187, R199). -/
structure SpillWork where
  base : Nat
  n    : Nat
  rows : Nat
  str  : Nat
  G    : Nat
  nv   : Nat
  work : Nat
  vals : List (List (Option FVal))
  tot  : List Int

/-- The sums of a spilled operation's sub-vectors over its slice's rows at `base` (R187). -/
def State.spillSums (s : State) (o : Op) (l : Layer) (base G : Nat) : List (List Int) :=
  (List.range ((bits o.word 78 73 + 1) * G)).map (fun j =>
    dotRows l.outs ((s.engRead (o.a1 + j * (64 * ceilDiv l.rows 64)) l.rows).map (spillIn l))
      (s.rowsAt (base + (j % G) * l.rows * rowPitch l.outs) l.rows l.outs))

def State.spillWork (s : State) (o : Op) : SpillWork :=
  let w := o.word
  let gen := s.invGen o.ctx
  let la := bits w 103 92
  let l := (s.place o.ctx gen la).2.2
  let G := if o.opc = 0x11 then l.groups else 1
  let nv := bits w 78 73 + 1
  let base := s.spillAddr o.ctx gen la
  let sums := s.spillSums o l base G
  { base := base, n := G * l.rows * rowPitch l.outs, rows := l.rows, str := 64 * ceilDiv l.rows 64, G := G, nv := nv
    work := ceilDiv nv 4 * G * ceilDiv l.rows 4
    vals := sums.map (fun v => proofVals (s.ctx o.ctx).fp (wAdd w) (l.gain + 2) v)
    tot := (nth [] sums 0).map (fun v => roundInt .rne (scaled false (l.gain + 2) v)) ++ List.replicate (256 - l.outs) 0 }

/-- What a spilled operation delivers: its tiles' values, or its sums to its chain set. -/
def State.spillDeliver (s : State) (c : Nat) (o : Op) (a : SpillWork) : State :=
  let s := s.bump64 .prf c 0x60 a.nv
  match o.chainIx with
  | none => s.proofFinish c o a.vals a.work
  | some ix =>
    match s.chainResult c (uClu c) o ix { op := o.id, copy := 0, pos := 0, vals := [a.tot], coarse := [], clip := [], cks := [] } with
    | some s => (s.proofDone c a.work).retire o
    | none =>
      let t := (s.chSet c ix).tile
      (s.tileFault o.ctx (s.invNum o.ctx) c t (((s.tile (tkey c t)).badPar 256).getD 0)).stopOp o .parity

/-- First vector of a spilled operation's inputs with a bad byte, and the byte. -/
def State.spillBadIn (s : State) (o : Op) (a : SpillWork) : Option (Nat × Nat) :=
  (List.range (a.nv * a.G)).findSome? (fun j => (s.badIn (o.a1 + j * a.str) a.rows).map (fun b => (j, b)))

/-- A spilled MVM or MVMS executes on the proof engine (R187, R198, R270). -/
def State.spillRun (s : State) (c : Nat) (o : Op) (a : SpillWork) : State :=
  match s.blockedAny [(a.base, a.n), (o.a1, (a.nv * a.G - 1) * a.str + a.rows)] with
  | some e => s.stopOp o e
  | none =>
  match s.badIn a.base a.n with
  | some b => s.proofFault c o b []
  | none =>
  match s.spillBadIn o a with
  | some jb => s.proofFault c o jb.2 (if o.chainIx.isSome then [] else a.vals.take (jb.1 / (4 * a.G) * (4 * a.G)))
  | none => s.spillDeliver c o a
def State.runSpilled (s : State) (c : Nat) (o : Op) : State := s.spillRun c o (s.spillWork o)

/-- PROOF_OP_RETIRE (R177, R178, R198, R215): the cluster's earliest proof-engine operation, unless a tile holds it,
ends; conflict cycles count in PRF.STALL. A failing residue check stops its invocation (R396). -/
def execProofOpRetire (c stall : Nat) (residueOk : Bool) (s : State) : Host.Outcome State Fault Refusal :=
  .next (match s.ops.find? (fun o => o.clusters == [c] && o.isProof && decide (o.stage ≥ 1)) with
  | none => s
  | some o =>
    if !o.free || (o.spilled && !(match o.chainIx with
        | none => true
        | some ix => let ch := s.chSet c ix; ch.fin != some o.id || (decide (ch.pend ≤ 1) && !o.heldAt c ch.tile))) then s
    else
      let s := (s.bump .prf c 0x6C stall).stallAt o.a1 stall
      if !residueOk then
        (s.report { kind := 1, ctx := o.ctx, invoc := s.invNum o.ctx, tile := nth 0 o.tiles 0, unit := uClu c }).stopOp o .parity
      else if o.spilled then s.runSpilled c o
      else if o.opc = 0x20 then s.runPmm c o
      else if o.opc = 0x21 then s.runPmmc c o
      else s.runPout c o)

/-! ### Descriptors of the movers and fixed engines (R256, R257) -/

/-- What MOVE, GATHER, PACK and RANK check at issue, and their operation; `clus` is the mover's cluster. -/
def State.descForm (s : State) (ctx i : Nat) (st : StreamSt) (w : Nat) (clus : List Nat) : IssueForm :=
  let d := effA st w 74
  { chk := [(clus.any (fun c => s.cluFenced c), .fenced), (decide (d % 64 ≠ 0), .align), (!s.bar2Extent d 64, .range)]
    ext := [(d, 64)]
    op := { mkOp ctx i st w 0 [] [] with clusters := clus, a1 := d, a2 := if wX4 w then effA st w 50 else 0, a3 := if wX4 w then effA st w 26 else 0 } }

/-- MOVE (R196, R256). -/
def execMove (ctx i : Nat) (s : State) : Host.Outcome State Fault Refusal :=
  .next (match s.issuable ctx i 0x40 with | none => s | some (_, st, w) => s.accIssue ctx i st (s.descForm ctx i st w [wClu w]))

/-- GATHER (R189, R256). -/
def execGather (ctx i : Nat) (s : State) : Host.Outcome State Fault Refusal :=
  .next (match s.issuable ctx i 0x41 with | none => s | some (_, st, w) => s.accIssue ctx i st (s.descForm ctx i st w []))

/-- PACK (R192, R256). -/
def execPack (ctx i : Nat) (s : State) : Host.Outcome State Fault Refusal :=
  .next (match s.issuable ctx i 0x42 with | none => s | some (_, st, w) => s.accIssue ctx i st (s.descForm ctx i st w []))

/-- RANK (R194, R256). -/
def execRank (ctx i : Nat) (s : State) : Host.Outcome State Fault Refusal :=
  .next (match s.issuable ctx i 0x43 with | none => s | some (_, st, w) => s.accIssue ctx i st (s.descForm ctx i st w []))

/-- An address field of a descriptor, with its base under REL (R257), and its stored form's reserved bits. -/
def descAddr (d : List Byte) (off base : Nat) : Nat := (fieldLe d off 8 + base) % 2 ^ 64
def descRsvd (o : Op) (d : List Byte) (off : Nat) : Bool := !wX4 o.word && storedBad (fieldLe d off 8)

/-! ### MOVE -/

/-- The checks of R198 on a MOVE descriptor, but for parity. -/
def State.moveBad (s : State) (o : Op) (d : List Byte) : Option Code :=
  let zero := bit (fieldLe d 32 1) 0
  let len := fieldLe d 16 4
  let rows := fieldLe d 20 4
  let ss := fieldLe d 24 4
  let ds := fieldLe d 28 4
  let src := descAddr d 0 o.a2
  let dst := descAddr d 8 o.a3
  let sn := (rows - 1) * ss + len
  let dn := (rows - 1) * ds + len
  firstBad
    [(decide (fieldLe d 32 1 > 1) || !zeroAt d 33 31 || descRsvd o d 8 || (!zero && descRsvd o d 0), .rsvd),
     (decide (len < 64 ∨ len > 16777216 ∨ len % 64 ≠ 0 ∨ rows = 0 ∨ rows > 65536 ∨ len * rows > 2 ^ 28 ∨ ss % 64 ≠ 0 ∨ ds % 64 ≠ 0
        ∨ (rows > 1 ∧ ds < len)), .value),
     (decide (dst % 64 ≠ 0) || (!zero && decide (src % 64 ≠ 0)), .align),
     ((s.extent dst dn).isNone || (!zero && (s.extent src sn).isNone), .range),
     (!zero && decide (src < dst + dn ∧ dst < src + sn), .range)]

/-- MOVE_RETIRE (R196 to R198): the mover's earliest MOVE checks its descriptor, copies and retires. -/
def execMoveRetire (c : Nat) (s : State) : Host.Outcome State Fault Refusal :=
  .next (match s.ops.find? (fun o => o.clusters == [c] && o.opc == 0x40 && decide (o.stage ≥ 1)) with
  | none => s
  | some o =>
    let inv := s.invNum o.ctx
    let d := s.engRead o.a1 64
    match s.moveBad o d with
    | some e => s.stopOp o e
    | none =>
    match s.badIn o.a1 64 with
    | some b => (s.readFault false b o.ctx inv).stopOp o .parity
    | none =>
      let zero := bit (fieldLe d 32 1) 0
      let len := fieldLe d 16 4
      let rows := fieldLe d 20 4
      let ss := fieldLe d 24 4
      let ds := fieldLe d 28 4
      let src := descAddr d 0 o.a2
      let dst := descAddr d 8 o.a3
      match s.blockedAny ((dst, (rows - 1) * ds + len) :: (if zero then [] else [(src, (rows - 1) * ss + len)])) with
      | some e => s.stopOp o e
      | none =>
        let data := (List.range rows).map (fun r => if zero then List.replicate len 0#8 else s.engRead (src + r * ss) len)
        match (if zero then none else (List.range rows).findSome? (fun r => s.badIn (src + r * ss) len)) with
        | some b =>
          let s := s.readFault (decide (src ≥ 2 ^ 63)) b o.ctx inv
          let s := (List.range rows).foldl (fun s r => s.writePart (dst + r * ds) (nth [] data r)) s
          s.stopOp o .parity
        | none =>
          let s := if !zero && decide (src ≥ 2 ^ 63) then (List.range rows).foldl (fun s r => s.lpCountRead ((src + r * ss) % 2 ^ 63) len) s else s
          ((List.range rows).foldl (fun s r => s.engWrite (dst + r * ds) (nth [] data r)) s).retire o)

/-! ### GATHER (R189 to R191) -/

/-- Ranges of a GATHER descriptor: first PRB and count. -/
def gatherRanges (d : List Byte) : List (Nat × Nat) :=
  (List.range (min 8 (fieldLe d 30 1))).map (fun j => (fieldLe d (32 + 4 * j) 2, fieldLe d (34 + 4 * j) 2))

def rangesOk : Nat → List (Nat × Nat) → Bool
  | _, [] => true
  | lo, (f, n) :: r => decide (lo ≤ f ∧ f ≤ 272 ∧ 1 ≤ n ∧ f + n ≤ 273) && rangesOk (f + n) r

/-- The visits of a gather: subcarrier and stream, in visit order (R190). -/
def gatherVisits (d : List Byte) : List (Nat × Nat) :=
  let ss := (List.range 32).filter (fun s => bit (fieldLe d 24 4) s)
  (gatherRanges d).flatMap (fun r => (List.range (12 * r.2)).flatMap (fun k => ss.map (fun s => (12 * r.1 + k, s))))

def State.gatherBad (s : State) (o : Op) (d : List Byte) : Option Code :=
  let mo := bit (fieldLe d 29 1) 0
  let nr := fieldLe d 30 1
  let src := descAddr d 0 o.a2
  let dst := descAddr d 8 o.a3
  let mdst := descAddr d 16 o.a3
  let vs := gatherVisits d
  let last := (gatherRanges d).foldl (fun m r => max m (12 * (r.1 + r.2))) 0
  let top := Nat.log2 (fieldLe d 24 4)
  let isG := fun (a n : Nat) => s.extent a n == some 0
  firstBad
    [(decide (fieldLe d 29 1 > 1) || !zeroAt d 31 1 || descRsvd o d 0 || descRsvd o d 8
        || (if mo then descRsvd o d 16 else decide (fieldLe d 16 8 ≠ 0)) || (decide (nr ≤ 8) && !zeroAt d (32 + 4 * nr) (32 - 4 * nr)), .rsvd),
     (decide (fieldLe d 24 4 = 0 ∨ fieldLe d 28 1 > 15 ∨ nr = 0 ∨ nr > 8) || !rangesOk 0 (gatherRanges d), .value),
     (decide (src % 128 ≠ 0 ∨ dst % 64 ≠ 0) || (mo && decide (mdst % 64 ≠ 0)), .align),
     (!isG src (128 * (last - 1) + 4 * top + 4) || !isG dst (2 * vs.length) || (mo && !isG mdst (ceilDiv vs.length 8)), .range)]

/-- Base and buffer of the enabled S0 area that holds a galley address: start of the buffer (R278). -/
def State.s0Buf (s : State) (a : Nat) : Option Nat :=
  (List.range 8).findSome? (fun i =>
    let m := s.reg .gal 0 (0x40 + 4 * (i / 2))
    let b := bits m 6 0 * 0x100000 + (i % 2) * 0x600000
    if bit m 31 && decide (b ≤ a ∧ a < b + 0x599400) then some b else none)

/-- Address of the erasure word of the resource element whose streams stand at galley address `a` (R278). Outside an
enabled S0 area there is no erasure state. DEDUCED: log 33. -/
def State.erasureAt (s : State) (a : Nat) : Option Nat := (s.s0Buf a).map (fun b => b + 0x59A000 + 4 * ((a - b) / 128))

/-- Whether stream `st` of the resource element at `a` is erased (R190). -/
def State.isErased (s : State) (a st : Nat) : Bool :=
  match s.erasureAt a with | none => false | some e => bit (leNat (s.engRead e 4)) st

/-- A value shifted, rounded to even and clamped (R190, R193): result, and whether it was clamped. -/
def shiftClamp (shift : Nat) (lim : Int) (x : Int) : Int × Bool :=
  let r := divRNE x (2 ^ shift)
  (clampI (-lim) lim r, decide (r < -lim ∨ r > lim))

/-- Bits packed from the low bit up, eight to a byte. -/
def packBools (n : Nat) (bs : List Bool) : List Byte :=
  (List.range n).map (fun i => BitVec.ofNat 8 ((List.range 8).foldl (fun a j => a + (if nth false bs (8 * i + j) then 2 ^ j else 0)) 0))

/-- A refusal by a fixed engine (R198): LASTERR takes the code and the issuing compositor. -/
def State.engRefuse (s : State) (e : Nat) (o : Op) (c : Code) : State :=
  (s.setReg .eng e 0x44 (c.num + ((s.stream o.ctx o.stream).page <<< 8))).stopOp o c

/-- A fixed engine stops on a bad byte after it has started; each destination byte is new or old (R198). -/
def State.engFault (s : State) (o : Op) (b : Nat) (outs : List (Nat × List Byte)) : State :=
  let s := s.readFault false b o.ctx (s.invNum o.ctx)
  (outs.foldl (fun s p => s.writePart p.1 p.2) s).stopOp o .parity

/-- A fixed engine's operation retires (R201): OPCNT and ITEMCNT. -/
def State.engDone (s : State) (e : Nat) (o : Op) (items : Nat) : State := ((s.bump64 .eng e 0x48 1).bump64 .eng e 0x50 items).retire o

/-- The bytes of the visits, the clamped count and the erased flags. -/
def State.gatherOut (s : State) (o : Op) (d : List Byte) : List (List Byte × Nat × Bool) :=
  let src := descAddr d 0 o.a2
  (gatherVisits d).map (fun v =>
    let a := src + 128 * v.1
    if s.isErased a v.2 then ([0#8, 0#8], 0, true)
    else
      let x := s.engRead (a + 4 * v.2) 4
      let i := shiftClamp (fieldLe d 28 1) 127 (sext 16 (fieldLe x 0 2))
      let q := shiftClamp (fieldLe d 28 1) 127 (sext 16 (fieldLe x 2 2))
      ([BitVec.ofInt 8 i.1, BitVec.ofInt 8 q.1], b2n i.2 + b2n q.2, false))

/-- Where a GATHER writes, and what: the visits' bytes, and the mask of the erased ones (R190, R191). -/
def State.gatherWrites (s : State) (o : Op) (d : List Byte) : List (Nat × List Byte) :=
  let out := s.gatherOut o d
  (descAddr d 8 o.a3, out.flatMap (fun x => x.1))
    :: (if bit (fieldLe d 29 1) 0 then
          [(descAddr d 16 o.a3, packBools (ceilDiv (gatherVisits d).length 8) (out.map (fun x => x.2.2)))] else [])

/-- First bad byte of a GATHER's inputs and erasure words. -/
def State.gatherBadIn (s : State) (o : Op) (d : List Byte) : Option Nat :=
  let src := descAddr d 0 o.a2
  (gatherVisits d).findSome? (fun v => match s.badIn (src + 128 * v.1 + 4 * v.2) 4 with
    | some b => some b
    | none => match s.erasureAt (src + 128 * v.1) with | none => none | some e => s.badIn e 4)

def State.runGather (s : State) (o : Op) (d : List Byte) : State :=
  let out := s.gatherOut o d
  let outs := s.gatherWrites o d
  match s.gatherBadIn o d with
  | some b => s.engFault o b outs
  | none =>
    let s := outs.foldl (fun s p => s.engWrite p.1 p.2) s
    let s := (s.bump .eng 0 0x58 (out.foldl (fun t x => t + x.2.1) 0)).bump .eng 0 0x5C (out.filter (fun x => x.2.2)).length
    s.engDone 0 o (gatherVisits d).length

/-! ### PACK (R192, R193, R318, R319) -/

/-- The S3 buffer of an invocation's slot: base and size in bytes (R279). -/
def State.s3Buf (s : State) (carrier num : Nat) : Nat × Nat :=
  let m := s.reg .gal 0 (0x50 + 4 * carrier)
  let z := bits m 11 8 * 0x100000
  (bits m 6 0 * 0x100000 + (num % 2) * z, z)

/-- The PACK's destination extent lies whole in the invocation's own S3 buffer (R318). -/
def State.packDelivers (s : State) (o : Op) (dst n : Nat) : Option Inv :=
  match (s.ctx o.ctx).inv with
  | none => none
  | some v =>
    if !v.slot then none
    else let b := s.s3Buf v.carrier v.slotNum; if b.1 ≤ dst ∧ dst + n ≤ b.1 + b.2 then some v else none

/-- Bytes that a PACK's bits touch. -/
def packLen (d : List Byte) : Nat := ceilDiv (fieldLe d 20 2 + fieldLe d 23 1 * fieldLe d 16 4) 8

def State.packBad (s : State) (o : Op) (d : List Byte) : Option Code :=
  let src := descAddr d 0 o.a2
  let dst := descAddr d 8 o.a3
  let cnt := fieldLe d 16 4
  let db := fieldLe d 20 2
  let fmt := fieldLe d 22 1
  let wd := fieldLe d 23 1
  firstBad
    [(decide (fieldLe d 25 1 > 1) || !zeroAt d 26 38 || descRsvd o d 0 || descRsvd o d 8, .rsvd),
     (decide (cnt = 0 ∨ cnt > 1048576 ∨ db > 511 ∨ fmt > 1 ∨ (wd ≠ 5 ∧ wd ≠ 8) ∨ fieldLe d 24 1 > 15 ∨ (wd = 8 ∧ db % 8 ≠ 0)), .value),
     ((match s.packDelivers o dst (packLen d) with | none => false | some v => fieldLe v.entry.bytes 36 1 != wd), .value),
     (decide (src % 64 ≠ 0 ∨ dst % 64 ≠ 0), .align),
     (!s.bar2Extent src (cnt * (fmt + 1)) || s.extent dst (packLen d) != some 0, .range)]

/-- The LLRs of a PACK: bit patterns, and the clamped count. -/
def packVals (d : List Byte) (bs : List Byte) : List (Nat × Bool) :=
  let wd := fieldLe d 23 1
  let xs := if fieldLe d 22 1 = 0 then i8s bs else i16s bs
  xs.map (fun x =>
    let r := shiftClamp (fieldLe d 24 1) (if wd = 5 then 15 else 127) (if bit (fieldLe d 25 1) 0 then -x else x)
    (toBits wd r.1, r.2))

/-- The egress DMA has these 64-byte blocks of the S3 buffer to write (R319). -/
def State.addEgress (s : State) (v : Inv) (first n : Nat) : State :=
  let x := FMap.get {} s.carriers v.carrier
  s.withCarriers (FMap.put {} s.carriers v.carrier
             { x with slots := x.slots.map (fun l => if l.num = v.slotNum ∧ !l.done then { l with egress := l.egress ++ [(first, n)] } else l) })

/-- The bytes that a PACK leaves at its destination: its values' bits, and what stood outside them (R193). -/
def State.packBytes (s : State) (o : Op) (d : List Byte) : List Byte :=
  let cnt := fieldLe d 16 4
  let wd := fieldLe d 23 1
  let db := fieldLe d 20 2
  let n := packLen d
  let vals := packVals d (s.engRead (descAddr d 0 o.a2) (cnt * (fieldLe d 22 1 + 1)))
  let old := leNat (s.engRead (descAddr d 8 o.a3) n)
  let keep := old % 2 ^ db + (old >>> (db + wd * cnt)) <<< (db + wd * cnt)
  leBytes n (keep + (packBits wd (vals.map (fun v => v.1))) <<< db)

def State.runPack (s : State) (o : Op) (d : List Byte) : State :=
  let src := descAddr d 0 o.a2
  let dst := descAddr d 8 o.a3
  let cnt := fieldLe d 16 4
  let wd := fieldLe d 23 1
  let db := fieldLe d 20 2
  let n := packLen d
  let new := s.packBytes o d
  let clamped := (packVals d (s.engRead src (cnt * (fieldLe d 22 1 + 1)))).filter (fun v => v.2)
  match s.badIn src (cnt * (fieldLe d 22 1 + 1)) with
  | some b => s.engFault o b [(dst, new)]
  | none =>
    let del := s.packDelivers o dst n
    let s := (s.engWrite dst new).bump .eng 1 0x58 clamped.length
    let s := match del with
      | none => s
      | some v =>
        let off := dst - (s.s3Buf v.carrier v.slotNum).1
        let f := (8 * off + db) / 512
        s.addEgress v f ((8 * off + db + wd * cnt - 1) / 512 - f + 1)
    s.engDone 1 o cnt

/-! ### RANK (R194, R195) -/

def rankBytes (d : List Byte) : Nat := if fieldLe d 30 1 = 0 then 2 else 4

def State.rankBad (s : State) (o : Op) (d : List Byte) : Option Code :=
  let src := descAddr d 0 o.a2
  let dst := descAddr d 8 o.a3
  let mk := descAddr d 16 o.a2
  let fl := fieldLe d 31 1
  let um := bit fl 1
  let n := fieldLe d 24 4
  let k := fieldLe d 28 2
  firstBad
    [(decide (fl > 3) || !zeroAt d 32 32 || descRsvd o d 0 || descRsvd o d 8
        || (if um then descRsvd o d 16 else decide (fieldLe d 16 8 ≠ 0)), .rsvd),
     (decide (n = 0 ∨ n > 65536 ∨ k = 0 ∨ k > 256 ∨ fieldLe d 30 1 > 2), .value),
     (decide (src % 64 ≠ 0 ∨ dst % 64 ≠ 0), .align),
     (!s.bar2Extent src (n * rankBytes d) || !s.bar2Extent dst (8 * k) || (um && !s.bar2Extent mk (ceilDiv n 8)), .range)]

/-- The best `k` of a list, in rank order: a list kept sorted and no longer than `k`. -/
def rankIns (min : Bool) (x : FVal × Nat) : List (FVal × Nat) → List (FVal × Nat)
  | [] => [x]
  | y :: r => if beats min x y then x :: y :: r else y :: rankIns min x r

def rankBest (min : Bool) (k : Nat) (xs : List (FVal × Nat)) : List (FVal × Nat) :=
  xs.foldl (fun l x => (rankIns min x l).take k) []

/-- The K records that a RANK writes (R194, R195). -/
def State.rankRecords (s : State) (o : Op) (d : List Byte) : List Byte :=
  let fmt := fieldLe d 30 1
  let um := bit (fieldLe d 31 1) 1
  let n := fieldLe d 24 4
  let k := fieldLe d 28 2
  let b := rankBytes d
  let bs := s.engRead (descAddr d 0 o.a2) (n * b)
  let ms := if um then s.engRead (descAddr d 16 o.a2) (ceilDiv n 8) else []
  let el := (List.range n).filter (fun i => !um || bit ((nth 0#8 ms (i / 8)).toNat) (i % 8))
  let best := rankBest (bit (fieldLe d 31 1) 0) k
    (el.map (fun i => (if fmt = 2 then decode32 (fieldLe bs (4 * i) 4) else ofInt (sext (8 * b) (fieldLe bs (b * i) b)), i)))
  let recs := best.map (fun x =>
    (if fmt = 0 then toBits 32 (sext 16 (fieldLe bs (2 * x.2) 2)) else fieldLe bs (4 * x.2) 4, x.2))
  (List.range k).flatMap (fun j => let r := nth (0, 0xFFFFFFFF) recs j; leBytes 4 r.1 ++ leBytes 4 r.2)

/-- First bad byte of a RANK's elements and mask. -/
def State.rankBadIn (s : State) (o : Op) (d : List Byte) : Option Nat :=
  let n := fieldLe d 24 4
  match s.badIn (descAddr d 0 o.a2) (n * rankBytes d) with
  | some x => some x
  | none => if bit (fieldLe d 31 1) 1 then s.badIn (descAddr d 16 o.a2) (ceilDiv n 8) else none

def State.runRank (s : State) (o : Op) (d : List Byte) : State :=
  match s.rankBadIn o d with
  | some x => s.engFault o x [(descAddr d 8 o.a3, s.rankRecords o d)]
  | none => (s.engWrite (descAddr d 8 o.a3) (s.rankRecords o d)).engDone 2 o (fieldLe d 24 4)

/-- The checks of a fixed engine's descriptor, and the extents that its operation reaches. -/
def State.engineBad (s : State) (e : Nat) (o : Op) (d : List Byte) : Option Code :=
  if e = 0 then s.gatherBad o d else if e = 1 then s.packBad o d else s.rankBad o d
def engineExt (e : Nat) (o : Op) (d : List Byte) : List (Nat × Nat) :=
  let src := descAddr d 0 o.a2
  let dst := descAddr d 8 o.a3
  if e = 0 then
    [(src, 128 * (((gatherRanges d).foldl (fun m r => max m (12 * (r.1 + r.2))) 1) - 1) + 128), (dst, 2 * (gatherVisits d).length)]
      ++ (if bit (fieldLe d 29 1) 0 then [(descAddr d 16 o.a3, ceilDiv (gatherVisits d).length 8)] else [])
  else if e = 1 then [(src, fieldLe d 16 4 * (fieldLe d 22 1 + 1)), (dst, packLen d)]
  else [(src, fieldLe d 24 4 * rankBytes d), (dst, 8 * fieldLe d 28 2)]
    ++ (if bit (fieldLe d 31 1) 1 then [(descAddr d 16 o.a2, ceilDiv (fieldLe d 24 4) 8)] else [])

/-- ENGINE_OP_RETIRE (R198, R203): the engine's earliest operation checks its descriptor, acts and retires; galley
cycles lost to conflicts count in its STALL. -/
def execEngineOpRetire (e stall : Nat) (s : State) : Host.Outcome State Fault Refusal :=
  .next (match s.ops.find? (fun o => o.engine == some e && decide (o.stage ≥ 1)) with
  | none => s
  | some o =>
    let s := (s.bump .eng e 0x60 stall).bump .gal 0 0x70 stall
    let d := s.engRead o.a1 64
    match s.engineBad e o d with
    | some c => s.engRefuse e o c
    | none =>
    match s.badIn o.a1 64 with
    | some b => (s.readFault false b o.ctx (s.invNum o.ctx)).engRefuse e o .parity
    | none =>
    match s.blockedAny (engineExt e o d) with
    | some c => s.engRefuse e o c
    | none => if e = 0 then s.runGather o d else if e = 1 then s.runPack o d else s.runRank o d)

end Sys2Proof.Machine
end

