-- ==== Sys2Proof/Machine/Boundary.lean ====
section
/-!
DEFINITION. Sys2Proof/Machine/Boundary.lean: what takes effect between two invocations of a context (R110, R353, R412,
R351, R364), and the life of an invocation (R216 to R225, R402, R417).
-/
namespace Sys2Proof.Machine

/-! ### Records and releases -/

/-- Clusters in which a context holds arrays. -/
def State.ctxClus (s : State) (c : Nat) : List Nat := (List.range 64).filter (fun k => (s.ctxArrays c).any (fun a => a / 128 == k))

/-- The context's records are written, with no command waiting for them (R358). -/
def State.record (s : State) (c : Nat) (clus : List Nat) : State := s.colQueue { steps := s.ctxSteps c clus false }

/-- Arrays leave the context without erasure: a lent array to SPARE, another to FREE (R349, R364). -/
def State.releaseArrays (s : State) (ks : List Nat) (erase : Bool) : State :=
  ks.foldl (fun s k => s.modArr k (fun r => freed r.lent erase r)) s

/-- Programming targets return to the state they came from, without erasure (R348, R353). -/
def State.returnTargets (s : State) (ks : List Nat) : State :=
  ks.foldl (fun s k => s.modArr k (fun r => freed r.wasSpare false r)) s

/-! ### Generations (R327, R353) -/

def nextGennum (n : Nat) : Nat := if n ≥ 65535 then 1 else n + 1

/-- Profiles of a letter's image reach the output units (R159, R336). -/
def State.loadProfiles (s : State) (c g : Nat) : State :=
  (imgProfiles ((s.ctx c).letter g).image).foldl (fun s p =>
    s.modClu p.1 (fun u => { u with profiles := FMap.put {} u.profiles p.2.1 { owned := true, ctx := c, data := p.2.2 } })) s

/-- A letter's row store data and spilled slices are written to its part of each region (R341, R345). -/
def State.loadRows (s : State) (c g : Nat) : State :=
  let x := s.ctx c
  let img := (x.letter g).image
  let s := (imgRows img).foldl (fun s r =>
    s.memWrite (rowBase r.1 (s.region c r.1).base + s.rowShift c g r.1 + r.2.1) r.2.2) s
  x.spill.foldl (fun s la =>
    let p := imgPlace img la
    let l := plLayer p
    let sl := imgSlice img la
    let a := s.spillAddr c g la
    (List.range (l.groups * l.rows)).foldl (fun s i => s.memWrite (a + i * rowPitch l.outs) (sliceB sl (i * l.outs) l.outs)) s) s

/-- A letter becomes ACTIVE (R353): the former one RESIDENT, or EMPTY after INPLACE. Arrays that leave service discard
armed formes, and their refreshes are abandoned; those that enter start a calibration run. -/
def State.switchTo (s : State) (c g : Nat) (inplace : Bool) : State :=
  let x := s.ctx c
  let old := x.active
  let s : State := match old with
    | none => s
    | some o =>
      if inplace then s
      else
        let s := (s.inService c).foldl (fun s k => s.modArr k superseded) s
        let gone := s.arrKeys (fun _ r => r.owned && r.ctx == c && r.gen == o && r.forArr.isSome && decide (r.st ≠ 4)
          && (match r.forArr with | some d => (s.arr d).st == 3 | none => false))
        let s := gone.foldl (fun s k => match (s.arr k).forArr with | some d => s.modArr d (fun r => { r with refreshing := false }) | none => s) s
        s.returnTargets gone
  let s := s.modCtx c (fun x =>
    let x := match old with
      | some o => if o = g then x else x.setLetter o (if inplace then {} else { x.letter o with st := 2 })
      | none => x
    let x := x.setLetter g { x.letter g with st := 3 }
    { x with active := some g, gennum := nextGennum x.gennum, switchDue := none })
  ((s.loadProfiles c g).modCtx c (fun x => { x with digLeft := [], digBad := [] })).calTrigger c 3 (2 ^ 64 - 1)

/-! ### What a boundary does -/

/-- Fences that waited for the boundary take effect; UNIT_FENCE commands that waited for them complete (R412, R414). -/
def State.dueFences (s : State) (c : Nat) : State :=
  (s.ctxArrays c).foldl (fun s k =>
    let u := uArr (k / 128) (k % 128)
    match (s.unit u).due with
    | none => s
    | some why =>
      (s.fenceArray k why).fenceAnswer u .ok) s

/-- Replacement targets and returned arrays enter service (R132, R344, R415). -/
def State.replacements (s : State) (c : Nat) : State :=
  let ks := (s.ctxArrays c).filter (fun k => (s.arr k).serveAt)
  if ks.isEmpty then s
  else
    let s := ks.foldl (fun s k =>
      let r := s.arr k
      let u := uArr (k / 128) (k % 128)
      let s := s.modArr k (fun r => { r with st := 3, serveAt := false, forArr := none, begun := false })
      let s := if (s.unit u).state = 2 then (s.modUnit u (fun x => { x with state := 0, reason := 0 })).unfenceAnswer u .ok else s
      match r.forArr with
      | none => s
      | some d =>
        let o := s.arr d
        if !o.owned || o.ctx != c || o.logical != r.logical || o.gen != r.gen then s
        else if o.st = 4 then s.modArr d (fun q => { freed false false q with st := 4 })
        else
          ((s.modArr d (freed r.wasSpare true)).bump .cal (d / 128) 0xCC 1).modCtx c (fun x => { x with gennum := nextGennum x.gennum })) s
    (s.record c (s.ctxClus c)).calTrigger c 3 (2 ^ 64 - 1)

/-- Streams move to the compositors chosen for them (R227). -/
def State.applyMoves (s : State) (c : Nat) : State :=
  s.modCtx c (fun x => if x.moves.isEmpty then x else
    { x with cmps := x.moves.foldl (fun l m => setNth l m.1 m.2) x.cmps, moves := [] })

/-- Commands that waited for a switch: SHADOW completes with it, CTX_SWITCH with its record (R350, R352, R358). -/
def State.switchAnswers (s : State) (c : Nat) : State :=
  let js := s.jobs.filter (fun j => (j.kind == 4 || j.kind == 5) && j.ctx == c)
  if js.isEmpty then s.record c (s.ctxClus c)
  else
    let s := (s.withJobs (s.jobs.filter (fun j => !((j.kind == 4 || j.kind == 5) && j.ctx == c)))).cfgAdvance
    js.foldl (fun s j =>
      if j.kind = 4 then
        ((s.modCtx c (fun x => { x with cmd := none })).record c (s.ctxClus c)).ctxDone j.e (s.okCode c) (s.ctx c).gennum 0
      else s.colQueue { steps := s.ctxSteps c (s.ctxClus c) false, k := 8, job := some j.e, ctx := c, args := [(s.ctx c).invoc + 1] }) s

/-- INPLACE reprograms the ACTIVE letter's arrays once no invocation is in flight (R351 step 3). -/
def State.inplaceBegin (s : State) (c g : Nat) : State :=
  let x := s.ctx c
  match x.active with
  | none => s
  | some o =>
    if o = g || s.arrays.any (fun p => p.2.owned && p.2.ctx == c && p.2.gen == g) then s
    else
      let img := (x.letter g).image
      let ks := s.arrKeys (fun _ r => r.owned && r.ctx == c && r.gen == o && r.forArr.isNone)
      let s := (s.arrKeys (fun _ r => r.owned && r.ctx == c && r.gen == o && r.forArr.isSome)).foldl (fun s k => s.returnTargets [k]) s
      let s := ks.foldl (fun s k =>
        let r := s.arr k
        let s := (s.assign k c g r.logical r.copy r.lent img (imgSlice img r.logical)).modArr k superseded
        s.modArr k (fun q => if r.st = 4 then { q with st := 4, wasSpare := false } else { q with wasSpare := false, begun := true, due := false, refreshing := false })) s
      let s := s.modCtx c (fun x => x.setLetter g { x.letter g with second := (x.letter o).second })
      s.loadRows c g

/-- Everything that falls due at a boundary of the context, in the order of R353 and R412. -/
def State.boundary (s : State) (c : Nat) : State :=
  if (s.ctx c).inv.isSome || !(s.ctx c).ex then s
  else
    let s := s.dueFences c
    let s := match (s.ctx c).switchDue with | none => s | some g => (s.switchTo c g false).switchAnswers c
    let s := (s.replacements c).formeSwap c
    let s := s.applyMoves c
    let s := match (s.ctx c).programming with | some g => if (s.ctx c).gap then s.inplaceBegin c g else s | none => s
    if (s.ctx c).saved then s else (s.modCtx c (fun x => { x with saved := true })).record c (s.ctxClus c)

/-! ### CTX_DESTROY goes on once nothing runs (R364) -/

/-- Global semaphores a context claims, with their initial values (R209, R335). -/
def claimSems (cl : List (List Nat)) : List (Nat × Nat) := (cl.filter (fun r => nth 0 r 0 == 3)).map (fun r => (nth 0 r 2, nth 0 r 4))

/-- The context's resources go: tiles, profiles, semaphores, chain sets, random streams, and the context itself. -/
def State.freeCtx (s : State) (c : Nat) : State :=
  let x := s.ctx c
  let s := { s with tiles := s.tiles.filter (fun p => !(p.2.owned && p.2.ctx == c)) }
  let s := (List.range 64).foldl (fun s k => s.modClu k (fun u =>
    { u with profiles := u.profiles.filter (fun p => !(p.2.owned && p.2.ctx == c)), chains := u.chains.filter (fun p => p.2.ctx != c)
             rngA := FMap.put 0 u.rngA c 0, rngO := FMap.put 0 u.rngO c 0, rngAEnd := FMap.put 0 u.rngAEnd c 0, rngOEnd := FMap.put 0 u.rngOEnd c 0 })) s
  ((claimSems x.claims).foldl (fun s p => s.setGs p.1 0) s).setCtx c {}

/-- Steps 2 to 5 of R364 after the wear write: arrays erased and returned, everything freed, the record removed. -/
def State.destroyNow (s : State) (c : Nat) (e : Entry) : State :=
  let ks := s.ctxArrays c
  let n := (ks.filter (fun k => (s.arr k).st != 4)).length
  let clus := s.ctxClus c
  let s := ((s.releaseArrays ks true).freeCtx c).cfgAdvance
  s.colQueue { steps := s.ctxSteps c clus true, k := 10, job := some e, ctx := c, args := [n] }

/-- CTX_DESTROY proceeds: no invocation in flight and none waiting; the wear write first (R364 steps 1 and 2). -/
def State.destroyStep (s : State) (c : Nat) : State :=
  let x := s.ctx c
  match s.jobs.find? (fun j => j.kind == 3 && j.ctx == c) with
  | none => s
  | some j =>
    if x.inv.isSome || !x.trigs.isEmpty then s
    else
      let ks := (s.ctxArrays c).filter (fun k => (s.arr k).st != 4)
      let s := s.withJobs (s.jobs.filter (fun y => y != j))
      if ks.isEmpty then s.destroyNow c j.e else s.colQueue { steps := wearSteps ks, k := 9, job := some j.e, ctx := c }

/-! ### The start of an invocation (R216 to R220, R417, R151) -/

/-- A slot of a carrier by its number, not yet completed. -/
def State.slotOf (s : State) (car num : Nat) : Option Slot := ((FMap.get {} s.carriers car : Carrier).slots).find? (fun l => l.num == num && !l.done)
def State.modSlot (s : State) (car num : Nat) (f : Slot → Slot) : State :=
  let x : Carrier := FMap.get {} s.carriers car
  s.withCarriers (FMap.put {} s.carriers car { x with slots := x.slots.map (fun l => if l.num = num ∧ !l.done then f l else l) })

/-- S0 buffer of a slot (R278). -/
def State.s0Base (s : State) (car num : Nat) : Nat := bits (s.reg .gal 0 (0x40 + 4 * car)) 6 0 * 0x100000 + (num % 2) * 0x600000

/-- Slots of a carrier that use the same buffers as slot `num` and were described before it, their completion not yet
written (R281). -/
def Carrier.before (x : Carrier) (num : Nat) : List Slot :=
  (x.slots.takeWhile (fun l => l.num != num || l.done)).filter (fun l => l.num % 2 == num % 2 && !l.done)

/-- The trigger may start: a slot has its S0 buffer, and the slot that had its S3 buffer before it has released it (R281). -/
def State.trigReady (s : State) (t : Trig) : Bool :=
  !t.slot || ((match s.slotOf t.carrier t.slotNum with | some l => l.buf | none => false)
    && ((FMap.get {} s.carriers t.carrier : Carrier).before t.slotNum).isEmpty)

/-- Registers of every stream at the start (R220). -/
def State.startStream (s : State) (c : Nat) (t : Trig) (num i : Nat) : StreamSt :=
  let e := t.entry
  let k := nth 0 (s.ctx c).cmps i
  let pairs := if t.slot then
      ([(0, s.s0Base t.carrier t.slotNum), (1, (s.s3Buf t.carrier t.slotNum).1), (2, e.p 16 8)],
       [(0, e.p 26 1), (1, e.p 27 1), (2, t.carrier + 4 * (t.slotNum % 2)), (3, t.slotNum)])
    else ([(0, e.p 8 8), (1, e.p 20 8)], [(0, e.p 16 4), (3, num % 2 ^ 32)])
  { cmp := k, carried := s.carried k
    a := pairs.1.foldl (fun m p => FMap.put 0 m p.1 p.2) [], c := pairs.2.foldl (fun m p => FMap.put 0 m p.1 p.2) [] }

/-- A log with one more entry; the oldest goes from a full one (R417). -/
def Ctx.logAdd (x : Ctx) (e : LogEntry) : Ctx :=
  if x.frozen then x
  else if x.log.length ≥ 64 then { x with log := x.log.drop 1 ++ [e], lost := true } else { x with log := x.log ++ [e] }

/-- A new round length takes effect at the first invocation of a round counted under the old one (R422). -/
def Ctx.periodNow (x : Ctx) (num : Nat) : Ctx :=
  match x.newPeriod with
  | some p => if (num - x.base) % x.period = 0 then { x with base := num, period := p, newPeriod := none } else x
  | none => x

/-- A trigger's refusal: a RUN completes; a slot ends with the code (R219). -/
def State.trigFail (s : State) (t : Trig) (c : Code) : State :=
  if t.slot then s.modSlot t.carrier t.slotNum (fun l => { l with ended := true, stop := c.num }) else s.ctxDone t.entry c 0 0

/-- Test tiles of a cluster test: the two highest-numbered tiles that no context owns, or 510 and 511 (R404). -/
def State.testTiles (s : State) (k : Nat) : List Nat :=
  let l := ((List.range 512).reverse.filter (fun t => !(s.tile (tkey k t)).owned)).take 2
  if l.length = 2 then l else [511, 510]

/-- A cluster test that waits for the context's invocation boundary holds its next start (R405). -/
def State.testHolds (s : State) (c : Nat) : Bool :=
  (List.range 64).any (fun k => (s.clu k).testDue && (s.testTiles k).any (fun t => let x := s.tile (tkey k t); x.owned && x.ctx == c))

def State.startInv (s : State) (c : Nat) (t : Trig) : State :=
  let x := s.ctx c
  let num := (x.invoc + 1) % 2 ^ 48
  let v : Inv := { slot := t.slot, entry := t.entry, carrier := t.carrier, slotNum := t.slotNum, num := num, gen := x.active.getD 0
                   gennum := x.gennum, streams := (List.range x.prog.length).map (s.startStream c t num) }
  let le : LogEntry := { invoc := num, all := s.invAll + 1, gennum := x.gennum, trig := if t.slot then t.slotNum else t.entry.tag, slot := t.slot
                         carrier := t.carrier }
  let s := s.modCtx c (fun x => ({ (x.periodNow num) with invoc := num, inv := some v, trigs := x.trigs.drop 1 }).logAdd le)
  let s := (List.range 64).foldl (fun s k => s.modClu k (fun u =>
    { u with rngA := FMap.put 0 u.rngA c (seedA x.seed num k), rngO := FMap.put 0 u.rngO c (seedO x.seed num k) })) s
  let s := if t.slot then s.modSlot t.carrier t.slotNum (fun l => { l with started := true, gennum := x.gennum }) else s
  s.withInvAll (s.invAll + 1)

/-- INVOCATION_START (R217 to R220): the context's oldest trigger starts once what falls due at the boundary has taken
effect and nothing holds it. -/
def execInvocationStart (c : Nat) (s : State) : Host.Outcome State Fault Refusal :=
  .next (
    let s := s.boundary c
    let x := s.ctx c
    match x.inv, x.trigs with
    | none, t :: _ =>
      if !x.ex || (x.state != 1 && x.state != 3) || x.gap || x.restoreHold || s.testHolds c || !s.trigReady t then s
      else if x.cmps.any s.cmpOut then ((s.modCtx c (fun x => { x with trigs := x.trigs.drop 1 })).trigFail t .fenced).destroyStep c
      else s.startInv c t
    | _, _ => s)

/-! ### The end of an invocation (R221, R224, R402, R403) -/

/-- The units of a context's ACTIVE and RESIDENT letters that tests visit: an array, or a spilled logical array (R402). -/
def State.testUnits (s : State) (c : Nat) : List (Nat × Option Nat) :=
  let x := s.ctx c
  let of := fun (g : Nat) =>
    let img := (x.letter g).image
    (List.range (imgNla img)).flatMap (fun la =>
      if x.spill.contains la then [(g, none)]
      else let k := plCluster (imgPlace img la); (s.copies c g la k).map (fun a => (g, some (akey k a))))
  match x.active with
  | none => []
  | some g => of g ++ (if (x.letter (1 - g)).st = 2 then of (1 - g) else [])

/-- Array tests that fall due after invocation `num` (R402): each is due, skipped and counted, or not in this slot. -/
def State.scheduleTests (s : State) (c num : Nat) : State :=
  if !bit (s.reg .tst 0 0x40) 0 then s
  else
    let x := s.ctx c
    let us := s.testUnits c
    let n := us.length
    let slot := (num - x.base) % x.period
    let s := (List.zip (List.range n) us).foldl (fun s p =>
      if p.1 * x.period / n ≠ slot then s
      else
        let act := x.active == some p.2.1
        let skip := fun (bad : Bool) => (s.bump .tst 0 0x64 1).modCtx c (fun x => { x with roundBad := x.roundBad || bad })
        match p.2.2 with
        | none => skip false
        | some k =>
          if !act then skip false
          else if (s.arr k).st ≠ 3 || (x.letter p.2.1).backing.isNone then skip true
          else s.modArr k (fun r => { r with testDue := true, testI := num })) s
    (s.inService c).foldl (fun s k => if (s.arr k).retest then s.modArr k (fun r => { r with testDue := true, testI := num }) else s) s

/-- A round that has ended with no test of it outstanding: a clean one removes the entries older than it (R403, R417). -/
def State.roundCheck (s : State) (c : Nat) : State :=
  match (s.ctx c).roundEnd with
  | none => s
  | some f =>
    if (s.ctxArrays c).any (fun k => (s.arr k).testDue) then s
    else s.modCtx c (fun x => { x with roundEnd := none, roundBad := false
                                       log := if x.roundBad || x.frozen then x.log else x.log.filter (fun e => decide (e.invoc ≥ f)) })

/-- The invocation is over with a code: chains go, a stopped one's global semaphores return to their initial values, the
completion is written, tests and rounds are counted, and the boundary follows. -/
def State.finishInv (s : State) (c : Nat) (v : Inv) (code : Code) : State :=
  let x := s.ctx c
  let s := (List.range 64).foldl (fun s k => s.modClu k (fun u =>
    { u with chains := u.chains.filter (fun p => p.2.ctx != c)
             rngAEnd := FMap.put 0 u.rngAEnd c (FMap.get 0 u.rngA c), rngOEnd := FMap.put 0 u.rngOEnd c (FMap.get 0 u.rngO c) })) s
  let s := if code = .ok then s else (claimSems x.claims).foldl (fun s p => s.setGs p.1 p.2) s
  let pages := (List.range 17).filter (fun k => v.streams.any (fun st => st.page == k))
  let s := pages.foldl (fun s k => s.bump64 .cmp k 0x58 1) s
  let v := { v with degraded := s.degraded c, borrowed := s.borrowed c }
  let code' := if code = .ok then s.okCode c else code
  let s := s.modCtx c (fun x => { x with inv := none, digDone := x.digDone + 1
                                         cal := if x.cal.run = 3 then { x.cal with invocs := min 65535 (x.cal.invocs + 1) } else x.cal })
  let s := if v.slot then s.modSlot v.carrier v.slotNum (fun l => { l with ended := true, stop := code'.num, flags := v.flags, gennum := v.gennum })
    else s.complete v.entry code' v.num x.log.length v.flags v.gennum
  let s := s.scheduleTests c v.num
  let y : Ctx := s.ctx c
  let s : State := if (v.num + 1 - y.base) % y.period = 0 then s.modCtx c (fun x => { x with roundEnd := some (v.num + 1 - y.period) }) else s
  (((s.roundCheck c).boundary c).destroyStep c).settleTests.cmpFenceDue

/-- An open chain of the context (R143): its compositor. -/
def State.openChainOf (s : State) (c : Nat) : Option Nat :=
  (List.range 64).findSome? (fun k => ((s.clu k).chains.find? (fun p => p.2.bound && p.2.ctx == c && p.2.fin.isNone)).map (fun p => p.1 / 4))

/-- INVOCATION_END (R221): every stream has ended and every operation retired. An open chain makes it a stop (R143). -/
def execInvocationEnd (c : Nat) (s : State) : Host.Outcome State Fault Refusal :=
  .next (match (s.ctx c).inv with
  | none => s
  | some v =>
    if v.stop.isSome || !v.streams.all (fun st => st.ended) || s.ops.any (fun o => o.ctx == c) then s
    else match s.openChainOf c with
      | none => s.finishInv c v .ok
      | some k =>
        let i := (findIdx (fun st => st.cmp == k) v.streams 0).getD 0
        (s.stopAt c i .state).finishInv c v .state)

/-- INVOCATION_STOP (R224): once every issued operation of a stopped invocation has retired, it ends with the code of its
first stop. Operations still waiting at an entry were never issued. -/
def execInvocationStop (c : Nat) (s : State) : Host.Outcome State Fault Refusal :=
  .next (match (s.ctx c).inv with
  | none => s
  | some v =>
    match v.stop with
    | none => s
    | some (code, _, _) =>
      if s.ops.any (fun o => o.ctx == c && decide (o.stage ≥ 1)) then s
      else (s.withOps (s.ops.filter (fun o => o.ctx != c))).finishInv c v code)

/-- ABORT (R225, R229, R230). -/
def execAbort (k : Nat) (value : Word) (s : State) : Host.Outcome State Fault Refusal :=
  let w := value.toNat
  let off := rOff .cmp k 0x4C
  .next (if k > 16 then s
  else if bits w 30 5 ≠ 0 then s.rejectOff off .rsvd
  else if !bit w 31 then s
  else
    let c := bits w 4 0
    match (s.ctx c).inv with
    | none => s.rejectOff off .state
    | some v =>
      if v.streams.all (fun st => st.ended) then s
      else
        let i := match findIdx (fun st => st.page == k && !st.ended) v.streams 0 with
          | some i => i
          | none => (findIdx (fun st => !st.ended) v.streams 0).getD 0
        s.stopAt c i .state)

/-- RUN (R61, R217): a trigger for a READY context. -/
def execRun (e : Entry) (s : State) : Host.Outcome State Fault Refusal :=
  .next (s.begin e 0x09 (fun s =>
    match (entryBad e [0, 1] true [(8, 20)] false).or (firstBad
      [(decide (e.p 16 4 = 0 ∨ e.p 16 4 > 4096), .value), (!(s.ctx e.ctx).ex || (s.ctx e.ctx).state != 1, .state)]) with
    | some c => s.ctxDone e c 0 0
    | none => s.modCtx e.ctx (fun x => { x with trigs := x.trigs ++ [{ slot := false, entry := e }] })))

end Sys2Proof.Machine
end

