-- ==== Sys2Proof/Machine/Placement.lean ====
section
/-!
DEFINITION. Sys2Proof/Machine/Placement.lean: where a load puts its streams, row store and arrays (R206, R338 to R345),
and what a load finds short (R343).
-/
namespace Sys2Proof.Machine

/-- Streams of an image placed in image order (R206): a compositor for each, or the instructions of those passed over. -/
def State.fitStreams (s : State) (c : Nat) (lens : List Nat) : List Nat × Nat :=
  let r := lens.foldl (fun (acc : List (Nat × Nat × Nat) × List Nat × Nat) n =>
    match s.pickCmp c n acc.1 with
    | some k => (acc.1 ++ [(k, c, n)], acc.2.1 ++ [k], acc.2.2)
    | none => (acc.1, acc.2.1, acc.2.2 + n)) ([], [], 0)
  (r.2.1, r.2.2)

/-- Units of a claim held by other contexts, by kind (R343): tiles, profiles, global semaphores, galley units. -/
def State.claimShort (s : State) (c kind : Nat) (cl : List (List Nat)) : Nat :=
  (cl.filter (fun r => nth 0 r 0 == kind)).foldl (fun t r =>
    t + ((List.range (nth 0 r 3)).filter (fun i =>
      let n := nth 0 r 2 + i
      let k := nth 0 r 1
      if kind = 1 then (let x := s.tile (tkey k n); x.owned && x.ctx != c)
      else if kind = 2 then (let x : Profile := FMap.get {} (s.clu k).profiles n; x.owned && x.ctx != c)
      else s.ctxList.any (fun d => d != c && claimed (s.ctx d).claims kind 0 n))).length) 0

/-- Row-store units from `b`, `n` of them, that other contexts hold or that pass the first 512 KiB (R179, R345). -/
def State.rowShort (s : State) (c k b n : Nat) : Nat :=
  ((List.range n).filter (fun i => decide (b + i ≥ 128) || s.ctxList.any (fun d =>
    let r : Region := FMap.get {} (s.ctx d).regions k
    d != c && decide (r.base ≤ b + i ∧ b + i < r.base + r.part * r.parts)))).length

/-- The loader's arrays in a cluster for the logical arrays `las` (LA, copies): array, LA, copy, lent, in ascending LA
order from the FREE arrays and then the lent ones; and the arrays that lack (R338 to R340). -/
def State.takeArrays (s : State) (k : Nat) (las : List (Nat × Nat)) (borrow : Bool) : List (Nat × Nat × Nat × Bool) × Nat :=
  let need := las.foldl (fun t p => t + p.2) 0
  let free := (s.eligible k 1).map (fun a => (a, false))
  let lent := if borrow then ((s.eligible k 0).take (need - free.length)).map (fun a => (a, true)) else []
  let slots := las.flatMap (fun p => (List.range p.2).map (fun i => (p.1, i)))
  ((List.zip (free ++ lent) slots).map (fun p => (akey k p.1.1, p.2.1, p.2.2, p.1.2)), need - (free.length + lent.length))

/-- Logical arrays spilled in a cluster to meet a deficit (R341): smallest G·ROWS first, the higher LA on a tie. -/
def spillPick (img : List Byte) (red : Nat) : List Nat → Nat → List Nat
  | [], _ => []
  | la :: r, d => if d = 0 then [] else la :: spillPick img red r (d - needCopies red (plFlags (imgPlace img la)))

def spillOrder (img : List Byte) (las : List Nat) : List Nat :=
  sortKey (fun la => let l := plLayer (imgPlace img la); (l.groups * l.rows) * 4096 + (4095 - la))
    (las.filter (fun la => !bit (plFlags (imgPlace img la)) 1))

/-- Where a letter's copies go: arrays over all clusters, the spilled set, and the arrays that lack. `fixed` is the
spilled set of an earlier load (R342). -/
def State.placeAll (s : State) (img : List Byte) (red : Nat) (borrow spill : Bool) (fixed : Option (List Nat)) :
    List (Nat × Nat × Nat × Bool) × List Nat × Nat :=
  (List.range 64).foldl (fun acc k =>
    let las := (List.range (imgNla img)).filter (fun la => plCluster (imgPlace img la) == k)
    if las.isEmpty then acc
    else
      let withN := fun (l : List Nat) => l.map (fun la => (la, needCopies red (plFlags (imgPlace img la))))
      let out := match fixed with
        | some f => las.filter (fun la => f.contains la)
        | none => if spill then spillPick img red (spillOrder img las) (s.takeArrays k (withN las) borrow).2 else []
      let t := s.takeArrays k (withN (las.filter (fun la => !out.contains la))) borrow
      (acc.1 ++ t.1, acc.2.1 ++ out, acc.2.2 + t.2)) ([], [], 0)

/-- Bytes of spilled rows in a cluster (R341). -/
def spillBytes (img : List Byte) (spill : List Nat) (k : Nat) : Nat :=
  (spill.filter (fun la => plCluster (imgPlace img la) == k)).foldl (fun t la =>
    let l := plLayer (imgPlace img la); t + l.groups * l.rows * rowPitch l.outs) 0

/-- Row store regions of a first load (R345), and the units that lack. -/
def State.firstRegions (s : State) (c : Nat) (img : List Byte) (spill : List Nat) : FMap Region × Nat :=
  (List.range 64).foldl (fun (acc : FMap Region × Nat) k =>
    let cl := rowClaim (imgClaims img) k
    let part := cl.2 + ceilDiv (spillBytes img spill k) 4096
    if part = 0 then acc
    else
      let b := if cl.2 > 0 then cl.1
        else ((List.range 128).find? (fun b => s.rowShort c k b part == 0)).getD 0
      (FMap.put {} acc.1 k { base := b, part := part, parts := 1, claim := cl.2 }, acc.2 + s.rowShort c k b part)) ([], 0)

/-- The spill rate (R188); 0 when nothing is spilled. -/
def spillRate (img : List Byte) (spill : List Nat) : Nat :=
  let cost := fun k => (spill.filter (fun la => plCluster (imgPlace img la) == k)).foldl (fun t la =>
    let l := plLayer (imgPlace img la); t + l.groups * ceilDiv l.rows 4) 0
  let m := ((List.range 64).map cost).foldl max 0
  if m = 0 then 0 else 8000000000 / m

/-- RESULT0 of a shortfall of a resource other than arrays (R343). -/
def shortWord (code n : Nat) : Nat := min n (2 ^ 32 - 1) + code * 2 ^ 32

/-- Checks 13 of R337 for a first load: where everything goes, or RESULT0 and RESULT1 of E_NOSPACE. -/
def State.fitLoad (s : State) (c : Nat) (img : List Byte) (borrow spill : Bool) (red : Nat) :
    (Nat × Nat) ⊕ (List Nat × List (Nat × Nat × Nat × Bool) × List Nat × FMap Region) :=
  let cl := imgClaims img
  let st := s.fitStreams c ((imgStreams img).map (fun x => x.2.1))
  let pa := s.placeAll img red borrow spill none
  let rg := s.firstRegions c img pa.2.1
  if st.2 ≠ 0 then .inl (shortWord 0 st.2, 0)
  else if s.claimShort c 1 cl ≠ 0 then .inl (shortWord 1 (s.claimShort c 1 cl), 0)
  else if s.claimShort c 2 cl ≠ 0 then .inl (shortWord 2 (s.claimShort c 2 cl), 0)
  else if s.claimShort c 3 cl ≠ 0 then .inl (shortWord 3 (s.claimShort c 3 cl), 0)
  else if rg.2 ≠ 0 then .inl (shortWord 4 rg.2, 0)
  else if s.claimShort c 5 cl ≠ 0 then .inl (shortWord 5 (s.claimShort c 5 cl), 0)
  else if pa.2.2 ≠ 0 then .inl (0, pa.2.2)
  else .inr (st.1, pa.1, pa.2.1, rg.1)

/-- The context takes an image's fixed resources: streams, claims, tiles zeroed in its format, profiles without data, and
row store regions (R145, R159, R205, R335). -/
def State.takeClaims (s : State) (c : Nat) (img : List Byte) (cmps spill : List Nat) (rg : FMap Region) : State :=
  let fp := (s.ctx c).fp
  let s := s.modCtx c (fun x => { x with prog := (imgStreams img).map (fun p => p.2.2.1), cmps := cmps, claims := imgClaims img
                                         spill := spill, spillSet := true, regions := rg })
  (imgClaims img).foldl (fun s r =>
    let k := nth 0 r 1
    if nth 0 r 0 = 1 then (List.range (nth 0 r 3)).foldl (fun s i => s.setTile (tkey k (nth 0 r 2 + i)) { owned := true, ctx := c, fp := fp }) s
    else if nth 0 r 0 = 2 then s.modClu k (fun u =>
      { u with profiles := (List.range (nth 0 r 3)).foldl (fun m i => FMap.put {} m (nth 0 r 2 + i) { owned := true, ctx := c }) u.profiles })
    else s) s

/-- The resources of a load that failed after taking them go back. -/
def State.dropClaims (s : State) (c : Nat) : State :=
  let s := { s with tiles := s.tiles.filter (fun p => !(p.2.owned && p.2.ctx == c)) }
  let s := (List.range 64).foldl (fun s k => s.modClu k (fun u => { u with profiles := u.profiles.filter (fun p => !(p.2.owned && p.2.ctx == c)) })) s
  s.modCtx c (fun x => { x with prog := [], cmps := [], claims := [], spill := [], spillSet := false, regions := [] })

/-- Arrays are assigned their logical arrays and wait for the wear write (R134, R346). -/
def State.assignAll (s : State) (c g : Nat) (img : List Byte) (l : List (Nat × Nat × Nat × Bool)) : State :=
  l.foldl (fun s p => s.assign p.1 c g p.2.1 p.2.2.1 p.2.2.2 img (imgSlice img p.2.1)) s

/-- Arrays of a letter that a command is programming or has programmed. -/
def State.letterArrays (s : State) (c g : Nat) : List Nat := s.arrKeys (fun _ r => r.owned && r.ctx == c && r.gen == g && r.forArr.isNone)

end Sys2Proof.Machine
end

