-- ==== Sys2Proof/Machine/Contexts.lean ====
section
/-!
DEFINITION. Sys2Proof/Machine/Contexts.lean: the context commands (R328 to R330, R337, R348 to R354, R358 to R364), the
programming of arrays (R346 to R348), digest rounds and verified readback (R355, R356), and the domain restore (R363).
-/
namespace Sys2Proof.Machine

/-- A context's command finishes: it holds the context no longer, and its completion is written. -/
def State.ctxFinish (s : State) (e : Entry) (code : Code) (r0 r1 : Nat) (flags : Nat := 0) : State :=
  (s.modCtx e.ctx (fun x => { x with cmd := none })).ctxDone e code r0 r1 flags

/-! ### CTX_CREATE (R328) -/

/-- The context that a CTX_CREATE makes, and the device's next epoch. -/
def State.created (s : State) (e : Entry) (epoch : Nat) : State :=
  (s.setCtx e.ctx { ex := true, fp := e.p 8 1 == 1, red := e.p 9 1, critical := bit (e.p 10 1) 0, seed := e.p 16 8
                    epoch := epoch, period := s.reg .tst 0 0x44 }).cfgAdvance

/-- CTX_CREATE (R61, R62, R328, R330): the context stands once its record is written. -/
def execCtxCreate (e : Entry) (s : State) : Host.Outcome State Fault Refusal :=
  .next (s.begin e 0x02 (fun s =>
    match (entryBad e [1, 2] true [(8, 3), (16, 8)] (decide (e.p 10 1 > 1))).or (firstBad
      [(decide (e.p 8 1 > 1 ∨ e.p 9 1 > 2), .value),
       ((s.ctx e.ctx).ex || s.jobs.any (fun j => j.kind == 11 && j.ctx == e.ctx), .state),
       (decide (s.ctxList.length ≥ 32), .limit)]) with
    | some c => s.ctxDone e c 0 0
    | none =>
      let ep := s.epochCtr
      let s := (s.withEpochCtr ((s.epochCtr + 1) % 2 ^ 32)).withJobs (s.jobs ++ [({ e := e, kind := 11, ctx := e.ctx } : Job)])
      s.colQueue { steps := (s.created e ep).ctxSteps e.ctx [] false, k := 6, job := some e, ctx := e.ctx, args := [ep] }))

/-! ### CTX_LOAD (R337, R349, R360) -/

/-- Bytes of an image from its source: the host's, as the command read them, or LPDDR5X. -/
def State.imageFrom (s : State) (lp : Bool) (a n : Nat) (host : List Byte) : List Byte :=
  if lp then s.engRead (2 ^ 63 + a) n else sliceB host 0 n

/-- The image is read whole: an uncorrectable block counts and is reported (R292). -/
def State.imageRead (s : State) (lp : Bool) (a n : Nat) : State :=
  if !lp then s
  else match s.badIn (2 ^ 63 + a) n with
    | some b => (s.lpCountRead a n).lpFault b 255 0
    | none => s.lpCountRead a n

/-- A source or destination in LPDDR5X that a command cannot use. -/
def State.lpBadExtent (s : State) (lp : Bool) (a n : Nat) : Option Code :=
  if !lp then none
  else if a + n > s.lpCap then some .range
  else if !s.domOn 48 || !s.domOn 49 || !s.lpReady then some .state else none

/-- Checks 4 to 12 of R337. -/
def State.loadCheck (s : State) (c g len : Nat) (img : List Byte) (uncorr : Bool) : Option Code :=
  let x := s.ctx c
  let o := x.letter (1 - g)
  let st := (x.letter g).st
  let ok := x.ex && (if x.state = 0 then st == 0 || st == 1 else if x.state = 1 then st != 3 else if x.state = 2 then st == 2 || st == 3 else false)
  if !ok then some .state
  else if s.thm.st ≥ 2 then some .thermal
  else if uncorr || !trailerOk img then some .digest
  else match headerBad img len (if x.spillSet || x.state = 2 then some x.tol else none) with
  | some k => some k
  | none =>
    if (fieldLe img 12 1 == 1) != x.fp then some .state
    else match contentBad img with
    | some k => some k
    | none =>
      if (imgClusters img).any s.cluFenced then some .fenced
      else if (o.st = 2 ∨ o.st = 3) ∧ !o.image.isEmpty ∧ structDigest img ≠ structDigest o.image then some .digest
      else programsBad img x.red

/-- A letter as CTX_LOAD records it (R350, R354, R357). -/
def loadedLetter (old : Letter) (img : List Byte) (lp : Bool) (a st : Nat) (borrow : Bool) : Letter :=
  { st := st, image := img, backing := some (lp, a), digest := weightDigest img, second := old.second, borrow := borrow }

/-- The first generation takes effect (R349): programs, profiles, row store and semaphores loaded, the letter ACTIVE, the
context READY. -/
def State.firstActive (s : State) (c g : Nat) : State :=
  let img := ((s.ctx c).letter g).image
  let s := s.modCtx c (fun x => { x with state := 1, tol := imgTol img, digper := imgDigper img, programming := none })
  let s := (claimSems (imgClaims img)).foldl (fun s p => s.setGs p.1 p.2) s
  ((s.loadRows c g).switchTo c g false).cfgAdvance

/-- The staged letter takes effect (R349): a RESIDENT letter's arrays are released without erasure. -/
def State.stagedNow (s : State) (c g : Nat) (l : Letter) : State :=
  ((s.releaseArrays (s.letterArrays c g) false).modCtx c (fun x => x.setLetter g l)).cfgAdvance

/-- What every array programming of a letter leads to (R349 to R351): the next phase of the command when none is left. -/
def State.progCheck (s : State) (c : Nat) : State :=
  match (s.ctx c).programming with
  | none => s
  | some g =>
    if s.arrays.any (fun p => p.2.owned && p.2.ctx == c && p.2.gen == g && p.2.st == 2 && p.2.forArr.isNone) then s
    else match s.jobs.find? (fun j => (j.kind == 8 || j.kind == 9 || j.kind == 10) && j.ctx == c) with
      | none => s
      | some j =>
        let s := s.withJobs (s.jobs.filter (fun y => y != j))
        if j.kind = 8 then
          s.colQueue { steps := (s.firstActive c g).ctxSteps c (s.ctxClus c) false, k := 2, job := some j.e, ctx := c, args := j.n }
        else if j.kind = 9 then
          s.colQueue { steps := (s.switchTo c g false).ctxSteps c (s.ctxClus c) false, k := 3, job := some j.e, ctx := c, args := [g] }
        else
          let d := s.draw
          let s := ((d.1.switchTo c g true).modCtx c (fun x => { x with gap := false, programming := none })).cfgAdvance
          s.colQueue { steps := s.ctxSteps c (s.ctxClus c) false, k := 5, job := some j.e, ctx := c
                       args := [(s.ctx c).gennum, (Config.freeValue d.2).toNat] }

/-- Keys of the arrays whose wear a command must write, and the write; with none, programming is done at once. -/
def State.wearThen (s : State) (c : Nat) (e : Entry) (ks : List Nat) : State :=
  if ks.isEmpty then s.progCheck c else s.colQueue { steps := wearSteps ks, k := 1, job := some e, ctx := c, args := ks }

/-- Reattaching a letter of a DORMANT context (R360, R362): programs, profiles, row store, semaphores, tiles and statistics
are loaded again; arrays that failed their readback are fenced and remapped. -/
def State.reattach (s : State) (c g : Nat) (img : List Byte) (backing : Option (Bool × Nat)) (bad : List Nat) : State :=
  let x := s.ctx c
  let old := x.letter g
  let other := !(x.letter (1 - g)).image.isEmpty
  let ks := s.letterArrays c g
  let held := ks.map (fun k => (s.arr k).logical)
  let spill := if x.spillSet then x.spill else (List.range (imgNla img)).filter (fun la => !held.contains la)
  let s := if x.prog.isEmpty then
      s.takeClaims c img (s.fitStreams c ((imgStreams img).map (fun p => p.2.1))).1 spill (s.firstRegions c img spill).1
    else s.takeClaims c img x.cmps spill x.regions
  let s := s.modCtx c (fun x =>
    let x := x.setLetter g { old with image := img, backing := backing, second := old.second || (other && !(x.letter (1 - g)).second) }
    { x with digper := imgDigper img
             regions := if other then FMap.mapVals {} (fun _ (r : Region) => { r with parts := 2 }) x.regions else x.regions })
  let s := if x.active = some g then (claimSems (imgClaims img)).foldl (fun s p => s.setGs p.1 p.2) s else s
  let s := s.loadRows c g
  let s := ks.foldl (fun s k => s.modArr k (fun r =>
    let p := imgPlace img r.logical
    let stat := decide (plStat p ≠ 0xFFFFFFFF)
    { r with layer := plLayer p, hasStat := stat
             expMean := if stat then (List.range 260).foldl (fun m q => FMap.put 0 m q (imgMean img r.logical q)) [] else []
             expM2 := if stat then (List.range 260).foldl (fun m q => FMap.put 0 m q (imgM2 img r.logical q)) [] else [] })) s
  let s := (ks.filter (fun k => bad.contains k && (s.arr k).st == 3)).foldl (fun s k =>
    (s.fence (uArr (k / 128) (k % 128)) 8).report { kind := 0x0A, ctx := c, invoc := (s.ctx c).invoc, unit := uArr (k / 128) (k % 128) }) s
  if x.active = some g then ((s.loadProfiles c g).modCtx c (fun x => { x with state := 1 })).calTrigger c 3 (2 ^ 64 - 1) else s

/-- Arrays of a letter and the lent ones among them, as RESULT0 of a load (R343). -/
def State.placedWord (s : State) (c g : Nat) : Nat :=
  let ks := s.letterArrays c g
  ks.length + (ks.filter (fun k => (s.arr k).lent)).length * 2 ^ 32

/-- CTX_LOAD of a further letter: it is STAGED once the context's records are written (R340). -/
def State.loadStaged (s : State) (e : Entry) (g : Nat) (img : List Byte) (lp : Bool) (a : Nat) (borrow : Bool) : State :=
  let c := e.ctx
  let l := loadedLetter ((s.ctx c).letter g) img lp a 1 borrow
  (s.modCtx c (fun x => { x with cmd := some e })).colQueue
    { steps := (s.stagedNow c g l).ctxSteps c (s.ctxClus c) false, k := 7, job := some e, ctx := c, args := [g, a, b2n lp, b2n borrow], data := img }

/-- CTX_LOAD of a DORMANT context's letter: its arrays are held again (R360). -/
def State.loadReattach (s : State) (e : Entry) (g : Nat) (img : List Byte) (lp : Bool) (a : Nat) (bad : List Nat) : State :=
  let c := e.ctx
  let s := ((s.modCtx c (fun x => { x with cmd := some e })).reattach c g img (some (lp, a)) bad).cfgAdvance
  s.colQueue { steps := s.ctxSteps c (s.ctxClus c) false, k := 11, job := some e, ctx := c, args := [s.placedWord c g, spillRate img (s.ctx c).spill] }

/-- CTX_LOAD of a context's first image: its claims and arrays are taken, and the arrays' wear is written (R338, R346). -/
def State.loadFirst (s : State) (e : Entry) (g : Nat) (img : List Byte) (l : Letter)
    (f : List Nat × List (Nat × Nat × Nat × Bool) × List Nat × FMap Region) : State :=
  let c := e.ctx
  let s := ((s.modCtx c (fun x => { x with cmd := some e })).takeClaims c img f.1 f.2.2.1 f.2.2.2).modCtx c (fun x => { x.setLetter g { l with st := 0 } with programming := some g })
  let s := s.assignAll c g img f.2.1
  let lent := (f.2.1.filter (fun p => p.2.2.2)).length
  let s := s.withJobs (s.jobs ++ [({ e := e, kind := 8, ctx := c, n := [f.2.1.length + lent * 2 ^ 32, spillRate img f.2.2.1, g] } : Job)])
  s.wearThen c e (f.2.1.map (fun p => p.1))

/-- CTX_LOAD (R337). -/
def execCtxLoad (e : Entry) (image : List Byte) (bad : List Nat) (s : State) : Host.Outcome State Fault Refusal :=
  .next (s.begin e 0x03 (fun s =>
    let a := e.p 8 8
    let len := e.p 16 4
    let lp := e.p 20 1 == 1
    let g := e.p 22 1
    let borrow := bit (e.p 21 1) 0
    let c := e.ctx
    match (entryBad e [1, 2] true [(8, 15)] (decide (e.p 21 1 > 3))).or (firstBad
      [((s.ctx c).cmd.isSome, .busy), (decide (e.p 20 1 > 1 ∨ g > 1), .value), (decide (a % 64 ≠ 0), .align)]) with
    | some k => s.ctxDone e k 0 0
    | none =>
    match s.lpBadExtent lp a len with
    | some k => s.ctxDone e k 0 0
    | none =>
      let img := s.imageFrom lp a len image
      let uncorr := lp && (s.badIn (2 ^ 63 + a) len).isSome
      let r := s.loadCheck c g len img uncorr
      let x := s.ctx c
      let s := s.imageRead lp a len
      match r with
      | some k => s.ctxDone e k 0 0
      | none =>
        if x.state = 1 then s.loadStaged e g img lp a borrow
        else if x.state = 2 then
          if weightDigest img ≠ (x.letter g).digest then s.ctxDone e .digest 0 0
          else
            let fit := s.fitLoad c img false false x.red
            match (if x.prog.isEmpty then (match fit with | .inl q => if q.1 = 0 then none else some q | .inr _ => none) else none) with
            | some q => s.ctxDone e .nospace q.1 q.2
            | none => s.loadReattach e g img lp a bad
        else
          match s.fitLoad c img borrow (bit (e.p 21 1) 1) x.red with
          | .inl q => s.ctxDone e .nospace q.1 q.2
          | .inr f => s.loadFirst e g img (loadedLetter (x.letter g) img lp a 1 borrow) f))

/-- INPLACE programming begins (R351): the wear of the arrays that it will write comes first. -/
def State.programInplace (s : State) (e : Entry) (g : Nat) : State :=
  let c := e.ctx
  let ks := (s.inService c).filter (fun k => (s.arr k).st != 4)
  let s := (s.modCtx c (fun x => { x with cmd := some e })).withJobs (s.jobs ++ [({ e := e, kind := 10, ctx := c } : Job)])
  if ks.isEmpty then ((s.modCtx c (fun x => { x with gap := true, programming := some g })).boundary c).progCheck c
  else s.colQueue { steps := wearSteps ks, k := 4, job := some e, ctx := c, args := [g] }

/-- SHADOW programming begins beside the ACTIVE letter with the placement `pl` (R350). -/
def State.programShadow (s : State) (e : Entry) (g : Nat) (pl : List (Nat × Nat × Nat × Bool)) : State :=
  let c := e.ctx
  let x := s.ctx c
  let two := !x.regions.isEmpty
  let sec := two && (match x.active with | some o => !(x.letter o).second | none => false)
  let s := s.modCtx c (fun x =>
    let x := x.setLetter g { x.letter g with second := sec }
    { x with cmd := some e, programming := some g, regions := FMap.mapVals {} (fun _ (r : Region) => { r with parts := 2 }) x.regions })
  let s := s.assignAll c g (x.letter g).image pl
  let s := s.withJobs (s.jobs ++ [({ e := e, kind := 9, ctx := c, n := [0, 0, g] } : Job)])
  s.wearThen c e (pl.map (fun p => p.1))

/-- Row store bytes that a second part of every region still lacks (R345). -/
def State.partShort (s : State) (c : Nat) : Nat :=
  ((s.ctx c).regions.filter (fun (p : Nat × Region) => p.2.parts == 1)).foldl (fun t p => t + s.rowShort c p.1 (p.2.base + p.2.part) p.2.part) 0

/-- CTX_PROGRAM: the backing image read whole and compared with the recorded trailer; then SHADOW places and programs the
letter beside the ACTIVE one, and INPLACE writes the wear of the arrays it will reprogram. -/
def execCtxProgram (e : Entry) (image : List Byte) (s : State) : Host.Outcome State Fault Refusal :=
  .next (s.begin e 0x04 (fun s =>
    let c := e.ctx
    let g := e.p 8 1
    let x := s.ctx c
    let l := x.letter g
    match (entryBad e [1, 2] true [(8, 2)] false).or (firstBad
      [(x.cmd.isSome, .busy), (decide (g > 1 ∨ e.p 9 1 > 1), .value), (!x.ex || x.state != 1 || l.st != 1 || l.backing.isNone, .state)]) with
    | some k => s.ctxDone e k 0 0
    | none =>
      let b := l.backing.getD (false, 0)
      let img := s.imageFrom b.1 b.2 l.image.length image
      let uncorr := b.1 && (s.badIn (2 ^ 63 + b.2) l.image.length).isSome
      let s := s.imageRead b.1 b.2 l.image.length
      if uncorr || sha384 (img.take (img.length - 48)) != imgTrailer l.image then (s.loseBacking c g 0xFFFF).ctxDone e .digest 0 0
      else if e.p 9 1 = 1 then s.programInplace e g
      else
        let pa := s.placeAll l.image x.red l.borrow false (some x.spill)
        if s.partShort c ≠ 0 then s.ctxDone e .nospace (shortWord 4 (s.partShort c)) 0
        else if pa.2.2 ≠ 0 then s.ctxDone e .nospace 0 pa.2.2
        else s.programShadow e g pa.1))

/-- CTX_SWITCH: a RESIDENT letter becomes ACTIVE at the next boundary. -/
def execCtxSwitch (e : Entry) (s : State) : Host.Outcome State Fault Refusal :=
  .next (s.begin e 0x05 (fun s =>
    let c := e.ctx
    let g := e.p 8 1
    let x := s.ctx c
    match (entryBad e [1, 2] true [(8, 1)] false).or (firstBad
      [(x.cmd.isSome, .busy), (decide (g > 1), .value), (!x.ex || x.state != 1 || (x.letter g).st != 2, .state)]) with
    | some k => s.ctxDone e k 0 0
    | none =>
      let s := s.modCtx c (fun x => { x with cmd := some e, switchDue := some g })
      (s.withJobs (s.jobs ++ [({ e := e, kind := 5, ctx := c } : Job)])).boundary c))

/-! ### CTX_SAVE and CTX_RESTORE (R361, R362) -/

def padTo64 (bs : List Byte) : List Byte := bs ++ List.replicate ((64 - bs.length % 64) % 64) 0#8

/-- The SLICE section cut down to the spilled logical arrays: their slices, each at a multiple of 64 bytes, in ascending LA
order; and where each stands. The manual does not lay the cut section out (DESIGN CHOICE: log 51). -/
def cutSlices (img : List Byte) (spill : List Nat) : List Byte × List (Nat × Nat) :=
  ((List.range (imgNla img)).filter (fun la => spill.contains la)).foldl (fun (acc : List Byte × List (Nat × Nat)) la =>
    (padTo64 (acc.1 ++ imgSlice img la), acc.2 ++ [(la, acc.1.length)])) ([], [])

def putBytes (bs : List Byte) (o : Nat) (v : List Byte) : List Byte := bs.take o ++ v ++ bs.drop (o + v.length)

/-- An image with its SLICE section cut down, the later sections moved up to the next multiple of 64 bytes, and LENGTH, the
section table and the trailer to match. -/
def cutImage (img : List Byte) (spill : List Nat) : List Byte :=
  let cut := cutSlices img spill
  let secs := (imgSecs img).map (fun x => (x.1, if x.1 = 3 then cut.1
    else if x.1 = 2 then cut.2.foldl (fun b p => putBytes b (32 * p.1 + 16) (leBytes 4 p.2)) (imgSec img 2) else imgSec img x.1))
  let body := secs.foldl (fun (acc : List Byte × List Byte) x =>
    let b := padTo64 acc.1
    (b ++ x.2, acc.2 ++ (leBytes 2 x.1 ++ leBytes 2 0 ++ leBytes 4 (256 + b.length) ++ leBytes 4 x.2.length ++ leBytes 4 0))) ([], [])
  let hdr := putBytes (putBytes (img.take 256) 64 body.2) 8 (leBytes 4 (256 + body.1.length + 48))
  let all := hdr ++ body.1
  all ++ sha384 all

/-- The save image of a context (R361). -/
def State.ctxSaveImage (s : State) (c : Nat) : List Byte :=
  let x := s.ctx c
  let h := [0x43#8, 0x53#8, 0x56#8, 0x31#8] ++ leBytes 2 1 ++ leBytes 1 c ++ leBytes 1 (x.la.st + 4 * x.lb.st) ++ leBytes 4 x.epoch
    ++ leBytes 6 x.invoc ++ leBytes 2 x.gennum ++ leBytes 44 0
  let part := fun (l : Letter) => if l.st = 2 ∨ l.st = 3 then cutImage l.image x.spill else []
  let all := h ++ part x.la ++ part x.lb
  all ++ sha384 all

/-- CTX_SAVE (R361). -/
def execCtxSave (e : Entry) (s : State) : Host.Outcome State Fault Refusal :=
  .next (s.begin e 0x06 (fun s =>
    let c := e.ctx
    let a := e.p 8 8
    let lp := e.p 20 1 == 1
    let x := s.ctx c
    match (entryBad e [2] true [(8, 13)] false).or (firstBad
      [(x.cmd.isSome, .busy), (decide (e.p 20 1 > 1), .value), (!x.ex || x.state != 1, .state)]) with
    | some k => s.ctxDone e k 0 0
    | none =>
      let im := s.ctxSaveImage c
      match (s.lpBadExtent lp a (e.p 16 4)).or (if im.length > e.p 16 4 then some .range else none) with
      | some k => s.ctxDone e k 0 0
      | none =>
        let s := if lp then s.lpWrite a im else s.cmdWrite e a im
        s.ctxDone e (s.okCode c) im.length (fieldLe im (im.length - 48) 8)))

/-- The Thaska images contained in a save image, in order A then B (R361). -/
def savedImages (data : List Byte) : List (Nat × List Byte) :=
  let st := fieldLe data 7 1
  let has := fun g => decide (st >>> (2 * g) % 4 ≥ 2)
  let first := if has 0 ∨ has 1 then sliceB data 64 (fieldLe data 72 4) else []
  if has 0 ∧ has 1 then [(0, first), (1, sliceB data (64 + first.length) (fieldLe data (72 + first.length) 4))]
  else if has 0 then [(0, first)] else if has 1 then [(1, first)] else []

/-- Weight bytes of a slice rebuilt from an array's weights (R334, R355). -/
def weightBytes (l : Layer) (ws : FMap Int) : List Byte :=
  (List.range l.groups).flatMap (fun k => (List.range l.rows).flatMap (fun i =>
    (List.range l.outs).map (fun n => BitVec.ofInt 8 (FMap.get 0 ws ((64 * (8 * k / l.groups) + i) * 256 + n)))))

/-- The weight digest of a contained image with the array weights taken by verified readback (R362). -/
def State.readbackDigest (s : State) (c g : Nat) (img : List Byte) : List Byte :=
  sha384 (weightStream img (fun la =>
    match s.copies c g la (plCluster (imgPlace img la)) with
    | a :: _ => weightBytes (plLayer (imgPlace img la)) (s.arr (akey (plCluster (imgPlace img la)) a)).weights
    | [] => imgSlice img la))

/-- CTX_RESTORE (R362). -/
def execCtxRestore (e : Entry) (data : List Byte) (bad : List Nat) (s : State) : Host.Outcome State Fault Refusal :=
  .next (s.begin e 0x07 (fun s =>
    let c := e.ctx
    let a := e.p 8 8
    let len := e.p 16 4
    let lp := e.p 20 1 == 1
    let x := s.ctx c
    match ((entryBad e [2] true [(8, 13)] false).or (firstBad
      [(x.cmd.isSome, .busy), (decide (e.p 20 1 > 1), .value), (!x.ex || x.state != 2, .state)])).or (s.lpBadExtent lp a len) with
    | some k => s.ctxDone e k 0 0
    | none =>
      let im := s.imageFrom lp a len data
      let uncorr := lp && (s.badIn (2 ^ 63 + a) len).isSome
      let imgs := savedImages im
      let s := s.imageRead lp a len
      match firstBad
        [(fieldLe im 0 4 != 0x31565343 || fieldLe im 4 2 != 1 || !zeroAt im 20 44, .value),
         (uncorr || decide (im.length < 112) || sha384 (im.take (im.length - 48)) != sliceB im (im.length - 48) 48, .digest),
         (fieldLe im 6 1 != c, .state), (fieldLe im 8 4 != x.epoch, .epoch),
         (imgs.any (fun p => s.readbackDigest c p.1 p.2 != (x.letter p.1).digest || (s.letterArrays c p.1).any (fun k => bad.contains k)), .digest)] with
      | some k => s.ctxDone e k 0 0
      | none =>
        let s := (imgs.foldl (fun s p => s.reattach c p.1 p.2 none []) (s.modCtx c (fun x => { x with cmd := some e }))).cfgAdvance
        s.colQueue { steps := s.ctxSteps c (s.ctxClus c) false, k := 14, job := some e, ctx := c, args := [x.epoch, 0] }))

/-! ### CTX_DESTROY (R364) -/

/-- CTX_DESTROY: the context is CLOSING at once; a calibration window is discarded. -/
def execCtxDestroy (e : Entry) (s : State) : Host.Outcome State Fault Refusal :=
  .next (s.begin e 0x08 (fun s =>
    let c := e.ctx
    let x := s.ctx c
    match (entryBad e [1, 2] true [] false).or (firstBad [(x.cmd.isSome, .busy), (!x.ex, .state)]) with
    | some k => s.ctxDone e k 0 0
    | none =>
      let s := s.runAnswer c
      let s := s.modCtx c (fun x => { x with cmd := some e, was := x.state, state := 3, cal := { x.cal with run := 0, again := false } })
      (s.withJobs (s.jobs ++ [({ e := e, kind := 3, ctx := c } : Job)])).destroyStep c))

/-! ### ARRAY_PROGRAMMED (R117, R346, R348) -/

/-- Replaced rows by segment (R69): none where a segment needs a second. -/
def replaceRows : List Nat → List (Nat × Nat) → Option (List (Nat × Nat))
  | [], m => some m
  | r :: rest, m => if m.any (fun p => p.1 == r / 64) then none else replaceRows rest (m ++ [(r / 64, r % 64)])

/-- An array's programming succeeded (R346): its baseline, twin check, formes and state. -/
def State.programmedOk (s : State) (k : Nat) (rows : List (Nat × Nat)) (pairs : List Nat) (s0 s1 : Nat) (tw1 tw2 : List Int) : State :=
  let s := s.setRefs k s0 s1
  let t := wholeDeg s.thm.temp s.free
  let s := s.modArr k (fun r => { r with
    st := if r.forArr.isSome then 2 else 3, serveAt := r.forArr.isSome, begun := false, epoch := (s.ctx r.ctx).epoch
    rowmap := rows, colmap := pairs, recD := ((s0 + s1 : Nat) : Int) - 188416, tbase := t, tcal := t, gamma := 0x4000, lcal := 0, hasRec := true
    lq := 0, readT := s.thm.temp, trigT := s.thm.temp, trigL := 0, agevalid := false, refbad := false, due := false, refreshing := false
    forme := [], active := 0, armed := false, fit := [], failed := 0, stats := [] })
  (s.withFree (s.free + 1)).twin k tw1 tw2

/-- Programming of a first load or SHADOW fails for want of an array: its arrays are released and the context is as before
(R348). -/
def State.progAbort (s : State) (c g : Nat) (e : Entry) (first : Bool) (code : Code) (r0 r1 : Nat) : State :=
  let s := s.returnTargets (s.letterArrays c g)
  let s := s.withJobs (s.jobs.filter (fun j => !((j.kind == 8 || j.kind == 9) && j.ctx == c)))
  let s := if first then (s.dropClaims c).modCtx c (fun x => x.setLetter g {})
    else s.modCtx c (fun x => { x with regions := if x.la.st ≠ 2 ∧ x.lb.st ≠ 2 then FMap.mapVals {} (fun _ (r : Region) => { r with parts := 1 }) x.regions else x.regions })
  (s.modCtx c (fun x => { x with programming := none })).ctxFinish e code r0 r1

/-- An array's programming failed (R348): it is fenced with reason PROGRAM and another is sought. -/
def State.programmedBad (s : State) (k : Nat) : State :=
  let r := s.arr k
  let c := r.ctx
  let n := k / 128
  let img := ((s.ctx c).letter r.gen).image
  let s := s.modArr k (fun r => freed r.wasSpare false r)
  let s := (s.fence (uArr n (k % 128)) 6).report { kind := 0x0C, ctx := c, invoc := (s.ctx c).invoc, unit := uArr n (k % 128) }
  match r.forArr with
  | some d => if (s.arr d).st = 4 then s.remapStart d else s.modArr d (fun q => { q with refreshing := false })
  | none =>
    match s.jobs.find? (fun j => (j.kind == 8 || j.kind == 9 || j.kind == 10) && j.ctx == c) with
    | none => s
    | some j =>
      let pick := if j.kind = 10 then (match s.pickSpare n with | some a => some (a, false) | none => (s.pickFree n).map (fun a => (a, false)))
        else match s.pickFree n with
          | some a => some (a, false)
          | none => if ((s.ctx c).letter r.gen).borrow then (s.pickSpare n).map (fun a => (a, true)) else none
      match pick with
      | some (a, lent) =>
        let t := akey n a
        (s.assign t c r.gen r.logical r.copy lent img (imgSlice img r.logical)).colQueue { steps := wearSteps [t], k := 1, job := some j.e, ctx := c, args := [t] }
      | none =>
        if j.kind = 10 then (s.modArr k (fun q => { q with owned := true, ctx := c, gen := r.gen, logical := r.logical, copy := r.copy })).progCheck c
        else s.progAbort c r.gen j.e (j.kind == 8) .nospace 0 1

/-- ARRAY_PROGRAMMED: one array's programming ends. `badRows` and `badPairs` are the rows and pairs whose cells did not
converge; the reference sums give its baseline. -/
def execArrayProgrammed (c a : Nat) (badRows badPairs : List Nat) (s0 s1 : Nat) (tw1 tw2 : List Int) (s : State) :
    Host.Outcome State Fault Refusal :=
  .next (
    let k := akey c a
    let r := s.arr k
    if r.st ≠ 2 ∨ !r.begun ∨ !s.cluOn c then s
    else
      let d : Int := ((s0 + s1 : Nat) : Int) - 188416
      let pairs := r.colmap ++ trimPairs r ++ badPairs.filter (fun q => !(trimPairs r).contains q)
      let okPairs := decide (pairs.length ≤ 2 - ((failedTrims r).filter (fun q => q ≥ 262)).length)
      match replaceRows badRows r.rowmap with
      | some rows =>
        if okPairs && decide (-2048 ≤ d ∧ d ≤ 2047) then (s.programmedOk k rows pairs s0 s1 tw1 tw2).progCheck r.ctx
        else s.programmedBad k
      | none => s.programmedBad k)

/-! ### Digest rounds and verified readback (R355, R356) -/

/-- DIGEST_ROUND (R356): after DIGPERIOD invocations every copy of the ACTIVE letter's arrays is to be read back. -/
def execDigestRound (c : Nat) (s : State) : Host.Outcome State Fault Refusal :=
  .next (
    let x := s.ctx c
    match x.active with
    | none => s
    | some g =>
      if x.state ≠ 1 ∨ x.digper = 0 ∨ x.digDone < x.digper ∨ (x.letter g).backing.isNone ∨ !x.digLeft.isEmpty then s
      else s.modCtx c (fun x => { x with digLeft := s.inService c, digBad := [], digDone := 0 }))

/-- `2^32 * F` of R123 for an array at its latest consistent reading. -/
def rawF (r : Arr) : Nat := expQ (-(r.lq : Int) * 2 ^ 64 / 51200) * kT8000 r.readT (4 * r.tbase) / 8000 / 2 ^ 32

/-- Level that a cell reads as (R355): `g` its conductance in 2⁻¹⁶ levels, `lev` the level its weights give it. -/
def readLevel (r : Arr) (lev g : Nat) : Nat :=
  let f := max 1 (rawF r)
  let d := ((g * 2 ^ 32 : Nat) : Int) - ((lev * 65536 * f : Nat) : Int)
  -- |m - Le| <= 0.45 + 0.02 * Le * L, all times 2^16 * f * 51200 / 51200
  if d.natAbs * 51200 ≤ (23040 + lev * r.lq) * 65536 * f then lev
  else min 15 ((g * 2 ^ 32 + 32768 * f) / (65536 * f))

/-- Levels of the positive and negative cell that a pair weight takes (R71). -/
def pairLevels (w : Int) : Nat × Nat := if w < 0 then (0, w.natAbs) else (w.natAbs, 0)

/-- Weight of output `n` of a row after readback: `dev` names cells by `row * 528 + 2 * pair + side` (side 1 negative) with
their conductance; a cell that is not named reads as its weights give it. -/
def readWeight (r : Arr) (dev : List (Nat × Int)) (row n : Nat) (w : Int) : Int :=
  let cell := fun (pair side lev : Nat) =>
    match dev.find? (fun p => p.1 == row * 528 + 2 * pair + side) with | some p => readLevel r lev p.2.toNat | none => lev
  let pw := fun (pair : Nat) (v : Int) => let l := pairLevels v; ((cell pair 0 l.1 : Nat) : Int) - (cell pair 1 l.2 : Nat)
  if r.layer.w8 then 16 * pw (2 * n + 1) (hiSlice w) + pw (2 * n) (loSlice w) else pw n w

/-- A verified readback finds the array's weights as its generation gives them. -/
def readbackSame (r : Arr) (dev : List (Nat × Int)) : Bool :=
  dev.all (fun p =>
    let row := p.1 / 528
    let n := if r.layer.w8 then p.1 % 528 / 4 else p.1 % 528 / 2
    let w := FMap.get 0 r.weights (row * 256 + n)
    decide (n ≥ r.layer.outs) || readWeight r dev row n w == w)

/-- VERIFIED_READBACK (R118, R355, R356): one array of the round is read; the round's last array ends it, and each array
whose rows differ is reported. -/
def execVerifiedReadback (c a s0 s1 : Nat) (dev : List (Nat × Int)) (s : State) : Host.Outcome State Fault Refusal :=
  .next (
    let k := akey c a
    let x := (s.arr k).ctx
    if !(s.ctx x).digLeft.contains k || !s.cluOn c then s
    else
      let s := (s.driftRead k s0 s1).evalTriggers k
      let same := readbackSame (s.arr k) dev
      let s := s.modCtx x (fun y => { y with digLeft := y.digLeft.filter (fun i => i != k), digBad := if same then y.digBad else y.digBad ++ [k] })
      if !(s.ctx x).digLeft.isEmpty then s
      else
        let bad := (s.ctx x).digBad
        bad.foldl (fun s i => s.report { kind := 0x0A, ctx := x, invoc := (s.ctx x).invoc, unit := uArr (i / 128) (i % 128) })
          (s.modCtx x (fun y => { y with digBad := [] })))

/-! ### A domain that powers up again (R146, R363) -/

/-- DOMAIN_REPOWER_RESTORE (R363): once its returning arrays serve, the context's profiles, row store parts and spilled
slices are loaded again from its backing images; a letter without one makes the context DORMANT. -/
def execDomainRepowerRestore (c : Nat) (s : State) : Host.Outcome State Fault Refusal :=
  .next (
    let x := s.ctx c
    if !x.ex || !x.restoreHold then s
    else if (s.ctxArrays c).any (fun k => (s.unit (uArr (k / 128) (k % 128))).state == 2) then s
    else
      let need := [0, 1].filter (fun g => decide ((x.letter g).st ≥ 2))
      let s := s.modCtx c (fun x => { x with restoreHold := false })
      if need.any (fun g => (x.letter g).backing.isNone) then
        (s.modCtx c (fun x => { x with state := 2 })).record c (s.ctxClus c)
      else
        let s := need.foldl (fun s g => s.loadRows c g) s
        match x.active with | some g => s.loadProfiles c g | none => s)

end Sys2Proof.Machine
end

