-- ==== Sys2Proof/Machine/Integrity.lean ====
section
/-!
DEFINITION. Sys2Proof/Machine/Integrity.lean: CHKPT, DIGEST and TESTVEC (R258 to R260), and the collective instructions
XSEND and XRECV (R262 to R264, R383 to R385).
-/
namespace Sys2Proof.Machine

/-! ### CHKPT (R258) -/

/-- The checks of R266 for CHKPT. -/
def State.chkptBad (s : State) (a : Nat) : Option Code :=
  match firstBad [(decide (a % 64 ≠ 0), .align), (!s.bar2Extent a 16, .range)] with
  | some c => some c
  | none => s.blocked a 16

/-- CHKPT: checked and held at its compositor. -/
def execChkpt (ctx i : Nat) (s : State) : Host.Outcome State Fault Refusal :=
  .next (match s.issuable ctx i 0x50 with
  | none => s
  | some (_, st, w) =>
    let a := effA st w 64
    match s.chkptBad a with
    | some c => s.stopAt ctx i c
    | none =>
      let o := { mkOp ctx i st w 0 [] [] with clusters := [], stage := 0, a1 := a, id := s.nextOp }
      (((s.setStream ctx i { st with held := some o.id }).issued st).withOps (s.ops ++ [o])).withNextOp (s.nextOp + 1))

/-- The 16 bytes of a checkpoint record. -/
def chkptBytes (v : Inv) (i label : Nat) : List Byte :=
  leBytes 2 label ++ leBytes 6 v.num ++ leBytes 4 v.ckfails
    ++ leBytes 1 (b2n v.coarse + 2 * b2n v.clip + 4 * b2n v.sat + 8 * b2n v.spilled) ++ leBytes 1 i ++ leBytes 2 0

/-- CHKPT_RECORD: every operation that the stream issued earlier has retired; the record is written, the CHKPT retires
and its stream goes on. -/
def execChkptRecord (ctx i : Nat) (s : State) : Host.Outcome State Fault Refusal :=
  .next (match (s.ctx ctx).inv, s.ops.find? (fun o => o.ctx == ctx && o.stream == i && o.opc == 0x50) with
  | some v, some o =>
    if s.ops.any (fun x => x.ctx == ctx && x.stream == i && x.id != o.id) || v.stop.isSome then s
    else
      let s := s.engWrite o.a1 (chkptBytes v i (bits o.word 103 88))
      let st := s.stream ctx i
      (s.setStream ctx i { st with held := none, idx := st.idx + 1 }).retire o
  | _, _ => s)

/-! ### DIGEST (R259) -/

/-- What DIGEST checks at issue, in the order of R266, the bytes it reaches, and the operation it forms. -/
def State.digestForm (s : State) (ctx i : Nat) (st : StreamSt) (w : Nat) : IssueForm :=
  let n := 64 * (bits w 103 86 + 1)
  let a := effA st w 62
  let d := effA st w 38
  let r := effA st w 14
  { chk := [(decide (a % 64 ≠ 0 ∨ d % 64 ≠ 0) || (wX4 w && decide (r % 64 ≠ 0)), .align),
       (!s.bar2Extent a n || !s.bar2Extent d 48 || (wX4 w && !s.bar2Extent r 48), .range)]
    ext := ([(a, n), (d, 48)] ++ (if wX4 w then [(r, 48)] else []))
    op := { mkOp ctx i st w 0 [] [] with clusters := [], a1 := a, a2 := d, a3 := r } }

/-- DIGEST: checks at issue, then the configuration-digest block. -/
def execDigest (ctx i : Nat) (s : State) : Host.Outcome State Fault Refusal :=
  .next (match s.issuable ctx i 0x51 with | none => s | some (_, st, w) => s.accIssue ctx i st (s.digestForm ctx i st w))

/-- DIGEST_DONE: the block's earliest DIGEST ends: the digest stands at DST, and a comparison is decided. -/
def execDigestDone (s : State) : Host.Outcome State Fault Refusal :=
  .next (match s.ops.find? (fun o => o.opc == 0x51 && decide (o.stage ≥ 1)) with
  | none => s
  | some o =>
    let n := 64 * (bits o.word 103 86 + 1)
    let inv := s.invNum o.ctx
    match s.badIn o.a1 n with
    | some b => (s.readFault false b o.ctx inv).stopOp o .parity
    | none =>
      let h := sha384 (s.engRead o.a1 n)
      let s := (s.engWrite o.a2 h).bump .cfg 0 0x80 1
      if !wX4 o.word then s.retire o
      else match s.badIn o.a3 48 with
        | some b => (s.readFault false b o.ctx inv).stopOp o .parity
        | none =>
          if s.engRead o.a3 48 = h then s.retire o
          else (s.report { kind := 0x12, ctx := o.ctx, invoc := inv, detail := min (n / 64) 65535, pos := o.a1 }).stopOp o .digest)

/-! ### TESTVEC (R260) -/

/-- What TESTVEC checks at issue, in the order of R266, the bytes it reaches, and the operation it forms. -/
def State.testvecForm (s : State) (ctx i : Nat) (st : StreamSt) (w : Nat) : IssueForm :=
  let c := wClu w
  let k := bits w 97 86 + 1
  let a := effA st w 44
  { chk := [(s.cluFenced c, .fenced), (decide (a % 64 ≠ 0), .align), (!s.nearExtent c a k, .range)]
    ext := [(a, k)]
    op := { mkOp ctx i st w c [] [] with a1 := a } }

/-- TESTVEC: checks at issue, then the test engine of CLU. -/
def execTestvec (ctx i : Nat) (s : State) : Host.Outcome State Fault Refusal :=
  .next (match s.issuable ctx i 0x52 with | none => s | some (_, st, w) => s.accIssue ctx i st (s.testvecForm ctx i st w))

/-- The seed of a TESTVEC generator. -/
def testvecSeed (seed inv label : Nat) : Nat :=
  let v := seed ^^^ ((inv <<< 16) % 2 ^ 64) ^^^ label ^^^ 0xA5A5000000000000
  if v = 0 then 1 else v

/-- The bytes of a seeded vector: signed or unsigned draws in the range of an input format (R260). -/
def testvecBytes (seed k inbits : Nat) (unsig : Bool) : List Byte :=
  (draws k seed).map (fun r =>
    if unsig then BitVec.ofNat 8 (r % (if inbits = 0 then 16 else if inbits = 1 then 64 else 256))
    else let m := if inbits = 0 then 7 else if inbits = 1 then 31 else 127
         BitVec.ofInt 8 (((r % (2 * m + 1) : Nat) : Int) - (m : Nat)))

/-- TESTVEC_DONE: the cluster's earliest TESTVEC ends with its last byte at DST. -/
def execTestvecDone (c : Nat) (s : State) : Host.Outcome State Fault Refusal :=
  .next (match s.ops.find? (fun o => o.clusters == [c] && o.opc == 0x52 && decide (o.stage ≥ 1)) with
  | none => s
  | some o =>
    let w := o.word
    let sd := testvecSeed (s.ctx o.ctx).seed (s.invNum o.ctx) (bits w 83 68)
    (s.engWrite o.a1 (testvecBytes sd (bits w 97 86 + 1) (bits w 85 84) (wX4 w))).retire o)

/-! ### Collectives -/

/-- A Daisy link is up, at full or half width (R392). -/
def State.dsyUp (s : State) (p : Nat) : Bool := let x := (FMap.get {} s.dsy p : Dsy); decide (x.st ≥ 2)

/-- What XSEND checks at issue, in the order of R266, the bytes it reaches, and the operation it forms. -/
def State.xsendForm (s : State) (ctx i : Nat) (st : StreamSt) (w : Nat) : IssueForm :=
  let c := wClu w
  let t := effT st w 85
  { chk := [(s.sec.role != 2, .state), (!s.dsyUp 0 || !s.chain.valid, .link), (s.cluFenced c, .fenced),
       (!(s.ctx ctx).fp || s.ownChain st c t, .state), (!s.ownTiles ctx c t 1, .range)]
    ext := []
    op := (mkOp ctx i st w c [t] [⟨c, t, false, false, false⟩]) }

/-- XSEND (R262, R263): checks at issue. Only a worker sends upstream. -/
def execXsend (ctx i : Nat) (s : State) : Host.Outcome State Fault Refusal :=
  .next (match s.issuable ctx i 0x60 with | none => s | some (_, st, w) => s.accIssue ctx i st (s.xsendForm ctx i st w))

/-- The body of a collective message, before its CRC (R384). -/
def collBody (tag pos flags n epoch : Nat) (es : List Nat) : List Byte :=
  leBytes 1 tag ++ leBytes 1 pos ++ leBytes 1 flags ++ leBytes 1 0 ++ leBytes 2 n ++ leBytes 2 0 ++ leBytes 4 epoch ++ leBytes 4 0
    ++ es.flatMap (fun e => leBytes 4 e) ++ leBytes 4 (es.foldl (fun a e => a + e) 0)

/-- XSEND_ACCEPTED (R263, R383): the earliest XSEND that nothing holds reads its tile, its message joins the upstream
port's queue, and it retires. -/
def execXsendAccepted (s : State) : Host.Outcome State Fault Refusal :=
  .next (match s.ops.find? (fun o => o.opc == 0x60 && o.free) with
  | none => s
  | some o =>
    if !s.dsyUp 0 then s
    else
      let w := o.word
      let c := o.clusters.headD 0
      let t := nth 0 o.tiles 0
      let n := bits w 84 77 + 1
      let x := s.tile (tkey c t)
      match x.badPar n with
      | some e => (s.tileFault o.ctx (s.invNum o.ctx) c t e).stopOp o .parity
      | none =>
        let s := s.modCtx o.ctx (fun k => k.modInv (fun v => v.orFlags x))
        let b := collBody (bits w 76 69) s.chain.pos (b2n x.coarse + 2 * b2n x.clip + 4 * b2n x.sat) n s.cfg.epoch
          ((List.range n).map (fun i => bits (x.e i) 31 0))
        (s.withChain { s.chain with xtx := s.chain.xtx ++ [b ++ leBytes 8 (crc64 b)] }).retire o)

/-- What XRECV checks at issue, in the order of R266, the bytes it reaches, and the operation it forms. -/
def State.xrecvForm (s : State) (ctx i : Nat) (st : StreamSt) (w : Nat) : IssueForm :=
  let c := wClu w
  let t := effT st w 85
  { chk := [(s.sec.role == 0, .state), (!s.dsyUp 1 || !s.chain.valid, .link), (s.cluFenced c, .fenced), (!(s.ctx ctx).fp, .state),
       (decide (bits w 68 65 ≤ s.chain.pos) || !s.ownTiles ctx c t 1, .range)]
    ext := []
    op := (mkOp ctx i st w c [t] [⟨c, t, true, wAdd w, false⟩]) }

/-- XRECV (R262, R264): checks at issue. -/
def execXrecv (ctx i : Nat) (s : State) : Host.Outcome State Fault Refusal :=
  .next (match s.issuable ctx i 0x61 with | none => s | some (_, st, w) => s.accIssue ctx i st (s.xrecvForm ctx i st w))

/-- The checks on a message that an XRECV takes (R264, R384): CRC, lane, epoch, entry count. -/
def State.collBad (s : State) (n : Nat) (m : List Byte) : Option Code :=
  let k := fieldLe m 4 2
  let body := sliceB m 0 (20 + 4 * k)
  firstBad
    [(decide (crc64 body ≠ fieldLe m (20 + 4 * k) 8), .digest),
     (decide (((List.range k).foldl (fun a i => a + fieldLe m (16 + 4 * i) 4) 0) % 2 ^ 32 ≠ fieldLe m (16 + 4 * k) 4), .digest),
     (decide (fieldLe m 8 4 ≠ s.cfg.epoch), .epoch),
     (decide (k ≠ n), .value)]

/-- The first message that satisfies `p`, and the others. -/
def takeFirst {α : Type} (p : α → Bool) : List α → Option (α × List α)
  | [] => none
  | x :: r => if p x then some (x, r) else (takeFirst p r).map (fun y => (y.1, x :: y.2))

/-- XRECV_MESSAGE (R264, R384, R385): the cluster's earliest XRECV that nothing holds and whose message stands in the
receive buffer takes it; a message that passes is written to the tile. -/
def execXrecvMessage (c : Nat) (s : State) : Host.Outcome State Fault Refusal :=
  let want := fun (o : Op) (m : List Byte) => fieldLe m 0 1 == bits o.word 76 69 && fieldLe m 1 1 == bits o.word 68 65
  .next (match s.ops.find? (fun o => o.clusters == [c] && o.opc == 0x61 && o.free && s.chain.xrx.any (want o)) with
  | none => s
  | some o =>
    match takeFirst (want o) s.chain.xrx with
    | none => s
    | some (m, rest) =>
      let n := bits o.word 84 77 + 1
      let t := nth 0 o.tiles 0
      let inv := s.invNum o.ctx
      let s := s.withChain { s.chain with xrx := rest }
      match s.collBad n m with
      | some e => ((s.bump .dsy 1 0x60 1).report { kind := 0x13, ctx := o.ctx, invoc := inv, tile := t }).stopOp o e
      | none =>
        let vs := (List.range n).map (fun i => some (decode32 (fieldLe m (16 + 4 * i) 4)))
        let f := fieldLe m 2 1
        match s.writeTile o c t (wAdd o.word) vs o.rng (bit f 0) (bit f 1) with
        | none =>
          let e := ((s.tile (tkey c t)).badPar 256).getD 0
          (s.tileFault o.ctx inv c t e).stopOp o .parity
        | some s => (s.modTile (tkey c t) (fun x => { x with sat := x.sat || bit f 2 })).retire o)

end Sys2Proof.Machine
end

