-- ==== Sys2Proof/Machine/Regs.lean ====
section
/-!
DEFINITION. Sys2Proof/Machine/Regs.lean: the checked write of a register (R43 to R45), and the locks of the security block
(R527).
-/
namespace Sys2Proof.Machine

/-- What a field's legality check finds (R11, R45 group 2). -/
def fldBad (f : Fld) (v : Nat) : Option Code :=
  let x := bits v f.hi f.lo
  match f.chk with
  | .any => none
  | .rsvd => if x = 0 then none else some .rsvd
  | .enc m => if x ≤ m then none else some .rsvd
  | .rng lo hi c => if lo ≤ x ∧ x ≤ hi then none else some c
  | .algn _ => if x = 0 then none else some .align

/-- The code of the failing field with the highest bit position. -/
def fldsBad (fs : List Fld) (v : Nat) : Option Code :=
  (fs.foldl (fun (acc : Option (Nat × Code)) f =>
    match fldBad f v, acc with
    | some c, none => some (f.hi, c)
    | some c, some a => if f.hi > a.1 then some (f.hi, c) else acc
    | none, _ => acc) none).map (fun p => p.2)

/-- Power and field legality of a write of `v` to the register that starts at `off` (R45 groups 1 and 2). -/
def State.regBad (s : State) (off v : Nat) : Option Code :=
  match pageAt (off / 4096) with
  | none => some .range
  | some (t, i) =>
    if !s.pageOn t i then some .power
    else match findReg t (off % 4096) with
      | none => none
      | some (r, _) => fldsBad r.flds v

/-- Pages whose RWK registers belong to the configuration class (R387). -/
def cfgClass (t : PType) : Bool := !(t == .dev || t == .hif || t == .fhp || t == .gal || t == .dsy)

/-- The stored register takes the value; a write-only register stores nothing (R14). A change of a configuration-class
register advances the configuration epoch (R386). -/
def State.regPut (s : State) (off v : Nat) : State :=
  match pageAt (off / 4096) with
  | none => s
  | some (t, _) =>
    match findReg t (off % 4096) with
    | none => s
    | some (r, _) =>
      if r.acc == .wo || r.acc == .ro then s
      else
        let old := if r.wide then s.rd64 off else s.rd off
        let s := if r.wide then s.put64 off v else s.wr off v
        if r.acc == .rwk && cfgClass t && decide (old ≠ v) then s.cfgAdvance else s

/-- A checked write (R45): power and fields, locks, then the cases of the block's state in their order; a write that
passes takes effect by `act`, and one that does not is rejected whole. -/
def State.regWrite (s : State) (off v : Nat) (lock : Bool) (st : List (Bool × Code)) (act : State → State) : State :=
  match (s.regBad off v).or (if lock then some .lock else firstBad st) with
  | some c => s.rejectOff off c
  | none => act s

/-- A security lock is set (R527). -/
def State.locked (s : State) (b : Nat) : Bool := bit (s.reg .sec 0 0x40) b

end Sys2Proof.Machine
end

