-- ==== Sys2Proof/Machine/Faults.lean ====
section
/-!
DEFINITION. Sys2Proof/Machine/Faults.lean: the fault manager (R399, R400, R407 to R410), array tests, cluster tests, twin
checks and on-demand tests (R401, R404, R405, R115, R423), and the writes of FLT.SLACK and TST.PERIOD (R418, R422).
-/
namespace Sys2Proof.Machine

/-! ### Events (R399, R400) -/

/-- The kind counts (R400). -/
def kindCounts (k : Nat) : Bool := [1, 2, 4, 5, 6, 7].contains k

/-- The reason of the fence that a kind imposes at once (R400, R411). -/
def immediate : Nat → Option Nat
  | 0x09 => some 9 | 0x0A => some 8 | 0x0B => some 5 | 0x0C => some 6 | 0x0D => some 7 | 0x0E => some 0x0A | 0x0F => some 0x0B
  | 0x10 => some 0x0C | _ => none

/-- The event enters the ring of 64 and EVCNT. -/
def State.eventIn (s : State) (r : Report) (u cls : Nat) : State :=
  let e : Event := { kind := r.kind, cls := cls, ctx := r.ctx, invoc := r.invoc, tile := r.tile, unit := u, detail := r.detail }
  ({ s with events := (e :: s.events).take 64 }).bump64 .flt 0 0x48 1

/-- An earlier counted event still counts towards the window of a new one (R409). -/
def State.inWindow (s : State) (ctx invoc : Nat) (e : HistEv) : Bool :=
  !e.old && (if e.ctx = ctx ∧ ctx ≠ 255 then decide (invoc - e.invoc < 1000000) else decide (s.invAll - e.all < 1000000))

/-- A context uses a unit: arrays it holds, clusters its images name, compositors of its streams; a galley slice serves every
context. -/
def State.usesUnit (s : State) (c u : Nat) : Bool :=
  let k := u / 128 % 64
  let x := s.ctx c
  match u / 8192 with
  | 0 => let r := s.arr (akey k (u % 128)); r.owned && r.ctx == c
  | 1 => (imgClusters x.la.image).contains k || (imgClusters x.lb.image).contains k
  | 2 => x.cmps.contains k || (k == 16 && x.cmps.any s.carried)
  | 4 => true
  | _ => false

/-- A counted event enters a unit's history, and no round that it falls in is clean (R403, R410). -/
def State.recordEvent (s : State) (r : Report) (u : Nat) : State :=
  let s := s.modUnit u (fun x => { x with total := min 65535 (x.total + 1)
                                          evs := { kind := r.kind, ctx := r.ctx, invoc := r.invoc, all := s.invAll } :: x.evs })
  s.ctxList.foldl (fun s c => if s.usesUnit c u then s.modCtx c (fun x => { x with roundBad := true }) else s) s

/-- A fence of the fault manager; programming that waited for the unit goes on without it. -/
def State.fenceNow (s : State) (u reason : Nat) : State :=
  let r := s.arr (akey (u / 128 % 64) (u % 128))
  let s := s.fence u reason
  if u / 8192 = 0 ∧ r.owned then s.progCheck r.ctx else s

/-- A transient counted event of a unit: its history, and a fence by the lifetime or the window rule (R409). -/
def State.judge (s : State) (r : Report) (u : Nat) : State :=
  let n := ((s.unit u).evs.filter (s.inWindow r.ctx r.invoc)).length
  let s := (s.recordEvent r u).bump .flt 0 0x94 1
  let s := if (s.unit u).total ≥ s.reg .flt 0 0x40 then s.fenceNow u 4 else if n ≥ 2 then s.fenceNow u 3 else s
  s.histWrite u

/-- The invocation that an event concerns stops, if it is still in flight. -/
def State.stopInvoc (s : State) (ctx invoc : Nat) (c : Code) : State :=
  match (s.ctx ctx).inv with
  | some v => if v.num = invoc then s.stopAt ctx ((findIdx (fun st => !st.ended) v.streams 0).getD 0) c else s
  | none => s

/-- A permanent fault: the unit is fenced at once and the invocation stops (R408). -/
def State.permanent (s : State) (r : Report) (u : Nat) : State :=
  let s := (s.recordEvent r u).bump .flt 0 0x90 1
  ((s.fenceNow u 2).histWrite u).stopInvoc r.ctx r.invoc .fenced

/-- An array test made for the fault manager on a copy (R407): its count, and its own report on failure. -/
def State.copyTest (s : State) (r : Report) (u : Nat) (fail : Bool) : State :=
  let k := akey (u / 128) (u % 128)
  let s := s.modArr k (fun a => { a with testT := a.testT + 1, retest := a.retest || fail })
  if fail then (s.bump .tst 0 0x58 1).report { kind := 4, ctx := r.ctx, invoc := r.invoc, unit := u }
  else (s.bump64 .tst 0 0x50 1).modUnit u (fun x => { x with passAt := s.invAll })

/-- A report that concerns a CRITICAL context's CHECK, TEST or COPY is repeated (R408). -/
def State.repeats (s : State) (r : Report) : Bool := decide (r.ctx ≠ 255) && (s.ctx r.ctx).critical && [2, 4, 5].contains r.kind

/-- The units that a counted report is charged to (R407, R408). -/
def Report.charged (r : Report) (rep0 rep1 : Bool) : List Nat :=
  if r.kind = 5 then (if rep0 && !rep1 then [r.unit] else if rep1 && !rep0 then [r.unit2] else [r.unit, r.unit2]) else [r.unit]

/-- A counted report: PERMANENT if its repeat fails again, else TRANSIENT (R407 to R409). -/
def State.countedFault (s : State) (r : Report) (rep0 rep1 : Bool) : State :=
  let us := r.charged rep0 rep1
  let perm := s.repeats r && (rep0 || (r.kind == 5 && rep1))
  let s := if s.repeats r then s.bump .tst 0 0x70 1
    else if r.kind = 5 then (s.copyTest r r.unit rep0).copyTest r r.unit2 rep1 else s
  (us.foldl (fun s u => if perm then s.permanent r u else s.judge r u) (s.eventIn r (us.headD r.unit) (if perm then 2 else 1))).settleTests

/-- FAULT_EVENT (R399, R407 to R410): the fault manager takes its earliest report. `rep0` and `rep1` answer what it asks
of the units: for a CRITICAL context whether the repeat fails again (for COPY: copy 0's, copy 1's repeat gives its first
result), for the copies of another context whether copy 0's and copy 1's array tests fail. -/
def execFaultEvent (rep0 rep1 : Bool) (s : State) : Host.Outcome State Fault Refusal :=
  .next (match s.reports with
  | [] => s
  | r :: rest =>
    let s := s.withReports rest
    if r.unit = 0xFFFF then s.eventIn r 0xFFFF 0
    else match immediate r.kind with
    | some why => (((s.eventIn r r.unit 3).fenceNow r.unit why).histWrite r.unit).settleTests
    | none => if !kindCounts r.kind then (s.eventIn r r.unit 0).histWrite r.unit else s.countedFault r rep0 rep1)

/-! ### Array tests (R401) -/

/-- The partner cluster that computes a test's reference; none when the cluster computes its own. -/
def State.partner (s : State) (c : Nat) : Option Nat :=
  [c ^^^ 16, c ^^^ 32].find? (fun p => decide (p < 64) && s.cluOn p && !s.cluFenced p)

/-- Seed of a field test's generator (R401, R404). -/
def fieldSeed (seed inv mark key : Nat) : Nat :=
  let v := seed ^^^ ((inv <<< 16) % 2 ^ 64) ^^^ (mark <<< 48) ^^^ key
  if v = 0 then 1 else v

/-- The bytes of an array's test vector, one sub-vector per group. -/
def testSubs (r : Arr) (seed inv key : Nat) : List (List Byte) :=
  let n := r.layer.rows
  let bs := testvecBytes (fieldSeed seed inv 0x7E57 key) (n * r.layer.groups) r.layer.inbits (!r.layer.insigned)
  (List.range r.layer.groups).map (fun k => sliceB bs (n * k) n)

/-- The array applies a test vector: its counters advance as for any vector, no tile and no statistics take its results, and
its check values are compared (R401 step 2, R398). -/
def State.applyTest (s : State) (k : Nat) (subs : List (List Byte)) (dev : List Int) (inv : Nat) : State × VecOut :=
  let r := s.arr k
  let xs := rowInputs r.layer subs
  let out := vecOut r xs dev s.free
  let vec := satAdd64 r.vec 1
  let per := 2 ^ (s.reg .cal (k / 128) 0x48)
  let s := s.setArr k { r with vec := vec, zeros := satAdd64 r.zeros (b2n xs.isEmpty), coarse := satAdd64 r.coarse out.nco
                               ovr := satAdd64 r.ovr out.nov, readDue := r.readDue || decide (vec / per > r.vec / per) }
  let s := s.withFree (s.free + 260 * r.layer.groups)
  let s := out.cks.foldl (fun s ck =>
    let e := ck.2.2.1
    if e ≤ (s.ctx r.ctx).tol then s
    else (s.modArr k (fun r => { r with ckfail := satNat 32 (r.ckfail + 1), ckmag := min e 0xFFFFF, ckhalf := ck.2.1, ckgroup := ck.1 })).report
      { kind := if ck.2.2.2 then 3 else 2, ctx := r.ctx, invoc := inv, unit := uArr (k / 128) (k % 128), detail := min e 65535 }) s
  (s, out)

/-- Eight exact outputs of a group from slice bytes (R401 step 4). -/
def refOutputs (l : Layer) (sl : List Byte) (subs : List (List Byte)) (g first : Nat) : List Int :=
  (List.range 8).map (fun j =>
    (List.range l.rows).foldl (fun (t : Int) i =>
      t + (feedByte l (nth 0 (nth [] subs g) i)).1 * (nth 0 sl ((g * l.rows + i) * l.outs + first + j)).toInt) 0)

/-- Largest `|v - y / g|` of the outputs checked, times g. -/
def testDiff (g : Nat) (vs ys : List Int) : Nat := ((List.zip vs ys).map (fun (p : Int × Int) => (p.1 * (g : Int) - p.2).natAbs)).foldl max 0

/-- The outcome of an array test is recorded (R401 step 5, R402, R403, R418, R423). -/
def State.testVerdict (s : State) (k diff : Nat) : State :=
  let r := s.arr k
  let u := uArr (k / 128) (k % 128)
  let x := s.ctx r.ctx
  let bad := decide (diff > tolU x.tol * r.layer.g)
  let s := s.modArr k (fun r => { r with testDue := false, testT := r.testT + 1, retest := bad })
  let s := if bad then
      (((s.bump .tst 0 0x58 1).modCtx r.ctx (fun x => { x with roundBad := true })).report
        { kind := 4, ctx := r.ctx, invoc := r.testI, unit := u, detail := min 65535 (roundFree diff r.layer.g s.free) }).withFree (s.free + 1)
    else (s.bump64 .tst 0 0x50 1).modUnit u (fun y => { y with passAt := match x.log.find? (fun e => e.invoc == r.testI) with | some e => e.all | none => y.passAt })
  ((s.testCount 12 k (!bad)).roundCheck r.ctx).settleTests

/-- A test that finds no backing image is skipped (R402). -/
def State.testSkip (s : State) (k : Nat) : State :=
  let c := (s.arr k).ctx
  let s := (s.modArr k (fun r => { r with testDue := false, retest := false })).bump .tst 0 0x64 1
  ((s.modCtx c (fun x => { x with roundBad := true })).roundCheck c).settleTests

/-- A comparison vector of TEST_RUN (R423 test 2): both copies apply the same vector; the second one to do so decides. -/
def State.compareVector (s : State) (k : Nat) (dev : List Int) : State :=
  let r := s.arr k
  let c := k / 128
  let x := s.ctx r.ctx
  match s.jobs.find? (fun j => j.kind == 15 && j.n.contains k) with
  | none => s.modArr k (fun r => { r with cmpDue := false })
  | some j =>
    let two := (s.copies r.ctx r.gen r.logical c).map (akey c)
    let key0 := two.headD k
    let out := s.applyTest k (testSubs r x.seed x.invoc key0) dev x.invoc
    let s := out.1.modArr k (fun r => { r with cmpDue := false, cmpVals := some out.2.vals })
    match two.find? (fun q => q != k && (s.arr q).cmpVals.isSome && j.n.contains q) with
    | none => s
    | some q =>
      let d := copyDiff ((s.arr q).cmpVals.getD []) out.2.vals
      let bad := decide (d > tolU x.tol)
      let s := if bad then s.report { kind := 5, ctx := r.ctx, invoc := x.invoc, unit := uArr c (nth 0 two 0 % 128), unit2 := uArr c (nth 0 two 1 % 128), detail := min d 65535 } else s
      let s := (s.modArr k (fun r => { r with cmpVals := none })).modArr q (fun r => { r with cmpVals := none })
      (s.testCount 15 k (!bad)).settleTests

/-- ARRAY_TEST (R401, R423): an array's due test vector, or its comparison vector, is applied. -/
def execArrayTest (c a : Nat) (dev : List Int) (s : State) : Host.Outcome State Fault Refusal :=
  .next (
    let k := akey c a
    let r := s.arr k
    if r.st ≠ 3 ∨ !s.cluOn c then s
    else if r.testDue then
      let b := s.backingSlice r.ctx r.gen r.logical
      match b.2 with
      | none => b.1.testSkip k
      | some sl =>
        let subs := testSubs r (s.ctx r.ctx).seed r.testI k
        let out := b.1.applyTest k subs dev r.testI
        let s := if (s.partner c).isNone then out.1.bump .tst 0 0x68 1 else out.1
        let g := r.testT % r.layer.groups
        let first := 8 * (r.testT % (r.layer.outs / 8))
        s.testVerdict k (testDiff r.layer.g ((nth [] out.2.vals g).drop first) (refOutputs r.layer sl subs g first))
    else if r.cmpDue then s.compareVector k dev
    else s)

/-- TWIN_CHECK (R115, R423): a twin check that is owed. -/
def execTwinCheck (c a : Nat) (tw1 tw2 : List Int) (s : State) : Host.Outcome State Fault Refusal :=
  .next (
    let k := akey c a
    if !(s.arr k).twinDue || (s.arr k).st == 2 || !s.cluOn c then s
    else (((s.modArr k (fun r => { r with twinDue := false })).twin k tw1 tw2).testCount 14 k (twinPass tw1 tw2)).settleTests)

/-! ### Cluster tests (R404, R405) -/

/-- Invocations in flight of the contexts that own a test tile. -/
def State.testOwners (s : State) (c : Nat) : List Nat :=
  s.ctxList.filter (fun x => (s.ctx x).inv.isSome && (s.testTiles c).any (fun t => let y := s.tile (tkey c t); y.owned && y.ctx == x))

/-- What a passing test of a cluster or compositor clears: the entries of invocations that have ended (R418). -/
def State.passNow (s : State) : Nat :=
  (s.ctxList.filterMap (fun c => if (s.ctx c).inv.isSome then ((s.ctx c).log.getLast?).map (fun e => e.all - 1) else none)).foldl min s.invAll

/-- A test tile after a test that saved nothing: products of random operands, in valid entries (R404 step 3). -/
def State.testTileLeft (s : State) (key : Nat) : State :=
  let fr := s.free
  (s.modTile key (fun t => (List.range 256).foldl (fun t i => t.setE i (withPar ((Config.freeValue (fr + i)).toNat % 2 ^ 38))) t)).withFree (fr + 256)

/-- A cluster test's outcome: its count, its report, and the TEST_RUN that waits for it. -/
def State.clusterVerdict (s : State) (c : Nat) (pass : Bool) : State :=
  let s := s.modClu c (fun u => { u with testDue := false, marchDue := u.marchDue || !pass })
  let s := s.ctxList.foldl (fun s x => s.modCtx x (fun y => y.modInv (fun v => { v with given := FMap.put 0 v.given c 0, heldTest := false }))) s
  let s := if pass then (s.bump .tst 0 0x5C 1).modUnit (uClu c) (fun x => { x with passAt := s.passNow })
    else (s.bump .tst 0 0x60 1).report { kind := 6, unit := uClu c }
  (s.testCount 13 c pass).settleTests

/-- CLUSTER_TEST (R404): a due test runs once no invocation in flight owns a test tile. -/
def execClusterTest (c : Nat) (pass : Bool) (s : State) : Host.Outcome State Fault Refusal :=
  .next (
    if !(s.clu c).testDue || s.cluFenced c || !s.cluOn c || !(s.testOwners c).isEmpty then s
    else ((s.testTiles c).foldl (fun s t => s.testTileLeft (tkey c t)) s).clusterVerdict c pass)

/-- No operation has an access to the tile before it (R405 step 3). -/
def State.tileQuiet (s : State) (c t : Nat) : Bool := !s.ops.any (fun o => decide (o.stage ≥ 1) && o.acc.any (fun a => a.cl == c && a.tile == t))

/-- Of those, the ones that a test past MAXDEFER.OPS holds (R405). -/
def State.testLate (s : State) (c : Nat) : List Nat :=
  (s.testOwners c).filter (fun x => match (s.ctx x).inv with | some v => decide (FMap.get 0 v.given c > s.reg .tst 0 0x4C) || v.heldTest | none => false)

/-- An invocation is preempted: it and its log entry say so, and TST.PREEMPTS counts (R405, R417). -/
def State.preempt (s : State) (x : Nat) : State :=
  (s.modCtx x (fun y => { (y.modInv (fun v => { v with preempted := true })) with
    log := if y.frozen then y.log else match y.log.getLast? with | some e => y.log.dropLast ++ [{ e with preempted := true }] | none => y.log })).bump .tst 0 0x6C 1

/-- A test tile is saved: a parity error that this finds stops the invocation that owns the tile (R162, R405). -/
def State.saveTestTile (s : State) (c t : Nat) : State :=
  match (s.tile (tkey c t)).badPar 256 with
  | none => s
  | some e =>
    let x := (s.tile (tkey c t)).ctx
    (s.tileFault x (s.invNum x) c t e).stopInvoc x (s.invNum x) .parity

/-- CLUSTER_TEST_PREEMPT (R405): past MAXDEFER.OPS the streams are held; once the test tiles are quiet the test runs with
both saved, they are restored exactly, and the streams resume. -/
def execClusterTestPreempt (c : Nat) (pass : Bool) (s : State) : Host.Outcome State Fault Refusal :=
  .next (
    let own := s.testOwners c
    if !(s.clu c).testDue || s.cluFenced c || !s.cluOn c || (s.testLate c).isEmpty then s
    else if !(s.testTiles c).all (s.tileQuiet c) then
      own.foldl (fun s x => s.modCtx x (fun y => y.modInv (fun v => { v with heldTest := true }))) s
    else ((s.testTiles c).foldl (fun s t => s.saveTestTile c t) (own.foldl State.preempt s)).clusterVerdict c pass)

/-! ### TEST_RUN (R423) -/

/-- SERVING arrays of the contexts a TEST_RUN names, in its clusters. -/
def State.testArrays (s : State) (ctx mask : Nat) (p : Arr → Bool) : List Nat :=
  s.arrKeys (fun k r => bit mask (k / 128) && r.owned && (ctx == 255 || r.ctx == ctx) && p r)

/-- Arrays that TEST_RUN names for test `t` (0 array test, 1 twin check, 2 comparison): with a backing image, not being
programmed, or with both copies serving (R423). -/
def State.testPick (s : State) (t m c : Nat) : List Nat :=
  if t = 0 then s.testArrays c m (fun r => r.st == 3 && r.forArr.isNone && ((s.ctx r.ctx).letter r.gen).backing.isSome)
  else if t = 1 then
    (((List.range 64).filter (fun k => bit m k && s.cluOn k)).flatMap (fun k => (List.range 68).map (akey k))).filter (fun k =>
      let r := s.arr k; r.st != 2 && (c == 255 || (r.owned && r.ctx == c)))
  else (s.testArrays c m (fun r => r.st == 3)).filter (fun k =>
    let r := s.arr k
    let two := (s.copies r.ctx r.gen r.logical (k / 128)).map (akey (k / 128))
    two.length == 2 && two.all (fun q => (s.arr q).st == 3))

/-- An array owes test `t`. -/
def State.testMark (t : Nat) (s : State) (k : Nat) : State :=
  s.modArr k (fun r =>
    if t = 0 then (if r.testDue then r else { r with testDue := true, testI := (s.ctx r.ctx).invoc })
    else if t = 1 then { r with twinDue := true }
    else { r with cmpDue := true, cmpVals := none })

/-- TEST_RUN: what each test owes is marked, and the command waits for it. -/
def execTestRun (e : Entry) (s : State) : Host.Outcome State Fault Refusal :=
  .next (s.begin e 0x0D (fun s =>
    let t := e.p 8 1
    let m := e.p 16 8
    let c := e.ctx
    match (entryBad e [2, 3] false [(8, 1), (16, 8)] false).or (firstBad
      [(decide (t > 2) || m == 0, .value), ((List.range 64).any (fun k => bit m k && s.cluFenced k), .fenced),
       (c != 255 && !(s.ctx c).ex, .state)]) with
    | some k => s.ctxDone e k 0 0
    | none =>
      let ks := s.testPick t m c
      let s := ks.foldl (State.testMark t) s
      (s.withJobs (s.jobs ++ [({ e := e, kind := if t = 0 then 12 else 13 + t, ctx := c, n := ks } : Job)])).settleTests))

/-- SLACK (R418, R420): the context's log is emptied and released. -/
def execSlack (value : Word) (s : State) : Host.Outcome State Fault Refusal :=
  let c := bits value.toNat 4 0
  .next (s.regWrite (rOff .flt 0 0x84) value.toNat false [(bit value.toNat 31 && !(s.ctx c).frozen, .state)] (fun s =>
    if bit value.toNat 31 then
      s.modCtx c (fun x => { x with log := [], frozen := false, faulted := false, multi := false, lost := false, slUnit := 0, slReason := 0 })
    else s))

/-- PERIOD_WRITE (R422): the new length counts for each context from its next round. -/
def execPeriodWrite (value : Word) (s : State) : Host.Outcome State Fault Refusal :=
  .next (s.regWrite (rOff .tst 0 0x44) value.toNat (s.locked 2) [] (fun s =>
    let p := value.toNat
    s.ctxList.foldl (fun s c => s.modCtx c (fun x => { x with newPeriod := some p })) (s.regPut (rOff .tst 0 0x44) p)))

end Sys2Proof.Machine
end

