-- ==== Sys2Proof/Machine/Fronthaul.lean ====
section
/-!
DEFINITION. Sys2Proof/Machine/Fronthaul.lean: the fronthaul ports (R298 to R310, R321 to R323), slots and their section maps
(R311 to R317), the S0 buffers and the galley maps (R278 to R281), and the delivery of LLRs (R318 to R320).
-/
namespace Sys2Proof.Machine

def State.carrier (s : State) (c : Nat) : Carrier := FMap.get {} s.carriers c
def State.modCarrier (s : State) (c : Nat) (f : Carrier → Carrier) : State := s.withCarriers (FMap.put {} s.carriers c (f (s.carrier c)))
def State.port (s : State) (p : Nat) : Fhp := FMap.get {} s.fhp p
def State.modPort (s : State) (p : Nat) (f : Fhp → Fhp) : State := s.withFhp (FMap.put {} s.fhp p (f (s.port p)))

/-! ### Section maps (R309, R313) -/

/-- One entry of a section map. -/
structure SecEnt where
  secId : Nat
  stream : Nat
  sym0   : Nat
  nsym   : Nat
  comp   : Nat
  prb0   : Nat
  nprb   : Nat
  deriving DecidableEq, Repr

def secEnt (map : List Byte) (i : Nat) : SecEnt :=
  let b := sliceB map (16 * i) 16
  { secId := fieldLe b 0 2 % 4096, stream := fieldLe b 2 1, sym0 := fieldLe b 3 1, nsym := fieldLe b 4 1, comp := fieldLe b 5 1
    prb0 := fieldLe b 6 2, nprb := fieldLe b 8 2 }

def secEnts (map : List Byte) (n : Nat) : List SecEnt := (List.range n).map (secEnt map)

/-- The supported udCompHdr values: uncompressed, or block floating point of 8, 9, 12, 14 or 16 bits. -/
def compOk (c : Nat) : Bool := [0x00, 0x81, 0x91, 0xC1, 0xE1, 0x01].contains c

/-- Mantissa bits of a compression, and the bytes of one PRB (R307). -/
def compWidth (c : Nat) : Nat := if bits c 7 4 = 0 then 16 else bits c 7 4
def prbBytes (c : Nat) : Nat := if bits c 3 0 = 0 then 48 else 1 + 3 * compWidth c

def SecEnt.bad (x : SecEnt) : Bool :=
  decide (x.stream > 31 ∨ x.sym0 > 13 ∨ x.nsym = 0 ∨ x.sym0 + x.nsym > 14 ∨ x.prb0 > 272 ∨ x.nprb = 0 ∨ x.prb0 + x.nprb > 273)
    || !compOk x.comp

/-- Two entries share an identity, or a symbol and a PRB of one stream. -/
def SecEnt.clash (x y : SecEnt) : Bool :=
  x.stream == y.stream && (x.secId == y.secId
    || decide (x.sym0 < y.sym0 + y.nsym ∧ y.sym0 < x.sym0 + x.nsym ∧ x.prb0 < y.prb0 + y.nprb ∧ y.prb0 < x.prb0 + x.nprb))

def secClash : List SecEnt → Bool
  | [] => false
  | x :: r => r.any (SecEnt.clash x) || secClash r

/-- The checks of a section map. -/
def mapBad (map : List Byte) (n : Nat) : Option Code :=
  let es := secEnts map n
  firstBad [((List.range n).any (fun i => decide (bits (fieldLe map (16 * i) 2) 15 12 ≠ 0) || !zeroAt map (16 * i + 10) 6), .rsvd),
    (es.any SecEnt.bad || secClash es, .value)]

def Slot.ents (l : Slot) : List SecEnt := secEnts l.map (l.entry.p 24 2)

/-! ### Progress and closing (R28, R212, R315 to R317) -/

/-- Key of a stream-PRB of a slot. -/
def prbKey (sym stream prb : Nat) : Nat := (sym * 32 + stream) * 273 + prb

/-- Leading symbols that are all complete. -/
def leading : List Nat → Nat
  | 0 :: r => leading r + 1
  | _ => 0

/-- The global semaphore that counts a slot's symbols (R212). -/
def slotSem (car num : Nat) : Nat := 240 + 2 * car + num % 2

/-- A map entry all of whose PRBs on all its symbols arrived. -/
def Slot.arrived (l : Slot) (x : SecEnt) : Bool :=
  (List.range x.nsym).all (fun i => (List.range x.nprb).all (fun j => FMap.get false l.got (prbKey (x.sym0 + i) x.stream (x.prb0 + j))))

/-- Address of a resource element's erasure word in an S0 buffer, and of a stream's value. -/
def eraAddr (base sym re : Nat) : Nat := base + 0x59A000 + 4 * (3276 * sym + re)
def valAddr (base sym re stream : Nat) : Nat := base + 419328 * sym + 128 * re + 4 * stream

/-- A resource element's value at `a` becomes undefined: a free value. -/
def State.freeRe (s : State) (a : Nat) : State := (s.memWrite a (leBytes 4 ((Config.freeValue s.free).toNat % 2 ^ 32))).withFree (s.free + 1)

/-- A stream-PRB that did not arrive: its twelve values are undefined (R317). -/
def State.freePrb (s : State) (base sym stream prb : Nat) : State :=
  (List.range 12).foldl (fun s i => s.freeRe (valAddr base sym (12 * prb + i) stream)) s

/-- Every stream-PRB of the slot's map that is still outstanding at closure is undefined (R317). -/
def State.loseIq (s : State) (base : Nat) (l : Slot) : State :=
  l.ents.foldl (fun s x => (List.range x.nsym).foldl (fun s i => (List.range x.nprb).foldl (fun s j =>
    if FMap.get false l.got (prbKey (x.sym0 + i) x.stream (x.prb0 + j)) then s else s.freePrb base (x.sym0 + i) x.stream (x.prb0 + j)) s) s) s

/-- The slot closes: its counts are recorded and its symbol counter becomes 14. -/
def State.closeSlot (s : State) (car num : Nat) : State :=
  match s.slotOf car num with
  | none => s
  | some l =>
    if l.closed then s
    else
      let n := (l.ents.filter l.arrived).length
      let er := l.ents.length - n
      let k := (s.carrier car).closes + 1
      let s := (s.modCarrier car (fun x => { x with closes := k })).modSlot car num (fun l =>
        { l with closed := true, closedAt := k, present := n, erased := er })
      let s := if l.buf then (s.loseIq (s.s0Base car num) l).setGs (slotSem car num) 14 else s
      s.bump .fhp car 0xC0 er

/-- Among the carrier's two most recently closed slots (R306, R314). -/
def Carrier.recent (x : Carrier) (l : Slot) : Bool := l.closed && decide (x.closes ≤ l.closedAt + 1)

/-- Slots whose completion is written are kept while a SLOT_CLOSE or a late packet may still name them. -/
def Carrier.tidy (x : Carrier) : Carrier := { x with slots := x.slots.filter (fun l => !l.done || x.recent l) }

/-! ### SLOT_DESC (R311 to R314) -/

/-- Number `m` is newer than `n` (R306). -/
def slotNewer (m n : Nat) : Bool := newer32 m n

/-- The decision of R312 on a slot number. -/
def Carrier.numBad (x : Carrier) (m : Nat) : Option Code :=
  let op := x.slots.filter (fun l => !l.closed)
  if !op.isEmpty && op.all (fun l => slotNewer l.num m) then some .late
  else if x.slots.any (fun l => l.num == m && (!l.closed || !l.ended)) then some .state
  else match x.top with
    | none => none
    | some n => if slotNewer m n then none else some .value

/-- A carrier whose S0 and S3 maps are enabled (R280). -/
def State.mapped (s : State) (c : Nat) : Bool := bit (s.reg .gal 0 (0x40 + 4 * c)) 31 && bit (s.reg .gal 0 (0x50 + 4 * c)) 31

/-- The checks of SLOT_DESC on its parameters, in ascending order. -/
def State.descCheck (s : State) (e : Entry) : Option Code :=
  let c := e.p 8 1
  (firstBad [(decide (c > 3), .value)]).or (((s.carrier c).numBad (e.p 12 4)).or (firstBad
    [(!(s.ctx e.ctx).ex || !s.mapped c, .state), (decide (e.p 16 8 % 16 ≠ 0), .align), (decide (e.p 24 2 = 0 ∨ e.p 24 2 > 4096), .value),
     (decide (e.p 26 1 = 0 ∨ e.p 26 1 > 64), .value), (decide (e.p 27 1 = 0 ∨ e.p 27 1 > 8), .value),
     (decide (e.p 28 8 % 64 ≠ 0), .align), (decide (e.p 36 1 ≠ 5 ∧ e.p 36 1 ≠ 8), .value)]))

/-- SLOT_DESC: its parameters and its section map are checked; then slots two or more older close, and the slot waits for
its buffer and its invocation. -/
def execSlotDesc (e : Entry) (map : List Byte) (s : State) : Host.Outcome State Fault Refusal :=
  .next (s.begin e 0x0A (fun s =>
    let c := e.p 8 1
    let m := e.p 12 4
    match (entryBad e [0] true [(8, 1), (12, 25)] false).or ((s.descCheck e).or (mapBad map (e.p 24 2))) with
    | some k => s.ctxDone e k 0 0
    | none =>
      let old := (s.carrier c).slots.filter (fun l => !l.closed && !slotNewer l.num ((m + 2 ^ 32 - 2) % 2 ^ 32))
      let s := old.foldl (fun s l => s.closeSlot c l.num) s
      let s := s.modCarrier c (fun x => { x.tidy with top := some m
                                                      slots := x.tidy.slots ++ [{ entry := e, num := m, ctx := e.ctx, map := map }] })
      s.modCtx e.ctx (fun x => { x with trigs := x.trigs ++ [{ slot := true, entry := e, carrier := c, slotNum := m }] })))

/-- SLOT_CLOSE (R314): an open slot closes; a slot just closed answers with its counts. -/
def execSlotClose (e : Entry) (s : State) : Host.Outcome State Fault Refusal :=
  .next (s.begin e 0x0B (fun s =>
    let c := e.p 8 1
    let m := e.p 12 4
    match (entryBad e [0] false [(8, 1), (12, 4)] false).or (firstBad [(decide (c > 3), .value)]) with
    | some k => s.fail e k
    | none =>
      let s := if (s.carrier c).slots.any (fun l => l.num == m && !l.closed) then s.closeSlot c m else s
      match (s.carrier c).slots.reverse.find? (fun l => l.num == m && (s.carrier c).recent l) with
      | none => s.fail e .state
      | some l => (s.complete e .ok l.present l.erased).modCarrier c Carrier.tidy))

/-! ### S0 buffers (R281) -/

/-- `n` bytes of memory from address `a` all hold `b`. -/
def fillBytes (d : Byte) (m : FMap Byte) (a n : Nat) (b : Byte) : FMap Byte :=
  m.filter (fun p => decide (p.1 < a)) ++ (if b = d then [] else (List.range n).map (fun i => (a + i, b)))
    ++ m.filter (fun p => decide (a + n ≤ p.1))

/-- `n` bytes of the galley from `a` all written as `b`, with their parity. -/
def State.fillMem (s : State) (a n : Nat) (b : Byte) : State := { s with mem := fillBytes 0 s.mem a n b, parBad := clearBad s.parBad a n }

/-- Bytes of a buffer's erasure words (R278). -/
def eraBytes : Nat := 4 * 14 * 3276

/-- Stream-PRBs that a map names for each symbol (R315). -/
def symCounts (es : List SecEnt) : List Nat :=
  (List.range 14).map (fun m => (es.filter (fun x => decide (x.sym0 ≤ m ∧ m < x.sym0 + x.nsym))).foldl (fun t x => t + x.nprb) 0)

/-- S0_BUFFER_ASSIGN: the carrier's oldest slot without a buffer takes it once the slot before it in that buffer has ended
its invocation; every stream of every resource element is erased. -/
def execS0BufferAssign (car : Nat) (s : State) : Host.Outcome State Fault Refusal :=
  .next (match (s.carrier car).slots.find? (fun l => !l.buf && !l.done) with
  | none => s
  | some l =>
    if ((s.carrier car).before l.num).any (fun p => !p.ended) then s
    else
      let b := s.s0Base car l.num
      let cs := symCounts l.ents
      let s := s.fillMem (b + 0x59A000) eraBytes 0xFF#8
      let s := s.modSlot car l.num (fun l => { l with buf := true, left := cs })
      let s := if l.closed then s.loseIq b l else s
      s.setGs (slotSem car l.num) (if l.closed then 14 else leading cs))

/-! ### Frames (R302 to R310) -/

/-- A frame is dropped: its counter, and LASTDROP. -/
def State.drop (s : State) (p cnt reason eaxc : Nat) : State := (s.bump .fhp p cnt 1).setReg .fhp p 0xB8 (reason + ((eaxc % 65536) <<< 16))

/-- VLAN tags of a frame, at most two: offset of its EtherType, and the innermost VID. -/
def vlanTags (fr : List Byte) : Nat × Option Nat :=
  let tag := fun (o : Nat) => let t := beNat (sliceB fr o 2); t == 0x88A8 || t == 0x8100
  let vid := fun (o : Nat) => some (beNat (sliceB fr (o + 2) 2) % 4096)
  if !tag 12 then (12, none) else if !tag 16 then (16, vid 12) else (20, vid 16)

/-- Check 3 of R302: address, VLAN and EtherType. -/
def State.addrOk (s : State) (p : Nat) (fr : List Byte) : Bool :=
  let cfg := s.reg .fhp p 0x40
  let t := vlanTags fr
  (bit cfg 2 || leNat (fr.take 6) == s.reg64 .fhp p 0x50 % 2 ^ 48)
    && (!bit cfg 3 || t.2 == some (s.reg .fhp p 0x58 % 4096)) && beNat (sliceB fr t.1 2) == 0xAEFE

/-- Numerology of a port. -/
def State.mu (s : State) (p : Nat) : Nat := bits (s.reg .fhp p 0x40) 6 5

/-- Fields of the headers at offset `h`, the first byte of the eCPRI common header (R303). The places of the application
header's fields are O-RAN's (PRESUMED: log 60). -/
structure UHdr where
  payload : Nat
  eaxc    : Nat
  seq     : Nat
  frame   : Nat
  sub     : Nat
  slot    : Nat
  sym     : Nat
  ok      : Bool
  deriving DecidableEq, Repr

def State.header (s : State) (p h : Nat) (fr : List Byte) : UHdr :=
  let b := fun (i : Nat) => fieldLe fr (h + i) 1
  let n := beNat (sliceB fr (h + 2) 2)
  let sub := bits (b 10) 7 4
  let slot := (b 10 % 16) * 4 + bits (b 11) 7 6
  let sym := b 11 % 64
  { payload := n, eaxc := beNat (sliceB fr (h + 4) 2), seq := b 6, frame := b 9, sub := sub, slot := slot, sym := sym
    ok := bits (b 0) 7 4 == 1 && bits (b 0) 0 0 == 0 && b 1 == 0 && decide (8 ≤ n ∧ h + 4 + n + 4 ≤ fr.length) && b 7 == 0x80
      && b 8 == 0x10 && decide (sub ≤ 9 ∧ slot < 2 ^ s.mu p ∧ sym ≤ 13) }

/-- Carrier and stream of an eAxC ID (R305). -/
def State.eaxcMap (s : State) (p id : Nat) : Option (Nat × Nat) :=
  let m := s.reg .fhp p 0x48
  let x := s.reg .fhp p 0x44
  let cc := (id >>> bits x 3 0) % 2 ^ bits x 5 4
  let st := (id >>> bits x 11 8) % 2 ^ bits x 14 12
  let ent := bits (s.reg .fhp p 0x4C) (4 * cc + 3) (4 * cc)
  if id &&& bits m 15 0 = bits m 31 16 ∧ bit ent 2 ∧ st < 32 then some (ent % 4, st) else none

/-- The slot index of a packet, and the period W of slot numbers (R306). -/
def slotIndex (mu : Nat) (h : UHdr) : Nat × Nat := (((h.frame * 10 + h.sub) * 2 ^ mu + h.slot) % (2560 * 2 ^ mu), 2560 * 2 ^ mu)

/-- The `i`th mantissa of `w` bits, most significant bit first. -/
def mantissa (bs : List Byte) (w i : Nat) : Int := sext w (beNat bs >>> (8 * bs.length - w * (i + 1)) % 2 ^ w)

/-- The 24 values of a PRB, and how many were clamped (R309). -/
def prbValues (comp : Nat) (bs : List Byte) : List Int × Nat :=
  if bits comp 3 0 = 0 then ((List.range 24).map (fun i => sext 16 (beNat (sliceB bs (2 * i) 2))), 0)
  else
    let e := fieldLe bs 0 1 % 16
    let xs := (List.range 24).map (fun i => mantissa (bs.drop 1) (compWidth comp) i * 2 ^ e)
    (xs.map (clampI (-32768) 32767), (xs.filter (fun x => decide (x < -32768 ∨ x > 32767))).length)

/-- A slot's progress after the PRB of a stream arrived (R310, R315). -/
def Slot.arrive (l : Slot) (sym stream prb : Nat) (fresh : Bool) : Slot :=
  { l with got := FMap.put false l.got (prbKey sym stream prb) true, left := if fresh then modifyNth (fun n => n - 1) l.left sym else l.left }

/-- A stream's value `v`, `q` of one resource element is written at `a`, and its bit of the erasure word at `er` cleared. -/
def State.putRe (s : State) (a er stream : Nat) (v q : Int) : State :=
  let w := leNat (s.engRead er 4)
  (s.memWrite a (leBytes 2 (toBits 16 v) ++ leBytes 2 (toBits 16 q))).memWrite er (leBytes 4 (if bit w stream then w - 2 ^ stream else w))

/-- The twelve resource elements of a PRB are written. -/
def State.putPrb (s : State) (base sym stream prb : Nat) (vs : List Int) : State :=
  (List.range 12).foldl (fun s i =>
    s.putRe (valAddr base sym (12 * prb + i) stream) (eraAddr base sym (12 * prb + i)) stream (nth 0 vs (2 * i)) (nth 0 vs (2 * i + 1))) s

/-- The counters and the slot's progress after a PRB: `sat` values were clamped; `fresh` if no write of it came before. -/
def State.prbDone (s : State) (p car num sym stream prb sat : Nat) (fresh : Bool) : State :=
  let s := ((s.bump .fhp p 0xA8 sat).bump .fhp p 0xA4 (b2n (!fresh))).modSlot car num (fun l => l.arrive sym stream prb fresh)
  match s.slotOf car num with
  | none => s
  | some l => if l.closed then s else s.setGs (slotSem car num) (leading l.left)

/-- Whether any resource element of the PRB still lacks the stream. -/
def State.freshPrb (s : State) (base sym stream prb : Nat) : Bool :=
  (List.range 12).any (fun i => bit (leNat (s.engRead (eraAddr base sym (12 * prb + i)) 4)) stream)

/-- One PRB is written: values, erasure bits, and the slot's progress. -/
def State.writePrb (s : State) (p car num sym stream prb comp : Nat) (bs : List Byte) : State :=
  (s.putPrb (s.s0Base car num) sym stream prb (prbValues comp bs).1).prbDone p car num sym stream prb (prbValues comp bs).2
    (s.freshPrb (s.s0Base car num) sym stream prb)

/-- The checks of the section at offset `o` (R307, R308): the drop's counter and reason, or its entry of the map, first PRB and
number of PRBs. `dyn` is the dynamic form, with a compression header of its own. -/
def secCheck (ents : List SecEnt) (dyn : Bool) (stream sym fin o : Nat) (fr : List Byte) : (Nat × Nat) ⊕ (SecEnt × Nat × Nat) :=
  let hd := if dyn then 6 else 4
  let w := beNat (sliceB fr o 4)
  if o + hd > fin ∨ bits w 19 18 ≠ 0 then .inl (0x8C, 4)
  else match ents.find? (fun x => x.stream == stream && x.secId == bits w 31 20 && decide (x.sym0 ≤ sym ∧ sym < x.sym0 + x.nsym)) with
  | none => .inl (0x94, 6)
  | some x =>
    let f := bits w 17 8
    let n := if bits w 7 0 = 0 then x.prb0 + x.nprb - f else bits w 7 0
    if f < x.prb0 ∨ f ≥ x.prb0 + x.nprb ∨ f + n > x.prb0 + x.nprb then .inl (0x94, 6)
    else if dyn ∧ fieldLe fr (o + 4) 1 ≠ x.comp then .inl (0x98, 7)
    else if o + hd + n * prbBytes x.comp > fin then .inl (0x8C, 4)
    else .inr (x, f, n)

/-- The `n` PRBs of a section from PRB `f`, each of `z` bytes from offset `o`, are written. -/
def State.secData (s : State) (p car num sym stream comp f n z o : Nat) (fr : List Byte) : State :=
  (List.range n).foldl (fun s i => s.writePrb p car num sym stream (f + i) comp (sliceB fr (o + i * z) z)) s

/-- The sections of a frame, in turn, from offset `o` to `fin` (R307, R308); `fuel` is at least their number. -/
def State.sections (s : State) (p car num : Nat) (h : UHdr) (stream : Nat) (fr : List Byte) (fin : Nat) : Nat → Nat → State
  | 0, _ => s
  | fuel + 1, o =>
    if o ≥ fin then s
    else match s.slotOf car num with
    | none => s
    | some l =>
      let dyn := bit (s.reg .fhp p 0x40) 1
      match secCheck l.ents dyn stream h.sym fin o fr with
      | .inl (c, r) => s.drop p c r h.eaxc
      | .inr (x, f, n) =>
        let at' := o + if dyn then 6 else 4
        State.sections (s.secData p car num h.sym stream x.comp f n (prbBytes x.comp) at' fr) p car num h stream fr fin fuel (at' + n * prbBytes x.comp)

/-- A packet's sequence ID `seq` on its carrier and stream is compared with the one before it, and kept (R304). -/
def State.seqSeen (s : State) (p car st seq : Nat) : State :=
  let last := FMap.get 0 (s.port p).seqs (32 * car + st)
  let s := if last ≠ 0 ∧ seq ≠ last % 256 then s.bump .fhp p 0xAC 1 else s
  s.modPort p (fun x => { x with seqs := FMap.put 0 x.seqs (32 * car + st) (seq + 1) })

/-- A slot whose symbols are all complete closes (R316). -/
def State.closeComplete (s : State) (car num : Nat) : State :=
  match s.slotOf car num with
  | none => s
  | some l => if l.left.all (fun n => n == 0) then s.closeSlot car num else s

/-- The open slot of a carrier that a packet belongs to (R306). -/
def Carrier.slotFor (x : Carrier) (k : Nat × Nat) : Option Slot := x.slots.find? (fun l => !l.closed && l.buf && l.num % k.2 == k.1)

/-- A frame that passed its address check (checks 4 to 6 of R302), and its sections. -/
def State.uPlane (s : State) (p h : Nat) (fr : List Byte) : State :=
  let u := s.header p h fr
  if !u.ok then s.drop p 0x8C 4 u.eaxc
  else match s.eaxcMap p u.eaxc with
  | none => s.drop p 0x90 5 u.eaxc
  | some (car, st) =>
    let s := s.seqSeen p car st u.seq
    let k := slotIndex (s.mu p) u
    let x := s.carrier car
    match x.slotFor k with
    | none =>
      if x.slots.any (fun l => x.recent l && l.num % k.2 == k.1) then s.drop p 0x9C 8 u.eaxc else s.drop p 0xA0 9 u.eaxc
    | some l => (s.sections p car l.num u st fr (h + 4 + u.payload) fr.length (h + 12)).closeComplete car l.num

/-- FRONTHAUL_FRAME: `frame` runs from the destination address to the frame check sequence; `fcs` says whether it and every
RS-FEC codeword were right, and counts codewords (R321); `room` that the receive buffer had room. -/
def execFronthaulFrame (port : Nat) (frame : List Byte) (fcs : FrameCheck) (room : Bool) (s : State) : Host.Outcome State Fault Refusal :=
  let p := port
  .next (if p > 3 ∨ !s.pageOn .fhp p ∨ !bit (s.reg .fhp p 0x40) 7 ∨ !(s.port p).linkUp then s
    else
      let s := (((s.bump .fhp p 0x7C fcs.corr).bump .fhp p 0x80 fcs.bad).bump64 .fhp p 0x68 1).bump64 .fhp p 0x70 frame.length
      if !fcs.ok ∨ frame.length < 64 ∨ frame.length > 9600 then s.drop p 0x78 1 0
      else if !room then s.drop p 0x84 2 0
      else if beNat (sliceB frame 12 2) = 0x8808 ∧ beNat (sliceB frame 14 2) = 1 then s.bump .fhp p 0xB4 1
      else if !s.addrOk p frame then s.drop p 0x88 3 0
      else s.uPlane p ((vlanTags frame).1 + 2) frame)

/-! ### PAUSE and the link (R300, R301) -/

def State.sendPause (s : State) (p quanta : Nat) : State :=
  (s.bump .fhp p 0xB0 1).modPort p (fun x => { x with sent := x.sent ++ [quanta] })

/-- A port that may send: powered, enabled, its link up. -/
def State.portUp (s : State) (p : Nat) : Bool := s.pageOn .fhp p && bit (s.reg .fhp p 0x40) 7 && (s.port p).linkUp

/-- PAUSE_TRANSMIT: the receive buffer's occupancy becomes `occupancy` bytes. -/
def execPauseTransmit (port occupancy : Nat) (s : State) : Host.Outcome State Fault Refusal :=
  let p := port
  let r := s.reg .fhp p 0x5C
  let x := s.port p
  .next (if p > 3 then s
    else
      let s := s.modPort p (fun x => { x with occ := occupancy })
      if !s.portUp p ∨ !bit (s.reg .fhp p 0x40) 4 then s
      else if x.occ ≤ 1024 * bits r 22 16 ∧ 1024 * bits r 22 16 < occupancy then
        (s.sendPause p (bits r 15 0)).modPort p (fun x => { x with xoff := true })
      else if x.xoff ∧ occupancy ≤ 1024 * bits r 30 24 then (s.sendPause p 0).modPort p (fun x => { x with xoff := false })
      else s)

/-- PAUSE_REPEAT: half the quanta time has passed with the occupancy still above XON. -/
def execPauseRepeat (port : Nat) (s : State) : Host.Outcome State Fault Refusal :=
  let r := s.reg .fhp port 0x5C
  .next (if port > 3 ∨ !s.portUp port ∨ !bit (s.reg .fhp port 0x40) 4 ∨ !(s.port port).xoff ∨ (s.port port).occ ≤ 1024 * bits r 30 24 then s
    else s.sendPause port (bits r 15 0))

/-- FH_LINK_CHANGE: the link comes up, if the port is enabled, or goes down. No slot changes. -/
def execFhLinkChange (port : Nat) (up : Bool) (s : State) : Host.Outcome State Fault Refusal :=
  .next (if port > 3 then s
    else s.modPort port (fun x => { x with linkUp := up && s.pageOn .fhp port && bit (s.reg .fhp port 0x40) 7 }))

/-! ### Writes of the port pages (R322, R323) -/

/-- Offsets of a port page's counters (R321). -/
def fhpCounters : List Nat := (List.range 20).map (fun i => 0x68 + 4 * i) ++ [0xBC, 0xC0, 0xC8, 0xCC]

/-- FHP_CNTCLR. -/
def execFhpCntclr (port : Nat) (value : Word) (s : State) : Host.Outcome State Fault Refusal :=
  let off := rOff .fhp port 0x64
  .next (if port > 3 then s
    else s.regWrite off value.toNat false [] (fun s =>
      if bit value.toNat 0 then fhpCounters.foldl (fun s o => s.setReg .fhp port o 0) s else s))

/-- The cases of R323 on a write of `v` to a port register, but for CFG. -/
def State.fhpCases (s : State) (p o v : Nat) : List (Bool × Code) :=
  let en := bit (s.reg .fhp p 0x40) 7
  let same := v == s.reg .fhp p o
  let span := fun (sh n : Nat) => (List.range n).map (fun i => sh + i)
  if o = 0x44 then
    [(en && !same, .state),
     (decide (bits v 3 0 + bits v 5 4 > 16 ∨ bits v 11 8 + bits v 14 12 > 16)
       || (span (bits v 3 0) (bits v 5 4)).any (fun b => (span (bits v 11 8) (bits v 14 12)).contains b), .value)]
  else if o = 0x48 then [(en && !same, .state), (decide (bits v 31 16 &&& bits v 15 0 ≠ bits v 31 16), .value)]
  else if o = 0x4C then
    let on := (List.range 8).filter (fun j => bit v (4 * j + 2))
    [(en && !same, .state), (on.any (fun j => on.any (fun k => j != k && bits v (4 * j + 1) (4 * j) == bits v (4 * k + 1) (4 * k))), .value)]
  else if o = 0x5C then [(decide (bits v 30 24 ≥ bits v 22 16), .value)]
  else []

/-- FHP_CFG_WRITE: MODE and MU stand while the port is enabled; clearing EN takes the link down. -/
def execFhpCfgWrite (port : Nat) (value : Word) (s : State) : Host.Outcome State Fault Refusal :=
  let off := rOff .fhp port 0x40
  let v := value.toNat
  let old := s.rd off
  .next (if port > 3 then s
    else s.regWrite off v false [(bit old 7 && (bit v 0 != bit old 0 || bits v 6 5 != bits old 6 5), .state)] (fun s =>
      (s.regPut off v).modPort port (fun x => { x with linkUp := x.linkUp && bit v 7, xoff := x.xoff && bit v 7 })))

/-! ### Galley maps (R280, R283) -/

/-- The area of a map register's value, in MiB: first and count; none while it is disabled. -/
def areaOf (s3 : Bool) (v : Nat) : Option (Nat × Nat) :=
  if bit v 31 then some (bits v 6 0, if s3 then 2 * bits v 11 8 else 12) else none

/-- Enabled areas but the one of register `i` (0 to 3 S0MAP, 4 to 7 S3MAP). -/
def State.otherAreas (s : State) (i : Nat) : List (Nat × Nat) :=
  (List.range 8).filterMap (fun j => if j = i then none else areaOf (decide (j ≥ 4)) (s.reg .gal 0 (0x40 + 4 * j)))

/-- GAL_MAP_WRITE. -/
def execGalMapWrite (offset : Nat) (value : Word) (s : State) : Host.Outcome State Fault Refusal :=
  let v := value.toNat
  let i := (offset - 0x20040) / 4
  let c := i % 4
  .next (if offset < 0x20040 ∨ offset ≥ 0x20060 ∨ offset % 4 ≠ 0 then s
    else
      let busy := (s.carrier c).slots.any (fun l => !l.closed || (l.started && !l.ended))
      let a := (areaOf (decide (i ≥ 4)) v).getD (0, 0)
      let on := (areaOf (decide (i ≥ 4)) v).isSome
      let sl := (List.range 4).filter (fun n => decide (a.1 < 24 * (n + 1) ∧ 24 * n < a.1 + a.2))
      s.regWrite offset v false
        [(busy, .state),
         (on && (decide (a.1 + a.2 > 96) || (s.otherAreas i).any (fun b => decide (a.1 < b.1 + b.2 ∧ b.1 < a.1 + a.2))), .range),
         (on && sl.any (fun n => s.fenced (uSlice n)), .fenced),
         (on && sl.any (fun n => !s.domOn (36 + n)), .power)]
        (fun s => s.regPut offset v))

/-! ### Egress (R319, R320) -/

/-- Blocks `f` to `f + n - 1` of the S3 buffer, which lie at `a`, written to the slot's host buffer, eight to a write. -/
def State.egressOut (s : State) (e : Entry) (a f n : Nat) : State :=
  (List.range (ceilDiv n 8)).foldl (fun s i =>
    s.cmdWrite e (e.p 28 8 + 64 * (f + 8 * i)) (s.engRead (a + 512 * i) (64 * min 8 (n - 8 * i)))) s

/-- A bad byte that the reading met (R269). -/
def State.egressBad (s : State) (a n ctx : Nat) : State := match s.badIn a n with | none => s | some x => s.memFault x ctx 0

/-- Blocks `f` to `f + n - 1`, which lie at `a`, leave; `r` are the runs still to come. An unreachable buffer ends the egress. -/
def State.egressPart (s : State) (car : Nat) (l : Slot) (a f n : Nat) (r : List (Nat × Nat)) : State :=
  match s.blocked a (64 * n) with
  | some c => s.modSlot car l.num (fun l => { l with egress := [], stop := c.num })
  | none => ((s.egressOut l.entry a f n).egressBad a (64 * n) l.ctx).modSlot car l.num (fun l => { l with egress := r, high := max l.high (64 * (f + n)) })

/-- EGRESS_WRITE: the carrier's oldest retired PACK of a slot has its blocks written to the host in requests of at most 512
bytes. A slice that is off or fenced ends the slot's egress with its code (R277, R281). -/
def execEgressWrite (car : Nat) (s : State) : Host.Outcome State Fault Refusal :=
  .next (match (s.carrier car).slots.find? (fun l => !l.done && !l.egress.isEmpty) with
  | none => s
  | some l =>
    match l.egress with
    | [] => s
    | (f, n) :: r =>
      s.egressPart car l ((s.s3Buf car l.num).1 + 64 * f) f n r)

/-- The code of a number. -/
def codeOf (n : Nat) : Code :=
  (([.ok, .value, .rsvd, .busy, .lock, .state, .range, .align, .nospace, .digest, .sig, .power, .fenced, .epoch, .thermal, .parity
    , .opcode, .limit, .ambig, .degraded, .late, .link] : List Code).find? (fun c => c.num == n)).getD .ok

/-- SLOT_COMPLETION: the carrier's oldest slot not yet completed, closed, its invocation ended and its egress issued. -/
def execSlotCompletion (car : Nat) (s : State) : Host.Outcome State Fault Refusal :=
  .next (match (s.carrier car).slots.find? (fun l => !l.done) with
  | none => s
  | some l =>
    if !l.closed ∨ !l.ended ∨ !l.egress.isEmpty then s
    else
      let s := s.complete l.entry (codeOf l.stop) l.high l.erased l.flags l.gennum
      let s := (s.bump .fhp car 0xBC 1).bump64 .fhp car 0xC8 l.high
      s.modCarrier car (fun x => Carrier.tidy { x with slots := x.slots.map (fun y => if y.num = l.num ∧ !y.done then { y with done := true } else y) }))

end Sys2Proof.Machine
end

