-- ==== Sys2Proof/Machine/Memory.lean ====
section
/-!
DEFINITION. Sys2Proof/Machine/Memory.lean: march tests and row repair (R284 to R288), the external memory (R289 to R297), and
host accesses to BAR2 with its aliases and aperture (R38, R39, R267 to R275, R294).
-/
namespace Sys2Proof.Machine

/-! ### March tests (R284 to R288). Memories: 0 scratchpad, 1 galley, 2 accumulator, 3 proof row store -/

/-- Unit that an instance belongs to: a cluster or a galley slice. -/
def marchUnit (m u : Nat) : Nat := if m = 1 then uSlice u else uClu u

/-- Banks of an instance, rows of a bank, and its spare rows; a row store's rows stand in bank 2 of the scratchpad (R284). -/
def rowOkFor (m bank row : Nat) : Bool :=
  match m with
  | 0 => decide (bank < 4 ∧ row < 1024)
  | 1 => decide (bank < 8 ∧ row < 3072)
  | 2 => decide (bank = 0 ∧ row < 512)
  | _ => decide (bank = 2 ∧ row < 512)

def spareRows (m : Nat) : Nat := if m = 1 then 48 else if m = 2 then 8 else 16

/-- Where spare rows in use are counted: galley slice n as record 64 + n. -/
def spareAt (m u bank : Nat) : Nat × Nat := (if m = 1 then 64 + u else u, (if m = 2 then 32 else 0) + bank)

def State.sparesUsed (s : State) (m u bank : Nat) : Nat := FMap.get 0 (s.clu (spareAt m u bank).1).rowRepair (spareAt m u bank).2

/-- BAR2 offset and length of a row; an accumulator row is a tile. -/
def rowAddr (m u bank row : Nat) : Nat :=
  if m = 1 then u * 0x1800000 + bank * 0x300000 + row * 1024 else 0x10000000 + u * 0x400000 + bank * 0x100000 + row * 1024

/-- Every row of an instance at 0 (R285). -/
def State.marchZero (s : State) (m u : Nat) : State :=
  let clear := fun (s : State) (a n : Nat) =>
    { s with mem := s.mem.filter (fun p => !decide (a ≤ p.1 ∧ p.1 < a + n)), parBad := clearBad s.parBad a n }
  match m with
  | 0 => clear s (0x10000000 + u * 0x400000) 0x400000
  | 1 => clear s (u * 0x1800000) 0x1800000
  | 2 => { s with tiles := FMap.mapVals {} (fun k (t : Tile) => if k / 512 = u then { t with ent := [] } else t) s.tiles }
  | _ => clear s (0x10000000 + u * 0x400000 + 0x200000) 0x80000

/-- MARCH register of an instance: SPD.MARCH or GAL.MARCH. -/
def State.setMarch (s : State) (m u st alg rep un : Nat) : State :=
  let v := st + (if m = 1 then 0 else m <<< 2) + (alg <<< 4) + (min rep 255 <<< 8) + (min un 255 <<< 16)
  if m = 1 then s.setReg .gal 0 0x84 v else s.setReg .spd u 0x68 v

/-- Marches that run: memory·64 + instance, and 256 more for a transparent one. -/
def State.marching (s : State) : List Nat := (s.jobs.filter (fun j => j.kind == 19 || j.kind == 20)).flatMap (fun j => j.n)

/-- A test runs on an instance. -/
def State.marchBusy (s : State) (m u : Nat) : Bool :=
  let k := m * 64 + u
  s.marching.any (fun x => x % 256 == k) || s.sec.stage == 7 || (m != 1 && (s.unit (uClu u)).state == 2)
    || (m == 2 && (s.clu u).marchDue)

/-- Which algorithm the test that ends on an instance ran: 0 March C−, 1 transparent; none where no test runs. -/
def State.marchAlg (s : State) (m u : Nat) : Option Nat :=
  match s.marching.find? (fun x => x % 256 == m * 64 + u) with
  | some x => some (x / 256)
  | none =>
    if s.sec.stage = 7 ∨ (m ≠ 1 ∧ (s.unit (uClu u)).state = 2) then some 0 else if m = 2 ∧ (s.clu u).marchDue then some 1 else none

/-- A repair's entry in the REPAIR records, and its write (R284, R429). -/
def State.repairRecord (s : State) (m u bank row spare : Nat) : State :=
  let e := leBytes 2 (marchUnit m u) ++ leBytes 1 m ++ leBytes 1 spare ++ leBytes 2 row ++ leBytes 1 bank ++ leBytes 1 0
  let s := s.withCol { s.col with repairs := s.col.repairs ++ [e] }
  let i := (s.col.repairs.length - 1) / 126
  if i < 8 then s.colQueue { steps := [{ home := 28 + i, recs := [(0, s.repairPayload i)] }] } else s

/-- The content of a row under a transparent test whose first read found wrong parity is lost (R288). -/
def State.rowLost (s : State) (m u bank row : Nat) : State :=
  if m = 2 then
    match (s.tile (tkey u row)).badPar 256 with
    | none => s
    | some e => (s.tileFault 255 0 u row e).modTile (tkey u row) (fun t => { t with ent := [] })
  else
    let a := rowAddr m u bank row
    match s.badIn a 1024 with
    | none => s
    | some b => (s.memFault b 255 0).memWrite a (List.replicate 1024 0#8)

/-- A failing row: a spare takes its place, or it cannot be repaired (R284, R287). Counts repaired and unrepairable. -/
def State.badRow (s : State) (m u alg bank row : Nat) : State × Nat × Nat :=
  let n := s.sparesUsed m u bank
  if n < spareRows m then
    let k := spareAt m u bank
    let s := s.modClu k.1 (fun x => { x with rowRepair := FMap.put 0 x.rowRepair k.2 (n + 1) })
    let s := if alg = 1 then s.rowLost m u bank row else s
    (s.repairRecord m u bank row n, 1, 0)
  else (s.report { kind := 0x0B, unit := marchUnit m u, detail := row }, 0, 1)

/-- A MARCH_RUN or MBIST_ACCESS one of whose instances has ended: it ends with its last one. -/
def State.marchSettle (s : State) (k rep un : Nat) : State :=
  let js := s.jobs.filter (fun j => (j.kind == 19 || j.kind == 20) && j.n.any (fun x => x % 256 == k))
  js.foldl (fun s j =>
    let j' := { j with n := j.n.filter (fun x => x % 256 != k), a := j.a + rep, b := j.b + un }
    if !j'.n.isEmpty then s.withJobs (s.jobs.map (fun y => if y = j then j' else y))
    else
      let s := s.withJobs (s.jobs.filter (fun y => y != j))
      if j.kind = 19 then s.complete j.e .ok j'.a j'.b
      else s.withTap { s.tap with result := if k / 64 = 1 then s.reg .gal 0 0x84 else s.reg .spd (k % 64) 0x68 }) s

/-- A march test starts on an instance: RUNNING, and for March C− its contents go (R285, R288). -/
def State.marchStart (m alg : Nat) (s : State) (u : Nat) : State :=
  let s := s.setMarch m u 1 alg 0 0
  if alg = 0 then s.marchZero m u else s

/-- MARCH_RUN (R286): every check, then the tests start. -/
def execMarchRun (e : Entry) (s : State) : Host.Outcome State Fault Refusal :=
  .next (s.begin e 0x0E (fun s =>
    let m := e.p 8 1
    let alg := e.p 9 1
    let mask := e.p 16 8
    let us := (List.range (if m = 1 then 4 else 64)).filter (fun u => bit mask u)
    let mapped := fun (n : Nat) => (s.otherAreas 8).any (fun a => decide (a.1 < 24 * (n + 1) ∧ 24 * n < a.1 + a.2))
    match (entryBad e [2, 3] false [(8, 2), (16, 8)] false).or (firstBad
      [(decide (m > 3 ∨ alg > 1), .value), (decide (mask = 0 ∨ (m = 1 ∧ mask ≥ 16)), .value),
       (us.any (fun u => if m = 1 then !s.domOn (36 + u) else !s.cluOn u), .power),
       (alg == 0 && m != 1 && us.any (fun u => s.reg .spd u 0x40 % 2 == 0), .state),
       (alg == 0 && m == 1 && us.any mapped, .state), (us.any (s.marchBusy m), .busy)]) with
    | some c => s.fail e c
    | none =>
      let s := us.foldl (State.marchStart m alg) s
      s.withJobs (s.jobs ++ [({ e := e, kind := 19, n := us.map (fun u => 256 * alg + 64 * m + u) } : Job)])))

/-- The failing rows of a test repaired in turn, with the counts of repaired and unrepairable ones (R284, R287). -/
def State.marchRows (s : State) (m u alg : Nat) (bad : List (Nat × Nat)) : State × Nat × Nat :=
  (bad.filter (fun b => rowOkFor m b.1 b.2)).foldl (fun (acc : State × Nat × Nat) b =>
    let x := acc.1.badRow m u alg b.1 b.2
    (x.1, acc.2.1 + x.2.1, acc.2.2 + x.2.2)) (s, 0, 0)

/-- The MARCH register after a test with `rep` repaired and `un` unrepairable rows; March C− leaves zeros (R288). -/
def State.marchVerdict (s : State) (m u alg rep un : Nat) : State :=
  let s := s.setMarch m u (if rep + un = 0 then 2 else 3) alg rep un
  let s := if alg = 0 then s.marchZero m u else s
  if m = 2 then s.modClu u (fun x => { x with marchDue := false }) else s

/-- A slice that was fenced for memory serves again after a March C− that leaves no bad row (R416). -/
def State.sliceBack (s : State) (m u alg un : Nat) : State :=
  let f := s.unit (uSlice u)
  if m = 1 ∧ alg = 0 ∧ un = 0 ∧ f.state = 1 ∧ f.reason = 5 then
    let s := s.modUnit (uSlice u) (fun x => { x with state := 0, reason := 0 })
    (s.colQueue { steps := [fenceStep s] }).histWrite (uSlice u)
  else s

/-- MARCH_TEST_DONE (R285, R287, R288, R404, R416): a test on an instance ends; `bad` names its failing rows by bank (or
sub-bank) and row. -/
def execMarchTestDone (memory unit : Nat) (bad : List (Nat × Nat)) (s : State) : Host.Outcome State Fault Refusal :=
  let m := memory
  let u := unit
  .next (if m > 3 ∨ u ≥ (if m = 1 then 4 else 64) then s
    else match s.marchAlg m u with
    | none => s
    | some alg =>
      let r := s.marchRows m u alg bad
      ((r.1.marchVerdict m u alg r.2.1 r.2.2).sliceBack m u alg r.2.2).marchSettle (m * 64 + u) r.2.1 r.2.2)

/-! ### External memory (R289 to R295) -/

/-- LPX_TRAINING_DONE: a channel fitted with `density` is trained and zero-filled at the configured rate; a channel without a
device, or of another density than its neighbour, leaves both untrained. -/
def execLpxTrainingDone (channel density : Nat) (s : State) : Host.Outcome State Fault Refusal :=
  .next (if channel > 1 ∨ density > 3 ∨ !s.domOn (48 + channel) ∨ bit (s.reg .lpx channel 0x44) 9 ∨ s.sec.stage < 6 then s
    else
      let o := bits (s.reg .lpx (1 - channel) 0x44) 7 4
      let reported := FMap.get 0 s.lpx (5 - channel) == 1
      let s := s.withLpx (FMap.put 0 s.lpx (4 + channel) 1)
      if density = 0 ∨ (reported ∧ o ≠ density) then
        ((s.setReg .lpx 0 0x44 (s.reg .lpx 0 0x40 % 4)).setReg .lpx 1 0x44 (s.reg .lpx 1 0x40 % 4))
      else s.setReg .lpx channel 0x44 (s.reg .lpx channel 0x40 % 4 + (density <<< 4) + 0x300))

/-- Device address of the `i`th 64-byte block of a channel (R290). -/
def chanBlock (ch i : Nat) : Nat := i / 4 * 512 + ch * 256 + i % 4 * 64

/-- LPX_PATROL_SCRUB: the next block of the channel is read (R292). -/
def execLpxPatrolScrub (channel : Nat) (outcome : ScrubRead) (s : State) : Host.Outcome State Fault Refusal :=
  .next (if channel > 1 ∨ bits (s.reg .lpx channel 0x40) 15 8 = 0 ∨ !s.lpReady ∨ !s.domOn (48 + channel) then s
    else
      let i := FMap.get 0 s.lpx (2 * channel)
      let a := chanBlock channel i
      let s := (s.bump .lpx channel 0x60 outcome.link).withLpx (FMap.put 0 s.lpx (2 * channel) (if (i + 1) * 128 ≥ s.lpCap then 0 else i + 1))
      if outcome.found = 2 ∨ FMap.get false s.lpBad (a / 64) then
        (s.withLpBad (FMap.put false s.lpBad (a / 64) true)).lpFault a 255 0
      else if outcome.found = 1 then (s.bump .lpx channel 0x48 1).setReg64 .lpx channel 0x50 a
      else s)

/-- LPX_MR4_POLL: the refresh rate follows the devices' MR4. -/
def execLpxMr4Poll (channel rate : Nat) (s : State) : Host.Outcome State Fault Refusal :=
  .next (if channel > 1 ∨ !s.domOn (48 + channel) then s else s.withLpx (FMap.put 0 s.lpx (2 * channel + 1) rate))

/-! ### Host accesses to BAR2 (R38, R39, R267 to R275, R294) -/

/-- How a byte of BAR2 is reached: galley or scratchpad byte at an address (0 plain, 1 set, 2 clear), an LPDDR5X byte, or not
at all. -/
inductive Bar2 where
  | mem (a how : Nat)
  | lp (a : Nat)
  | none
  deriving DecidableEq, Repr

def State.bar2Byte (s : State) (o : Nat) : Bar2 :=
  let spad := fun (x : Nat) => 0x10000000 + x
  if o < galEnd then (if s.domOn (36 + sliceOf o) && !s.fenced (uSlice (sliceOf o)) then .mem o 0 else .none)
  else if o < 0x10000000 then .none
  else
    let r := o / 0x10000000
    let x := o % 0x10000000
    let c := x / 0x400000
    if r ≥ 1 ∧ r ≤ 4 then
      if !s.cluOn c then .none
      else if r = 1 then .mem o 0
      else if r = 2 then .mem (spad (x / 64 * 64 + (x % 64 + s.reg .spd c 0x44 % 64) % 64)) 0
      else if s.reg .spd c 0x40 % 2 = 0 then .none
      else .mem (spad x) (r - 2)
    else if r ≥ 8 ∧ r ≤ 11 then
      let a := s.reg64 .hif 0 0x50 + (o - 0x80000000)
      if s.lpReady && s.domOn 48 && s.domOn 49 && decide (a < s.lpCap) then .lp a else .none
    else .none

/-- The memory that holds a galley or scratchpad byte is under March C−: a read returns a test pattern (R288). -/
def State.underMarch (s : State) (a : Nat) : Bool :=
  s.marching.any (fun x =>
    if x = 64 + sliceOf a then isGal a
    else isSpad a && (x == spadOf a || (x == 192 + spadOf a && decide (a % 0x400000 / 0x80000 = 4))))

/-- A request that touched bytes it could not reach counts once, with the first such offset (R39). -/
def State.bar2Miss (s : State) (os : List Nat) : State :=
  match os.find? (fun o => s.bar2Byte o == .none) with
  | none => s
  | some o => (s.bump .hif 0 0x58 1).setReg .hif 0 0x5C o

/-- LPDDR5X blocks of a list of addresses, each once. -/
def blocksOf (as : List Nat) : List Nat := as.foldl (fun l a => if l.contains (a / 64) then l else l ++ [a / 64]) []

/-- A host read (R269, R292): its bytes, poisoned where one was bad. -/
def State.bar2Read (s : State) (o n : Nat) : State :=
  let ws := (List.range n).map (fun i => s.bar2Byte (o + i))
  let bytes := (List.zip (List.range n) ws).map (fun p => match p.2 with
    | .mem a _ => if s.underMarch a then (Config.freeValue (s.free + p.1)).setWidth 8 else s.memByte a
    | .lp a => s.lpByte a
    | .none => 0#8)
  let badM := ws.find? (fun w => match w with | .mem a _ => FMap.get false s.parBad a | _ => false)
  let lps := ws.filterMap (fun w => match w with | .lp a => some a | _ => none)
  let badL := (blocksOf lps).filter (fun b => FMap.get false s.lpBad b)
  let s' := (s.bar2Miss ((List.range n).map (fun i => o + i))).withFree (s.free + n)
  let s' := match badM with | some (.mem a _) => s'.memFault a 255 0 | _ => s'
  let s' := badL.foldl (fun s b => s.lpFault (b * 64) 255 0) s'
  let s' := lps.foldl (fun s a => s.lpCountRead a 1) s'
  s'.withHost { s'.host with reply := bytes, poisoned := badM.isSome || !badL.isEmpty, unsup := false }

/-- One enabled byte of a host write. -/
def State.bar2Put (s : State) (o : Nat) (b : Byte) : State :=
  match s.bar2Byte o with
  | .mem a 0 => s.memWrite a [b]
  | .mem a 1 => s.memWrite a [s.memByte a ||| b]
  | .mem a _ => s.memWrite a [s.memByte a &&& ~~~b]
  | .lp a => s.lpWrite a [b]
  | .none => s

/-- A host write: enabled bytes only. A block of external memory written in part is read, merged and rewritten (R293). -/
def State.bar2Write (s : State) (o : Nat) (data : List (Option Byte)) : State :=
  let ps := (List.zip (List.range data.length) data).filterMap (fun p => p.2.map (fun b => (o + p.1, b)))
  let lps := ps.filterMap (fun p => match s.bar2Byte p.1 with | .lp a => some a | _ => none)
  let part := (blocksOf lps).filter (fun b => decide ((lps.filter (fun a => a / 64 == b)).length < 64))
  let whole := (blocksOf lps).filter (fun b => !part.contains b)
  let s' := ps.foldl (fun s p => s.bar2Put p.1 p.2) (s.bar2Miss (ps.map (fun p => p.1)))
  let s' := part.foldl (fun s b =>
    let s := s.bump .lpx (b2n (bit b 2)) 0x64 1
    if FMap.get false s.lpBad b then s.lpFault (b * 64) 255 0 else s) s'
  whole.foldl (fun s b => s.withLpBad (FMap.put false s.lpBad b false)) s'

def State.bar2 (s : State) : MemAccess → State
  | .read o n => s.bar2Read o n
  | .write o d => s.bar2Write o d

/-- BAR2 offset at which a request starts. -/
def accessAt : MemAccess → Nat
  | .read o _ => o
  | .write o _ => o

/-- BAR2_ACCESS: a host request that starts anywhere in BAR2, split by byte (R39). -/
def execBar2Access (a : MemAccess) (s : State) : Host.Outcome State Fault Refusal := .next (s.bar2 a)

/-- ROTATE_ALIAS_ACCESS (R271): a request that starts in the rotate alias. -/
def execRotateAliasAccess (a : MemAccess) (s : State) : Host.Outcome State Fault Refusal :=
  .next (if (accessAt a) / 0x10000000 = 2 then s.bar2 a else s)

/-- SET_ALIAS_WRITE (R272): a request that starts in the set alias. -/
def execSetAliasWrite (a : MemAccess) (s : State) : Host.Outcome State Fault Refusal :=
  .next (if (accessAt a) / 0x10000000 = 3 then s.bar2 a else s)

/-- CLEAR_ALIAS_WRITE (R272): a request that starts in the clear alias. -/
def execClearAliasWrite (a : MemAccess) (s : State) : Host.Outcome State Fault Refusal :=
  .next (if (accessAt a) / 0x10000000 = 4 then s.bar2 a else s)

/-- APERTURE_ACCESS (R291, R293, R294): a request that starts in the aperture. -/
def execApertureAccess (a : MemAccess) (s : State) : Host.Outcome State Fault Refusal :=
  .next (if 0x80000000 ≤ (accessAt a) ∧ (accessAt a) < 0xC0000000 then s.bar2 a else s)

/-- MAINT_WRITE (R273): maintenance mode only before READY or on a cluster that does not serve. -/
def execMaintWrite (cluster : Nat) (value : Word) (s : State) : Host.Outcome State Fault Refusal :=
  let off := rOff .spd cluster 0x40
  .next (if cluster > 63 then s
    else s.regWrite off value.toNat false
      [(bit value.toNat 0 && s.ready && (s.unit (uClu cluster)).state == 0, .state)] (fun s => s.regPut off value.toNat))

end Sys2Proof.Machine
end

