-- ==== Sys2Proof/Machine/Replace.lean ====
section
/-!
DEFINITION. Sys2Proof/Machine/Replace.lean: the replacement of a compositor and its reload self-test (R226, R227, R416,
R525, R526).
-/
namespace Sys2Proof.Machine

/-- Compositors that run the active slot's firmware (SEC.BOOT.REPLACED). -/
def State.fwCount (s : State) : Nat := ((List.range 17).filter (fun k => (s.cmp k).fw)).length

/-- The FW_ACTIVATE in flight completes (R525, R526): with OK when all 17 compositors run the firmware. A compositor that was
skipped because it is fenced leaves it DEGRADED (DEDUCED: log 53). -/
def State.fwAnswer (s : State) : State :=
  match s.jobs.find? (fun j => j.kind == 17) with
  | none => s
  | some j =>
    let n := s.fwCount
    let s := { s with jobs := s.jobs.filter (fun x => x != j), sec := { s.sec with op := 0 } }
    if n = 17 then s.cfgAdvance.complete j.e .ok n 0 else s.complete j.e .degraded n 0

/-- Nothing is left to replace: FW_ACTIVATE completes. -/
def State.fwCheck (s : State) : State := if (List.range 17).any (fun k => (s.cmp k).fwDue) then s else s.fwAnswer

/-- A compositor waits to be replaced: for its fence, or for new firmware. -/
def State.waitsReplace (s : State) (k : Nat) : Bool :=
  !s.fenced (uCmp k) && (s.cmp k).phase == 0 && ((s.unit (uCmp k)).due.isSome || (s.cmp k).fwDue)

/-- CMP_REPLACE_START (R226 step 1): with CMP16 idle, the lowest waiting compositor is DRAINING and CMP16 copies its store.
CMP16's own reload comes first (R525). -/
def execCmpReplaceStart (s : State) : Host.Outcome State Fault Refusal :=
  .next (
    let z := s.cmp 16
    if z.carry ≠ 0 ∨ z.phase ≠ 0 ∨ z.fwDue ∨ s.fenced (uCmp 16) then s
    else match (List.range 16).find? s.waitsReplace with
      | none => s
      | some k => (s.modCmp k (fun x => { x with phase := 1 })).modCmp 16 (fun x => { x with carry := k + 1 }))

/-- CMP_COPY_DONE (R226 step 2): the copy is complete; invocations that start from now on find their streams on CMP16. -/
def execCmpCopyDone (s : State) : Host.Outcome State Fault Refusal :=
  .next (
    let c := (s.cmp 16).carry
    if c = 0 ∨ (s.cmp (c - 1)).phase ≠ 1 then s else s.modCmp (c - 1) (fun x => { x with phase := 2 }))

/-- The compositor that may enter RELOADING: CMP16 for new firmware or to return; the carried one after its last invocation in
flight; a fenced one that returns. -/
def State.reloads (s : State) : Option Nat :=
  let z := s.cmp 16
  let ret := fun (k : Nat) => (s.unit (uCmp k)).state == 2 && (s.cmp k).phase != 3 && (s.cmp k).phase != 4
  if z.carry = 0 ∧ z.phase = 0 ∧ (z.fwDue ∨ ret 16) then some 16
  else if z.carry ≠ 0 ∧ (s.cmp (z.carry - 1)).phase = 2 ∧ !s.issuesOn (z.carry - 1) then some (z.carry - 1)
  else (List.range 16).find? ret

/-- CMP_RELOAD (R226 step 3): RELOADING begins. A compositor that was being replaced for a fence becomes FENCED here instead,
and CMP16 goes on carrying it. -/
def execCmpReload (s : State) : Host.Outcome State Fault Refusal :=
  .next (match s.reloads with
  | none => s
  | some k =>
    match (s.unit (uCmp k)).due with
    | some why =>
      let s := s.modCmp k (fun x => { x with phase := 5, fwDue := false })
      (((s.markFenced (uCmp k) why).fenceAnswer (uCmp k) .ok).cmpFenceDue).fwCheck
    | none => s.modCmp k (fun x => { x with phase := 3 }))

/-- Compositors waiting for a fence once CMP16 is of no more use (R227): their streams move, or a UNIT_FENCE that leaves a
stream without room completes with E_NOSPACE. -/
def State.refuseOthers (s : State) : State :=
  ((List.range 16).foldl (fun s k =>
    let u := uCmp k
    if (s.unit u).due.isNone || (s.cmp k).phase != 0 then s
    else
      let m := s.movesFrom k
      if !m.2.isEmpty && s.jobs.any (fun j => j.kind == 7 && j.a == u) then (s.modUnit u (fun x => { x with due := none })).fenceAnswer u .nospace
      else s.doMoves m.1) s).cmpFenceDue

/-- A reload that passes: the compositor runs again, its streams come back, a RETURNING one serves (R226, R227, R525). -/
def State.reloadPassed (s : State) (k : Nat) : State :=
  let u := uCmp k
  let s := s.modCmp k (fun x => { x with phase := if (s.cmp 16).carry = k + 1 then 4 else 0, fw := true, fwDue := false })
  let s := s.modUnit u (fun x => { x with passAt := s.passNow })
  let s := if (s.unit u).state = 2 then
      ((s.modUnit u (fun x => { x with state := 0, reason := 0 })).colQueue { steps := [fenceStep (s.modUnit u (fun x => { x with state := 0, reason := 0 }))] }).unfenceAnswer u .ok
    else s
  s.fwCheck

/-- A reload that fails: the compositor is fenced with reason RELOAD, and no further one is replaced (R226, R525, R526). -/
def State.reloadFailed (s : State) (k : Nat) : State :=
  let u := uCmp k
  let s := s.modCmp k (fun x => { x with phase := if (s.cmp 16).carry = k + 1 then 5 else 0, fwDue := false })
  let s := (s.markFenced u 0x0A).report { kind := 0x0E, unit := u }
  let s := (s.unfenceAnswer u .fenced).fenceAnswer u .ok
  let fw := s.jobs.any (fun j => j.kind == 17)
  let s := if fw then ((List.range 17).foldl (fun s q => s.modCmp q (fun x => { x with fwDue := false })) s).fwAnswer else s
  s.refuseOthers

/-- CMP_RELOAD_DONE (R226 steps 4 and 5, R227, R525, R526): a compositor that passes has its store again and its streams come
back; one that fails is fenced with reason RELOAD, and no further compositor is replaced. -/
def execCmpReloadDone (pass : Bool) (s : State) : Host.Outcome State Fault Refusal :=
  .next (match ([16] ++ List.range 16).find? (fun k => (s.cmp k).phase == 3) with
  | none => s
  | some k => if pass then s.reloadPassed k else s.reloadFailed k)

/-- CMP_CARRY_END (R226 step 6): CMP16's last carried invocation has ended; it is idle and the compositor serves. -/
def execCmpCarryEnd (s : State) : Host.Outcome State Fault Refusal :=
  .next (
    let c := (s.cmp 16).carry
    if c = 0 ∨ (s.cmp (c - 1)).phase ≠ 4
        ∨ s.ctxs.any (fun p => match p.2.inv with | some v => v.streams.any (fun st => st.carried) | none => false) then s
    else (s.modCmp (c - 1) (fun x => { x with phase := 0 })).modCmp 16 (fun x => { x with carry := 0 }))

end Sys2Proof.Machine
end

