-- ==== Sys2Proof/Machine/Daisy.lean ====
section
/-!
DEFINITION. Sys2Proof/Machine/Daisy.lean: positions and links of a chain (R365 to R375), collective messages received (R383,
R385), tunnelled host traffic (R378), image pushes (R379 to R382), and the configuration-digest block and the census (R386 to
R390, R354).
-/
namespace Sys2Proof.Machine

def State.dsyAt (s : State) (p : Nat) : Dsy := FMap.get {} s.dsy p
def State.modDsy (s : State) (p : Nat) (f : Dsy → Dsy) : State := s.withDsy (FMap.put {} s.dsy p (f (s.dsyAt p)))

/-- A CTRL frame sent. -/
def State.ctrlFrame (s : State) (port kind v : Nat) : State := s.withChain { s.chain with frames := s.chain.frames ++ [(port, kind, v)] }

/-- ENUM goes on downstream, or END answers where DSY1 is down (R366). -/
def State.enumOn (s : State) : State :=
  if s.dsyUp 1 then s.ctrlFrame 1 0 (s.chain.pos + 1) else if s.sec.role = 1 then s else s.ctrlFrame 0 1 s.chain.pos

/-! ### Lanes (R372 to R375) -/

/-- Lanes of a link that trains with the lanes `u` usable: full width on eight, half width on four (which four the manual does
not say: the lowest; DESIGN CHOICE: log 54). -/
def trained (d : Dsy) (u : List Nat) : Dsy :=
  let mask := fun (l : List Nat) => l.foldl (fun m i => m + 2 ^ i) 0
  if u.length ≥ 8 then
    match (List.range 8).find? (fun l => !u.contains l) with
    | none => { d with st := 2, lanes := 0xFF, spareFor := 0xF, spare := if u.contains 8 then some 8 else none }
    | some l => { d with st := 2, lanes := mask u, spareFor := l, spare := none }
  else if u.length ≥ 4 then { d with st := 3, lanes := mask (u.take 4), spareFor := 0xF, spare := none }
  else { d with st := 1, lanes := 0, spareFor := 0xF, spare := none }

/-- A link trains on the lanes of a mask that have not failed. -/
def State.train (s : State) (p mask : Nat) : State :=
  s.modDsy p (fun d => trained d ((List.range 9).filter (fun l => bit mask l && !d.failed.contains l)))

/-- A link goes down; on a manager's DSY0 the ring opens (R369). -/
def State.linkDrop (s : State) (p st : Nat) : State :=
  let s := s.modDsy p (fun d => { d with st := st })
  if p = 0 then (s.withChain { s.chain with ring := false }) else s

/-- A link resets (R374). -/
def State.dsyReset (s : State) (p : Nat) : State := (s.bump .dsy p 0x50 1).linkDrop p 1

/-- A lane of a link fails or is fenced (R372, R373, R375): its data moves to the spare lane, or the link resets to retrain
without it. Answers whether it had to reset. -/
def State.laneLost (s : State) (p l : Nat) : State × Bool :=
  let d := s.dsyAt p
  if d.failed.contains l then (s, false)
  else
    let s := s.modDsy p (fun d => { d with failed := d.failed ++ [l], spare := if d.spare = some l then none else d.spare })
    if !bit d.lanes l || d.st < 2 then (s, false)
    else match (s.dsyAt p).spare with
      | some sp =>
        let s := s.modDsy p (fun d => { d with lanes := d.lanes - 2 ^ l + 2 ^ sp, spare := none
                                               spareFor := if sp = 8 then l else if l = 8 then 0xF else d.spareFor })
        ((s.bump .dsy p 0x48 1).ctrlFrame p 3 l, false)
      | none => (s.dsyReset p, true)

/-- LANE_FAIL (R372, R373): the failed lane is reported. -/
def execLaneFail (p l : Nat) (s : State) : Host.Outcome State Fault Refusal :=
  .next (if p > 1 ∨ l > 8 ∨ !s.dsyUp p ∨ (s.dsyAt p).failed.contains l then s
    else (s.laneLost p l).1.report { kind := 0x10, unit := uLane p l })

/-- DAISY_NAK (R370): a frame is sent again out of the replay buffer. -/
def execDaisyNak (p : Nat) (s : State) : Host.Outcome State Fault Refusal :=
  .next (if p > 1 ∨ !s.dsyUp p then s else s.bump .dsy p 0x4C 1)

/-- A DSY1 link of a device with a position comes up: ENUM. A device offered position 16 refuses it, and the device at
position 15 records that (R366, R367). -/
def State.enumUp (s : State) (p : Nat) : State :=
  if p ≠ 1 ∨ !s.chain.valid ∨ !s.dsyUp 1 then s
  else if s.chain.pos = 15 then ((s.ctrlFrame 1 0 16).reject (pageBase .dsy 1 / 4096) .limit 0).linkDrop 1 1
  else s.ctrlFrame 1 0 (s.chain.pos + 1)

/-- DAISY_LINK_RESET (R374): a link resets, unless it is already training, and trains on the lanes found healthy. -/
def execDaisyLinkReset (p healthy : Nat) (s : State) : Host.Outcome State Fault Refusal :=
  .next (if p > 1 ∨ (s.dsyAt p).st = 0 then s
    else ((if s.dsyUp p then s.dsyReset p else s).train p healthy).enumUp p)

/-- DAISY_LINK_UP (R366): a link that is enabled and powered comes up once boot stage 4 has completed. -/
def execDaisyLinkUp (p peer : Nat) (s : State) : Host.Outcome State Fault Refusal :=
  .next (if p > 1 ∨ s.sec.role = 0 ∨ s.sec.stage < 5 ∨ !bit (s.reg .dsy p 0x40) 0 ∨ !s.domOn (46 + p) ∨ s.dsyUp p then s
    else ((s.train p 0x1FF).modDsy p (fun d => { d with peer := peer % 16 })).enumUp p)

/-! ### Positions (R366 to R369) -/

/-- Invocations with an XSEND or XRECV not yet retired stop (R368). -/
def State.stopCollectives (s : State) : State :=
  (s.ops.filter (fun o => decide (o.opc = 0x60 ∨ o.opc = 0x61))).foldl (fun s o => s.stopAt o.ctx o.stream .link) s

/-- ENUM_RECEIVED (R366 to R369). -/
def execEnumReceived (p pos : Nat) (s : State) : Host.Outcome State Fault Refusal :=
  .next (if p ≠ 0 ∨ !s.dsyUp 0 then s
    else if s.sec.role = 1 then s.withChain { s.chain with ring := true }
    else if s.sec.role ≠ 2 ∨ pos = 0 ∨ pos > 16 then s
    else if pos = 16 then s.modDsy 0 (fun d => { d with st := 1 })
    else if s.chain.valid ∧ s.chain.pos = pos then s.enumOn
    else
      let s := if s.chain.valid then
          ((s.bump .dsy 1 0x60 s.chain.xrx.length).withChain { s.chain with xrx := [] }).stopCollectives
        else s
      ((s.withChain { s.chain with valid := true, pos := pos }).ctrlFrame 0 2 pos).enumOn)

/-- END_RECEIVED (R366): the manager counts its chain; a worker passes END on. -/
def execEndReceived (pos : Nat) (s : State) : Host.Outcome State Fault Refusal :=
  .next (if pos > 15 ∨ !s.dsyUp 1 then s
    else if s.sec.role = 1 then
      let s' := s.withChain { s.chain with count := pos + 1 }
      if s.chain.count ≠ pos + 1 ∧ bit (s.reg .dsy 1 0x40) 2 then (s'.withChain { s'.chain with censusWait := true }) else s'
    else if s.sec.role = 2 then s.ctrlFrame 0 1 pos else s)

/-- POSITION_LOSS (R367). -/
def execPositionLoss (s : State) : Host.Outcome State Fault Refusal :=
  .next (if s.sec.role ≠ 2 ∨ s.dsyUp 0 then s else s.withChain { s.chain with valid := false, pos := 0 })

/-- DSY_CFG_WRITE (R374, R392). -/
def execDsyCfgWrite (p : Nat) (value : Word) (s : State) : Host.Outcome State Fault Refusal :=
  let off := rOff .dsy p 0x40
  let v := value.toNat
  .next (if p > 1 then s else s.regWrite off v false
    [(bit v 1 && !(p == 0 && s.sec.role == 2), .state), (bit v 2 && !(p == 1 && s.sec.role == 1), .state)] (fun s =>
      let was := bit (s.rd off) 0
      let s := s.regPut off v
      if was && !bit v 0 then s.linkDrop p 0
      else if !was && bit v 0 then s.dsyReset p else s))

/-! ### Collectives (R383, R385) -/

/-- COLL_MESSAGE_RECEIVED: a message that DSY1 receives is delivered or forwarded by its tag; it waits on the link while the
receive buffer is full or the upstream link is down. -/
def execCollMessageReceived (msg : List Byte) (s : State) : Host.Outcome State Fault Refusal :=
  let t := fieldLe msg 0 1
  .next (if s.sec.role = 0 ∨ !s.dsyUp 1 then s
    else if s.sec.role = 1 ∨ bit (s.reg .dsy 1 (0xA0 + 4 * (t / 32))) (t % 32) then
      if s.chain.xrx.length ≥ 256 then s
      else (s.bump .dsy 1 0x58 1).withChain { s.chain with xrx := s.chain.xrx ++ [msg] }
    else if !s.dsyUp 0 then s
    else (s.bump .dsy 1 0x5C 1).withChain { s.chain with xtx := s.chain.xtx ++ [msg] })

/-! ### Tunnels (R378) -/

/-- TUNNEL_REQUEST: the manager issues a worker's access on its own link. -/
def execTunnelRequest (position : Nat) (req : HostReq) (s : State) : Host.Outcome State Fault Refusal :=
  .next (if s.sec.role ≠ 1 ∨ !s.dsyUp 1 ∨ position = 0 ∨ position ≥ s.chain.count then s
    else match req with
      | .write a d => s.hostWrite a d
      | .read a n => if s.host.linkUp then (s.withChain { s.chain with tunnels := s.chain.tunnels ++ [(position, .read a n)] }) else s)

/-- TUNNEL_TIMEOUT: the worker's command that needed the request completes with E_LINK. -/
def execTunnelTimeout (e : Entry) (s : State) : Host.Outcome State Fault Refusal :=
  .next (if !s.tunnels || s.dsyUp 0 || !((s.queue e.queue).inflight.any (fun x => x.started && x.e == e)) then s
    else
      let s := s.withJobs (s.jobs.filter (fun j => j.e != e))
      let s := if (s.ctx e.ctx).cmd = some e then s.modCtx e.ctx (fun x => { x with cmd := none }) else s
      s.fail e .link)

/-! ### Image pushes (R379 to R382) -/

/-- PUSHSTAT.STATE. -/
def State.pushState (s : State) : Nat := bits (s.reg .dsy 1 0x88) 1 0
def State.pushBlocks (s : State) : Nat := ceilDiv (s.reg .dsy 1 0x80) 65536

/-- PUSH_GO (R379): the checks of PUSHCTL, and the start of a push. -/
def execPushGo (value : Word) (s : State) : Host.Outcome State Fault Refusal :=
  let off := rOff .dsy 1 0x84
  let v := value.toNat
  let m := bits v 15 0
  let len := s.reg .dsy 1 0x80
  let src := s.reg64 .dsy 1 0x70
  .next (s.regWrite off v false
    [(s.sec.role != 1, .state), (s.pushState == 1, .busy), (bit v 31 && (m == 0 || len == 0 || decide (len % 64 ≠ 0)), .value),
     (bit v 31 && decide (src % 64 ≠ 0 ∨ s.reg64 .dsy 1 0x78 % 64 ≠ 0), .align),
     (bit v 31 && (decide (m ≥ 2 ^ s.chain.count) || decide (bit v 16 ∧ src + len > s.lpCap)), .range)] (fun s =>
      let s := s.wr off (v % 2 ^ 31)
      if bit v 31 then (((s.setReg .dsy 1 0x88 1).setReg .dsy 1 0x8C 0).withChain { s.chain with push := s.chain.push + 1 }) else s))

/-- The push ends with a code at a position. -/
def State.pushEnd (s : State) (c : Code) (pos : Nat) : State := s.setReg .dsy 1 0x88 (3 + (c.num <<< 8) + (pos <<< 16))

/-- Why this device refuses the push's first block (R380, R382). -/
def State.pushRefuse (s : State) (dest total : Nat) : Option Code :=
  if dest + total > s.lpCap then some .range else if !s.lpReady then some .state else none

/-- PUSH_BLOCK (R380): a manager reads its next block and a worker receives one; it is checked, stored where MASK names the
device, and passed on where MASK names a higher one. -/
def execPushBlock (hdr : PushHdr) (data : List Byte) (s : State) : Host.Outcome State Fault Refusal :=
  .next (
    if s.sec.role = 1 then
      let i := s.reg .dsy 1 0x8C
      let len := s.reg .dsy 1 0x80
      let dst := s.reg64 .dsy 1 0x78
      let ctl := s.reg .dsy 1 0x84
      let n := min 65536 (len - 65536 * i)
      if s.pushState ≠ 1 ∨ i ≥ s.pushBlocks then s
      else
        let src := s.reg64 .dsy 1 0x70 + 65536 * i
        let bs := if bit ctl 16 then s.engRead (2 ^ 63 + src) n else sliceB data 0 n
        let me := bit ctl 0
        match (if me && i == 0 then s.pushRefuse dst len else none) with
        | some c => s.pushEnd c 0
        | none =>
          let s := if bit ctl 16 then s.lpCountRead src n else s
          let s := if me then s.lpWrite (dst + 65536 * i) bs else s
          let h : PushHdr := { push := s.chain.push, index := i, count := s.pushBlocks, mask := BitVec.ofNat 16 ctl, dest := dst, len := n, total := len, digest := sha384 bs }
          let s := if bits ctl 15 1 ≠ 0 then (s.withChain { s.chain with blocks := s.chain.blocks ++ [h] }) else s
          s.setReg .dsy 1 0x8C (i + 1)
    else if s.sec.role ≠ 2 ∨ !s.dsyUp 0 ∨ !s.chain.valid then s
    else if sha384 data ≠ hdr.digest ∨ data.length ≠ hdr.len then s.withChain { s.chain with refused := s.chain.refused + 1 }
    else
      let m := hdr.mask.toNat
      let me := bit m s.chain.pos
      if me && hdr.index == 0 && (s.pushRefuse hdr.dest hdr.total).isSome then s
      else
        let s := s.withChain { s.chain with refused := 0 }
        let s := if me then s.lpWrite (hdr.dest + 65536 * hdr.index) data else s
        if m >>> (s.chain.pos + 1) ≠ 0 ∧ s.dsyUp 1 then (s.withChain { s.chain with blocks := s.chain.blocks ++ [hdr] }) else s)

/-- PUSH_DONE (R381). -/
def execPushDone (s : State) : Host.Outcome State Fault Refusal :=
  .next (if s.sec.role = 1 ∧ s.pushState = 1 ∧ s.reg .dsy 1 0x8C = s.pushBlocks then s.setReg .dsy 1 0x88 2 else s)

/-- PUSH_FAIL (R382): `code` is one of the causes' codes. -/
def execPushFail (code position : Nat) (s : State) : Host.Outcome State Fault Refusal :=
  .next (match [Code.digest, .range, .state, .link].find? (fun c => c.num == code) with
  | some c => if s.sec.role = 1 ∧ s.pushState = 1 ∧ position < 16 then s.pushEnd c position else s
  | none => s)

/-! ### The configuration digest (R386, R387, R354) -/

/-- The configuration digest of the present settings, contexts and firmware (R387). -/
def State.cfgDigest (s : State) : List Byte :=
  sha384 (((rwkWords.filter (fun o => match pageAt (o / 4096) with | some (t, _) => cfgClass t | none => false)).flatMap (fun o => leBytes 4 (s.rd o)))
    ++ (List.range 32).flatMap (fun c =>
        if (s.ctx c).ex then let b := s.ctxPayload c; b.take 24 ++ List.replicate 6 0#8 ++ b.drop 30 else List.replicate 192 0#8)
    ++ sliceB s.sec.meas 0 48)

/-- CFG.STAT.PENDING: a change awaits publication. -/
def State.cfgPending (s : State) : Bool := s.cfg.pending || decide (s.cfg.epoch ≠ s.cfg.pub) || s.cfgDigest != s.cfg.digest

/-- A DIGEST_QUERY is answered: 48 bytes at its destination (R354, R387, R517). -/
def State.queryDone (s : State) (e : Entry) : State :=
  let sc := e.p 8 1
  let l := (s.ctx e.ctx).letter (sc - 1)
  let d := match sc with
    | 0 => sliceB s.cfg.digest 0 48
    | 3 => sliceB s.sec.meas 0 48
    | _ => if l.st = 0 then List.replicate 48 0#8 else sliceB l.digest 0 48
  ((s.bump .cfg 0 0x80 1).cmdWrite e (e.p 16 8) d).ctxDone e (if sc = 1 ∨ sc = 2 then s.okCode e.ctx else .ok) s.cfg.pub 0

/-- DIGEST_QUERY: scope 0 waits until the digest is published. -/
def execDigestQuery (e : Entry) (s : State) : Host.Outcome State Fault Refusal :=
  .next (s.begin e 0x12 (fun s =>
    let sc := e.p 8 1
    let c := e.ctx
    match (entryBad e [1, 2, 3] false [(8, 1), (16, 8)] false).or (firstBad
      [(decide (sc > 3) || (decide (sc = 1 ∨ sc = 2) && c == 255), .value), (decide (sc = 1 ∨ sc = 2) && !(s.ctx c).ex, .state)]) with
    | some k => s.ctxDone e k 0 0
    | none => if sc = 0 ∧ s.cfgPending then (s.withJobs (s.jobs ++ [({ e := e, kind := 18 } : Job)])) else s.queryDone e))

/-! ### The census (R388 to R390) -/

/-- A device's census entry (R389). -/
def State.censusEntry (s : State) (cseq : Nat) : List Byte :=
  let half := (s.dsyAt 0).st == 3 || (s.dsyAt 1).st == 3
  leBytes 1 s.chain.pos ++ leBytes 1 s.sec.role ++ leBytes 1 (1 + 8 * b2n half) ++ leBytes 1 0 ++ leBytes 4 s.cfg.pub ++ sliceB s.cfg.digest 0 48
    ++ leBytes 4 cseq ++ leBytes 4 0

/-- The device adds its entry to a token and passes it on (R388 step 2). -/
def State.passToken (s : State) (entries : List (List Byte)) : State :=
  s.withChain { s.chain with held := none, token := some (entries ++ [s.censusEntry (match entries with | x :: _ => fieldLe x 56 4 | [] => 0)]) }

/-- CENSUS_TOKEN: a worker adds its entry at once, or when its digest is published. -/
def execCensusToken (entries : List (List Byte)) (s : State) : Host.Outcome State Fault Refusal :=
  .next (if s.sec.role ≠ 2 ∨ !s.dsyUp 0 ∨ !s.chain.valid then s
    else if s.cfgPending then (s.withChain { s.chain with held := some entries }) else s.passToken entries)

/-- CONFIG_DIGEST_PUBLISH (R387): epoch and digest are published together; what waited for that goes on. -/
def execConfigDigestPublish (s : State) : Host.Outcome State Fault Refusal :=
  .next (
    let d := s.cfgDigest
    let s := (s.withCfg { s.cfg with pub := s.cfg.epoch, pending := false, digest := d }).withCol { s.col with lastDigest := d }
    let js := s.jobs.filter (fun j => j.kind == 18)
    let s := js.foldl (fun s j => s.queryDone j.e) (s.withJobs (s.jobs.filter (fun j => j.kind != 18)))
    match s.chain.held with | some es => s.passToken es | none => s)

/-- CENSUS (R62, R388, R390): a manager's request for a census. -/
def execCensus (e : Entry) (s : State) : Host.Outcome State Fault Refusal :=
  .next (s.begin e 0x13 (fun s =>
    match (entryBad e [2] false [(16, 8)] false).or (firstBad [(s.sec.role != 1, .state)]) with
    | some k => s.fail e k
    | none =>
      if s.chain.census then s.withChain { s.chain with censusNext := s.chain.censusNext ++ [e] }
      else s.withChain { s.chain with censusReqs := s.chain.censusReqs ++ [e], censusWait := true }))

/-- CENSUS_START (R388 step 1): a request waits and no census is in flight. -/
def execCensusStart (s : State) : Host.Outcome State Fault Refusal :=
  .next (if s.sec.role ≠ 1 ∨ s.chain.census ∨ !s.chain.censusWait then s
    else
      let own := s.censusEntry (s.reg .dsy 1 0x90 + 1)
      s.withChain { s.chain with census := true, censusWait := false, token := if s.dsyUp 1 then some [own] else none })

/-- An entry as the manager records it: ANSWERED, and EPOCHBAD and DIGESTBAD where it differs (R389). -/
def State.judgedEntry (s : State) (b : List Byte) : List Byte :=
  let fl := (fieldLe b 2 1 &&& 9) + 2 * b2n (fieldLe b 4 4 != s.cfg.pub) + 4 * b2n (sliceB b 8 48 != sliceB s.cfg.digest 0 48)
  sliceB b 0 2 ++ leBytes 1 fl ++ sliceB b 3 61

/-- CENSUS_FINISH (R388 to R390): the token is back with the workers' entries, or the census has taken 2 ms. -/
def execCensusFinish (entries : List (List Byte)) (inTime : Bool) (s : State) : Host.Outcome State Fault Refusal :=
  .next (if s.sec.role ≠ 1 ∨ !s.chain.census ∨ (inTime ∧ s.cfgPending) then s
    else
      let seq := (s.reg .dsy 1 0x90 + 1) % 2 ^ 32
      let all := s.censusEntry seq :: entries.map s.judgedEntry
      let at' := fun (p : Nat) => all.find? (fun b => fieldLe b 0 1 == p)
      let ans := (List.range 16).filter (fun p => (at' p).isSome)
      let bad := ans.filter (fun p => match at' p with | some b => decide (fieldLe b 2 1 &&& 6 ≠ 0) | none => false)
      let map := fun (l : List Nat) => l.foldl (fun m p => m + 2 ^ p) 0
      let s := ((s.setReg .dsy 1 0x90 (satNat 32 (s.reg .dsy 1 0x90 + 1))).setReg .dsy 1 0x94 (map ans)).setReg .dsy 1 0x98 (map bad)
      let reqs := s.chain.censusReqs
      let s := s.withChain { s.chain with census := false, censusReqs := s.chain.censusNext, censusNext := [], censusWait := s.chain.censusWait || !s.chain.censusNext.isEmpty }
      reqs.foldl (fun s e =>
        if inTime then
          (s.cmdWrite e (e.p 16 8) ((List.range 16).flatMap (fun p => match at' p with | some b => sliceB b 0 64 | none => List.replicate 64 0#8))).complete e .ok ans.length bad.length
        else s.fail e .link) s)

/-- ALIGN (R386, R394): a higher epoch is written to the Colophon before it takes effect. -/
def execAlign (value : Word) (s : State) : Host.Outcome State Fault Refusal :=
  let v := value.toNat
  .next (s.regWrite (rOff .cfg 0 0x44) v (s.locked 1)
    [(decide (v < s.cfg.epoch), .value), (decide (v > s.cfg.epoch) && !s.supplyOk 60, .power)] (fun s =>
      if v = s.cfg.epoch then s
      else s.colQueue { steps := [deviceStep (s.withCfg { s.cfg with epoch := v })], k := 16, args := [v] }))

end Sys2Proof.Machine
end

