-- ==== Sys2Proof/Machine/Units.lean ====
section
/-!
DEFINITION. Sys2Proof/Machine/Units.lean: UNIT_FENCE and UNIT_UNFENCE (R414, R375) and the return of a fenced unit (R415,
R416).
-/
namespace Sys2Proof.Machine

/-- The unit that a command names by kind, cluster or compositor or port, and array or lane; none where R414 or R375 refuses
the numbers. -/
def namedUnit (e : Entry) : Option Nat :=
  let k := e.p 8 1
  let n := e.p 12 2
  let m := e.p 14 1
  if k = 0 ∧ n ≤ 63 ∧ m ≤ 67 then some (uArr n m)
  else if k = 1 ∧ n ≤ 63 then some (uClu n)
  else if k = 2 ∧ n ≤ 16 then some (uCmp n)
  else if k = 3 ∧ n ≤ 1 ∧ m ≤ 8 then some (uLane n m)
  else none

/-- A lane is fenced (R375): it counts as failed; a link that must retrain for it is DEGRADED. -/
def State.laneFence (s : State) (p l : Nat) : State × Bool := (s.markFenced (uLane p l) 1).laneLost p l

/-- UNIT_FENCE: a fence with reason HOST; the command completes when the fence has taken effect. -/
def execUnitFence (e : Entry) (s : State) : Host.Outcome State Fault Refusal :=
  .next (s.begin e 0x16 (fun s =>
    let u := (namedUnit e).getD 0
    let k := u / 128 % 64
    let lost := u / 8192 == 2 && k != 16 && s.spareBusy && !(s.movesFrom k).2.isEmpty && (s.unit u).state != 1
    match (entryBad e [2] false [(8, 1), (12, 3)] false).or (firstBad
      [((namedUnit e).isNone, .value), (u == uCmp 16 && (s.cmp 16).carry != 0, .state), (u / 8192 == 3 && !s.domOn (46 + k), .power),
       (lost, .nospace)]) with
    | some c => s.fail e c
    | none =>
      if u / 8192 = 3 then
        let r := s.laneFence k (u % 128)
        r.1.complete e (if r.2 then .degraded else .ok) (r.1.fenceReg u) 0
      else
        let s := s.fenceNow u 1
        if (s.unit u).due.isSome then s.withJobs (s.jobs ++ [({ e := e, kind := 7, a := u } : Job)])
        else (s.complete e .ok (s.fenceReg u) 0)))

/-- UNIT_UNFENCE: the unit is RETURNING, and the command completes when it serves or fails its return. A lane becomes the
spare at once. -/
def execUnitUnfence (e : Entry) (s : State) : Host.Outcome State Fault Refusal :=
  .next (s.begin e 0x17 (fun s =>
    let u := (namedUnit e).getD 0
    let k := u / 128 % 64
    let r := s.unit u
    match (entryBad e [2] false [(8, 1), (12, 3)] false).or (firstBad
      [((namedUnit e).isNone, .value), (u / 8192 == 3 && !s.domOn (46 + k), .power), (r.state != 1, .state),
       (u / 8192 == 0 && r.reason == 7, .state)]) with
    | some c => s.fail e c
    | none =>
      if u / 8192 = 3 then
        let s := s.modUnit u (fun x => { x with state := 0, reason := 0 })
        let s := (s.modDsy k (fun d => { d with failed := d.failed.filter (fun l => l != u % 128), spare := if d.st = 2 then some (u % 128) else d.spare })).colQueue
          { steps := [fenceStep s] }
        (s.histWrite u).complete e .ok (s.fenceReg u) 0
      else
        let s := if u / 8192 = 1 then s.setReg .spd k 0x40 1 else s
        (s.modUnit u (fun x => { x with state := 2 })).withJobs (s.jobs ++ [({ e := e, kind := 16, a := u } : Job)])))

/-- A unit fails its return: it is FENCED again. -/
def State.refence (s : State) (u reason : Nat) : State := (s.markFenced u reason).unfenceAnswer u .fenced

/-- Every row of a memory ends at 0 after March C− (R285): the scratchpad of a cluster, and its tiles. -/
def State.marchedCluster (s : State) (c : Nat) : State :=
  let lo := 0x10000000 + c * 0x400000
  { s with mem := s.mem.filter (fun p => !decide (lo ≤ p.1 ∧ p.1 < lo + 0x400000)), parBad := clearBad s.parBad lo 0x400000
           tiles := FMap.mapVals {} (fun k (t : Tile) => if k / 512 = c then { t with ent := [] } else t) s.tiles }

/-- A returning cluster (R416): after a march that passes it serves, and the arrays that were SERVING return in their turn;
the others stand as they were. -/
def State.clusterReturn (s : State) (c : Nat) (pass : Bool) : State :=
  let u := uClu c
  let s := s.marchedCluster c
  if !pass then (s.report { kind := 0x0B, unit := u }).refence u 5
  else
    let s := (s.modUnit u (fun x => { x with state := 0, reason := 0, passAt := s.passNow })).setReg .spd c 0x40 0
    let s := (List.range 68).foldl (fun s a =>
      let k := akey c a
      match (s.arr k).held with
      | none => s
      | some st =>
        if st = 3 then (s.modArr k (fun r => { r with held := none })).modUnit (uArr c a) (fun x => { x with state := 2 })
        else s.modArr k (fun r => { r with st := st, held := none })) s
    (s.colQueue { steps := [fenceStep s] }).unfenceAnswer u .ok

/-- A returning array (R415): an array without an owner is erased, its wear written first; another serves from its context's
next boundary once its epoch, weights and calibration hold. -/
def State.arrayReturn (s : State) (key : Nat) (weightsOk secondOk calOk : Bool) : State :=
  let u := uArr (key / 128) (key % 128)
  let r := s.arr key
  if !r.owned then
    if s.col.queue.any (fun w => w.k == 15 && w.args == [key]) then s else s.colQueue { steps := wearSteps [key], k := 15, args := [key] }
  else if r.serveAt then s
  else if r.epoch ≠ (s.ctx r.ctx).epoch then s.refence u 0x0B
  else
    let b := if weightsOk then (s, none) else s.backingSlice r.ctx r.gen r.logical
    let s := b.1
    if !weightsOk && b.2.isNone then s.refence u 8
    else
      let s := match b.2 with
        | some sl => (s.modArr key (fun r => { r with weights := sliceWeights r.layer sl })).colQueue { steps := wearSteps [key] }
        | none => s
      if !weightsOk && !secondOk then s.refence u 8
      else if !calOk then s.refence u 9
      else
        let s := s.modArr key (fun r => { r with serveAt := true })
        if (s.ctx r.ctx).inv.isNone then s.boundary r.ctx else s

/-- UNIT_RETURN (R415, R416): a RETURNING array or cluster passes or fails its checks. `weightsOk` is a cluster's march or an
array's first weight check, `secondOk` the check after reprogramming. A compositor returns by its reload (CMP_RELOAD). -/
def execUnitReturn (unit : Half) (weightsOk secondOk calOk : Bool) (s : State) : Host.Outcome State Fault Refusal :=
  let u := unit.toNat
  .next (if (s.unit u).state ≠ 2 then s
    else if u / 8192 = 1 then (if s.cluOn (u / 128 % 64) then s.clusterReturn (u / 128 % 64) weightsOk else s)
    else if u / 8192 = 0 then
      if !s.cluOn (u / 128) ∨ s.cluFenced (u / 128) then s else s.arrayReturn (akey (u / 128) (u % 128)) weightsOk secondOk calOk
    else s)

end Sys2Proof.Machine
end

