-- ==== Sys2Proof/Machine/Reset.lean ====
section
/-!
DEFINITION. Sys2Proof/Machine/Reset.lean: what a reset, a loss of power of a domain and a loss of the host link take away (R43,
R146, R500, R512, R543, R555).
-/
namespace Sys2Proof.Machine

/-! ### Registers -/

/-- A BAR0 word belongs to a retained register (R14). -/
def isKept (off : Nat) : Bool :=
  match pageAt (off / 4096) with
  | none => false
  | some (t, _) => match findReg t (off % 4096) with | some (r, _) => r.acc == .rwk | none => false

/-- Pages of the blocks that keep running through PERST_N: Colophon, holdup controller, housekeeping converters, thermal
supervisor (R512). -/
def runsOn (p : Nat) : Bool :=
  match pageAt p with | some (t, _) => t == .col || t == .hld || t == .hkc || t == .thm | none => false

/-- Words that a reset leaves: the retained ones, and those of the blocks that keep running; the locks of R527 and THM.TRIP only
where `locks` says so (R489, R512). -/
def survives (locks : Bool) (off : Nat) : Bool :=
  if off = rOff .thm 0 0x44 ∨ off = rOff .sec 0 0x40 then locks else isKept off || runsOn (off / 4096)

/-! ### Arrays, clusters -/

/-- What an array's cells, its spare routing, its wear and its calibration record hold without power: the rest is gone. -/
def arrKept (k : Nat) (r : Arr) : Arr :=
  { arrDflt k with weights := r.weights, layer := r.layer, rowmap := r.rowmap, colmap := r.colmap, progcyc := r.progcyc, recD := r.recD
                   tbase := r.tbase, tcal := r.tcal, gamma := r.gamma, lcal := r.lcal, hasRec := r.hasRec, due := r.due, twinfail := r.twinfail }

/-- An array of a cluster pair that has lost power keeps that and, in the always-on island, who owns it (R415). -/
def arrOff (k : Nat) (r : Arr) : Arr :=
  { arrKept k r with st := r.st, owned := r.owned, ctx := r.ctx, gen := r.gen, logical := r.logical, copy := r.copy, lent := r.lent
                     epoch := r.epoch, held := r.held }

/-- Every listed array changed by `f`. -/
def State.mapArrs (s : State) (f : Nat → Arr → Arr) : State :=
  { s with arrays := s.arrays.foldl (fun m p => FMap.put (arrDflt p.1) m p.1 (f p.1 p.2)) [] }

/-- Every listed unit's record after a reset: a history that no HISTORY entry holds lasts until power-off (R441); the rest is
read again at mount. -/
def State.unitsKept (s : State) : FMap UnitRec :=
  FMap.mapVals {} (fun u (x : UnitRec) => if (s.histSlotOf u).isSome then {} else { total := x.total, evs := x.evs.map (fun e => { e with old := true }) }) s.units

/-! ### The Colophon's queue (R435, R512) -/

/-- Continuations that are the device's own and outlive a reset: none, the raise of SVNMIN, the power-on hours. -/
def ownWrite (w : ColWrite) : Bool := w.job.isNone && (w.k == 0 || w.k == 20 || w.k == 21)

/-- Writes after a reset: a step in progress finishes, without its command; waiting writes of the device stay. -/
def colKept (l : List ColWrite) : List ColWrite :=
  l.filterMap (fun w =>
    if ownWrite w then some w
    else if w.active.isSome then some { steps := w.steps.take 1, active := w.active } else none)

/-! ### Reset (R512) -/

/-- Everything that is not retained is at its value after power-up; the always-on blocks go on. -/
def State.resetCore (s : State) (locks : Bool) : State :=
  let a := (s.mapArrs arrKept).arrays
  let d : State := State.reset
  { d with
    pending := s.pending, free := s.free, perst := s.perst, powered := s.powered, railOk := s.railOk
    regs := s.regs.filter (fun p => survives locks p.1), pages := s.pages.filter (fun p => runsOn p.1)
    host := { d.host with writes := s.host.writes }
    arrays := a, units := s.unitsKept, qfreq := FMap.mapVals 80 (fun _ v => v % 256) s.qfreq
    col := { d.col with mem := s.col.mem, queue := colKept s.col.queue, hours := s.col.hours }
    hld := s.hld, hkc := s.hkc, thm := s.thm
    doms := FMap.mapVals {} (fun _ (x : Dom) => { d.dom 0 with offs := x.offs }) s.doms
    xng := FMap.mapVals {} (fun _ (x : Xng) => { x with closed := false }) s.xng
    sec := { d.sec with role := s.sec.role, flash := s.sec.flash, cause := s.sec.cause }
    tap := if locks then s.tap else { s.tap with probe := [] } }

/-! ### Loss of the host link (R555) -/

/-- Configuration space, HIF and the QUE pages return to their values after power-up, APBASE to the one last committed; commands
fetched go on, and what they would write is discarded. -/
def State.linkLost (s : State) : State :=
  let mine := fun (off : Nat) => match pageAt (off / 4096) with | some (t, _) => t == .hif || t == .que | none => false
  let ap := rOff .hif 0 0x50
  let s := (s.wr ap (s.committed ap)).wr (ap + 4) (s.committed (ap + 4))
  { s with
    regs := s.regs.filter (fun p => !mine p.1 || isKept p.1)
    pages := s.pages.filter (fun p => !mine (p.1 * 4096))
    queues := FMap.mapVals {} (fun _ (q : QueueSt) => { inflight := q.inflight.map (fun x => { x with lost := true }) }) s.queues
    host := { writes := s.host.writes } }

/-! ### Loss of power of a switched domain (R43, R146, R295, R500) -/

/-- Block-specific registers of a domain's pages after its power switch has opened: retained words keep their values (DESIGN
CHOICE: log 62), and an LPDDR5X channel its state. -/
def State.domRegs (s : State) (d : Nat) : State :=
  let mine := fun (off : Nat) => match pageAt (off / 4096) with | some (t, i) => domOf t i == some d | none => false
  { s with regs := s.regs.filter (fun p => !mine p.1 || isKept p.1 || (decide (d ≥ 48) && p.1 % 4096 == 0x44))
           pages := FMap.mapVals {} (fun p (h : PageHdr) => if mine (p * 4096) then { h with staging := none } else h) s.pages }

/-- A cluster without power: its memories, tiles, chain sets, profiles and generators hold nothing (R146). -/
def State.cluLost (s : State) (c : Nat) : State :=
  let lo := 0x10000000 + c * 0x400000
  let s := (s.arrKeys (fun k r => k / 128 == c && r.testDue)).foldl (fun s k => s.testLost k) s
  let s := s.mapArrs (fun k r => if k / 128 = c then arrOff k r else r)
  let s := s.modClu c (fun x => { profiles := FMap.mapVals {} (fun _ (p : Profile) => { p with data := [] }) x.profiles, rowRepair := x.rowRepair })
  { s with mem := s.mem.filter (fun p => !decide (lo ≤ p.1 ∧ p.1 < lo + 0x400000)), parBad := clearBad s.parBad lo 0x400000
           tiles := FMap.mapVals {} (fun k (t : Tile) => if k / 512 = c then { owned := t.owned, ctx := t.ctx, fp := t.fp } else t) s.tiles }

/-- The power switch of a domain opens. -/
def State.domLost (s : State) (d : Nat) : State :=
  let s := s.domRegs d
  if d < 32 then ((s.cluLost (2 * d)).cluLost (2 * d + 1)).settleTests
  else if 36 ≤ d ∧ d ≤ 39 then
    let lo := (d - 36) * 0x1800000
    { s with mem := s.mem.filter (fun p => !decide (lo ≤ p.1 ∧ p.1 < lo + 0x1800000)), parBad := clearBad s.parBad lo 0x1800000 }
  else if 41 ≤ d ∧ d ≤ 44 then s.modPort (d - 41) (fun p => { sent := p.sent })
  else if d = 45 then s.linkLost
  else if d = 46 ∨ d = 47 then s.linkDrop (d - 46) 0
  else if 48 ≤ d then s.setReg .lpx (d - 48) 0x44 (s.reg .lpx (d - 48) 0x44 % 2 ^ 10 + 2 ^ 10)
  else s

end Sys2Proof.Machine
end

