-- ==== Sys2Proof/Machine/Thermal.lean ====
section
/-!
DEFINITION. Sys2Proof/Machine/Thermal.lean: the thermal supervisor and the hardware shutdown (R479 to R490, R502, R503).
-/
namespace Sys2Proof.Machine

def State.modThm (s : State) (f : ThmSt → ThmSt) : State := { s with thm := f s.thm }

/-- Kind of a faulty reading (TEMP.FAULT): 1 open, 2 short, 3 outside −60 °C to +160 °C; 0 for a good one (R480). -/
def diodeFault : Diode → Nat
  | .openD => 1
  | .shortD => 2
  | .temp q => if q < -240 ∨ 640 < q then 3 else 0

def diodeValue : Diode → Int
  | .temp q => q
  | _ => 0

/-- State after a good reading (R481); SENSOR FAULT is left as if the reading had risen from NORMAL. -/
def thmNext (st : Nat) (q : Int) : Nat :=
  if 420 ≤ q then 2
  else if st = 2 ∧ 400 ≤ q then 2
  else if 380 ≤ q then 1
  else if (st = 1 ∨ st = 2) ∧ 360 ≤ q then 1
  else 0

/-- The supervisor enters a state: counts, SHED and grace on THROTTLE, enforcement at once on SENSOR FAULT; leaving THROTTLE or
SENSOR FAULT ends enforcement (R481, R483, R485). -/
def State.thmEnter (s : State) (st : Nat) : State :=
  if st = s.thm.st then s
  else
    let shed := bits (s.reg .thm 0 0x40) 6 0
    let s := s.modThm (fun t => { t with st := st, enforced := st == 3, grace := st == 2, shed := if st ≥ 2 then shed else 0 })
    if st = 1 then s.bump .thm 0 0x58 1
    else if st = 2 then s.bump .thm 0 0x5C 1
    else if st = 3 then (s.bump .thm 0 0x60 1).bump .thm 0 0x64 1
    else s

/-- The published reading follows a change of 1.00 °C or of state (R482). -/
def State.thmPublish (s : State) (old : Nat) : State :=
  if s.thm.st ≠ old ∨ 4 ≤ (s.thm.temp - s.thm.pub).natAbs then s.modThm (fun t => { t with pub := t.temp }) else s

/-- A faulty reading (R480): two in succession of one kind make the diode faulty. -/
def State.badReading (s : State) (k : Nat) : State :=
  let twice := s.thm.bad == k
  let s := s.modThm (fun t => { t with bad := k, good := 0, cool := 0, flt := if twice then k else t.flt, valid := t.valid && !twice })
  if twice then s.thmEnter 3 else s

/-- A good reading. While the diode is faulty the second in succession clears the fault, and the next one sets the state
(DEDUCED: log 63). -/
def State.goodReading (s : State) (q : Int) : State :=
  let cool := if s.thm.shutdown = 1 ∧ q < 360 then s.thm.cool + 1 else 0
  let s := s.modThm (fun t => { t with bad := 0, cool := cool })
  if s.thm.flt ≠ 0 ∧ s.thm.good = 0 then s.modThm (fun t => { t with good := 1 })
  else
    let cleared := s.thm.flt != 0
    let s := s.modThm (fun t => { t with flt := 0, good := 0, valid := true, temp := q, peak := if t.peakSet then max t.peak q else q, peakSet := true })
    if cleared then s else s.thmEnter (thmNext s.thm.st q)

/-- DIODE_READING (R479 to R485, R121): one reading of the diode; the temperature triggers of the arrays in service follow it. -/
def execDiodeReading (r : Diode) (s : State) : Host.Outcome State Fault Refusal :=
  .next (if !s.powered then s
    else
      let old := s.thm.st
      if diodeFault r ≠ 0 then (s.badReading (diodeFault r)).thmPublish old
      else
        let s := (s.goodReading (diodeValue r)).thmPublish old
        (s.arrKeys (fun _ x => x.owned)).foldl (fun s k => s.evalTriggers k) s)

/-- GRACE_EXPIRY (R483): enforcement begins if the state is still THROTTLE. -/
def execGraceExpiry (s : State) : Host.Outcome State Fault Refusal :=
  .next (if s.thm.st = 2 ∧ s.thm.grace then (s.modThm (fun t => { t with grace := false, enforced := true })).bump .thm 0 0x64 1 else s)

/-! ### Shutdown (R486 to R490) -/

def tripNo (e : List Byte) : Nat := fieldLe e 2 2

/-- The entry a new trip replaces: the first unused one, or failing that the oldest (R490). -/
def tripSlot (l : List (List Byte)) : Nat :=
  let used := fun i => fieldLe (nth [] l i) 0 1 != 0
  match (List.range 8).find? (fun i => !used i) with
  | some i => i
  | none => (List.range 8).foldl (fun m i => if newer16 (tripNo (nth [] l m)) (tripNo (nth [] l i)) then i else m) 0

/-- Number of a new trip. -/
def tripNext (l : List (List Byte)) : Nat :=
  match (l.filter (fun e => fieldLe e 0 1 != 0)).map tripNo with
  | [] => 1
  | a :: r => (newest16 a r + 1) % 65536

def State.logTrip (s : State) (cause : Nat) : State :=
  let l := (List.range 8).map (fun i => sliceB (nth [] s.thm.log i) 0 12)
  let e := leBytes 1 cause ++ leBytes 1 (bits (s.reg .thm 0 0x44) 6 0) ++ leBytes 2 (tripNext l) ++ leBytes 2 (toBits 16 s.thm.temp) ++ leBytes 2 0
    ++ leBytes 4 s.col.hours
  let s := s.modThm (fun t => { t with log := modifyNth (fun _ => e) l (tripSlot l) })
  s.colQueue { steps := [thermStep s] }

/-- A shutdown (R488): THERMTRIP_N asserted, every switched domain off, the compositors in reset, and the trip logged. -/
def State.shutDown (s : State) (cause : Nat) : State :=
  if !s.powered ∨ s.thm.shutdown ≠ 0 then s
  else
    let on := fun d => (s.dom d).st != 0
    let s := s.resetCore true
    let s := (List.range 50).foldl (fun s d => s.modDom d (fun x => { x with st := 0, offs := if on d then min 65535 (x.offs + 1) else x.offs })) s
    (s.modThm (fun t => { t with shutdown := cause, tripN := false, cool := 0 })).logTrip cause

/-- SENSOR_FAULT_TIMEOUT (R485): 250 ms after the entry into SENSOR FAULT with the diode still faulty. -/
def execSensorFaultTimeout (s : State) : Host.Outcome State Fault Refusal :=
  .next (if s.thm.st = 3 ∧ s.thm.flt ≠ 0 then s.shutDown 2 else s)

/-- THERMAL_TRIP (R486, R488). -/
def execThermalTrip (s : State) : Host.Outcome State Fault Refusal := .next (s.shutDown 1)

/-! ### The THM page -/

/-- PEAKCLR (R502): PEAK becomes the present reading. -/
def execPeakclr (value : Word) (s : State) : Host.Outcome State Fault Refusal :=
  .next (s.regWrite (rOff .thm 0 0x54) value.toNat false [] (fun s =>
    if bit value.toNat 0 then s.modThm (fun t => { t with peak := t.temp, peakSet := t.valid }) else s))

/-- TRIP_WRITE (R486): once locked, only a write that keeps the lock and does not raise the level is accepted. -/
def execTripWrite (value : Word) (s : State) : Host.Outcome State Fault Refusal :=
  let off := rOff .thm 0 0x44
  let old := s.rd off
  let v := value.toNat
  .next (s.regWrite off v (bit old 31 && (!bit v 31 || decide (bits v 6 0 > bits old 6 0))) [] (fun s => s.wr off v))

end Sys2Proof.Machine
end

