-- ==== Sys2Proof/Machine/Commit.lean ====
section
/-!
DEFINITION. Sys2Proof/Machine/Commit.lean: what follows the end or the failure of a Colophon write (R435, R436), DEV_COMMIT
(R446), host access to the Colophon (R442 to R445), power-on hours (R31) and holdup energy (R449 to R452, R457).
-/
namespace Sys2Proof.Machine

/-! ### After a write (R434, R435) -/

def ColWrite.arg (w : ColWrite) (i : Nat) : Nat := nth 0 w.args i

/-- Programming of arrays whose wear is recorded may end (R134). -/
def State.markBegun (s : State) (ks : List Nat) : State :=
  ks.foldl (fun s k => s.modArr k (fun r => if r.st = 2 then { r with begun := true } else r)) s

/-- FLAGS of a first load's completion: BORROWED and SPILLED (R63). -/
def State.loadFlags (s : State) (c : Nat) : Nat := (b2n (s.borrowed c) <<< 5) + (b2n (!(s.ctx c).spill.isEmpty) <<< 6)

/-- An array without an owner has been erased: SPARE while its cluster has fewer than four unlent ones, else FREE (R415). -/
def State.erasedReturn (s : State) (k : Nat) : State :=
  let c := k / 128
  let u := uArr c (k % 128)
  if (s.unit u).state ≠ 2 then s
  else
    let spares := ((List.range 68).filter (fun a => let r := s.arr (akey c a); r.st == 0 && !r.owned)).length
    let s := s.modArr k (fun r => { r with weights := [], layer := {}, st := if spares < 4 then 0 else 1 })
    let s := (s.modUnit u (fun x => { x with state := 0, reason := 0 })).unfenceAnswer u .ok
    s.colQueue { steps := [s.ownStep c] }

/-- The SETTINGS sequence number now in the store (R446). -/
def State.settingsSeq (s : State) : Nat := match s.colChosen 0 0 with | .found q _ _ => q | _ => 0

/-- The configuration epoch raised to `v` (R386). -/
def State.epochTo (s : State) (v : Nat) : State :=
  if s.cfg.epoch < v then (s.withCfg { s.cfg with epoch := v - 1 }).cfgAdvance else s

/-- SVNMIN raised; the directory loses the STAGED bit of each slot below it (R522). -/
def State.svnRaise (s : State) (v : Nat) : State :=
  let s := { s with sec := { s.sec with svnMin := max s.sec.svnMin v } }
  let d := s.fwDir.1
  let keep := fun (slot : Nat) => if bit d.staged slot && decide (s.sec.svnMin ≤ d.svn slot) then 2 ^ slot else 0
  s.dirWrite { d with staged := keep 0 + keep 1 } true

/-- What follows a write of the device's own. -/
def State.ownDone (s : State) (w : ColWrite) : State :=
  if w.k = 12 ∨ w.k = 13 then s.markBegun w.args
  else if w.k = 15 then s.erasedReturn (w.arg 0)
  else if w.k = 16 then s.epochTo (w.arg 0)
  else if w.k = 19 then s.withCol { s.col with pw := setNth s.col.pw (w.arg 0) (w.arg 1), pwBusy := false }
  else if w.k = 20 then s.svnRaise (w.arg 0)
  else s

/-- What follows a command's write. -/
def State.cmdDone (s : State) (w : ColWrite) (e : Entry) : State :=
  let c := w.ctx
  let a := w.arg
  match w.k with
  | 1 => s.markBegun w.args
  | 2 =>
    let s := s.firstActive c (a 2)
    s.ctxFinish e (if s.borrowed c then .degraded else s.okCode c) (a 0) (a 1) (s.loadFlags c)
  | 3 =>
    let s := s.loadRows c (a 0)
    let s := s.modCtx c (fun x => { x.setLetter (a 0) { x.letter (a 0) with st := 2 } with switchDue := some (a 0), programming := none })
    (s.withJobs (s.jobs ++ [({ e := e, kind := 4, ctx := c } : Job)])).boundary c
  | 4 => ((s.modCtx c (fun x => { x with gap := true, programming := some (a 0) })).boundary c).progCheck c
  | 5 => s.ctxFinish e (s.okCode c) (a 0) (a 1)
  | 6 => ((s.created e (a 0)).withJobs (s.jobs.filter (fun j => !(j.kind == 11 && j.ctx == c)))).complete e .ok (a 0) 0
  | 7 =>
    let s := s.stagedNow c (a 0) (loadedLetter ((s.ctx c).letter (a 0)) w.data (a 2 == 1) (a 1) 1 (a 3 == 1))
    s.ctxFinish e (s.okCode c) 0 (spillRate w.data (s.ctx c).spill)
  | 8 => s.ctxFinish e (s.okCode c) (a 0) 0
  | 9 => s.destroyNow c e
  | 10 => s.complete e .ok (a 0) 0
  | 11 => s.ctxFinish e (s.okCode c) (a 0) (a 1)
  | 14 => s.ctxFinish e .degraded (a 0) 0
  | 17 => s.complete e .ok (a 0) 0
  | 18 => s.complete e .ok s.settingsSeq 0
  | _ => s

/-- COLOPHON_STEP_END (R434, R436). -/
def execColophonStepEnd (s : State) : Host.Outcome State Fault Refusal :=
  .next (
    let r := s.colStepEnd
    match r.2 with
    | none => r.1
    | some w => match w.job with | none => r.1.ownDone w | some e => r.1.cmdDone w e)

/-- A write of a command fails for want of energy (R47, R358, R435): E_POWER, with what the command's rule keeps. -/
def State.cmdDenied (s : State) (w : ColWrite) (e : Entry) : State :=
  let c := w.ctx
  let a := w.arg
  let again := fun (s : State) => s.modCtx c (fun x => { x with saved := false })
  match w.k with
  | 1 =>
    match s.jobs.find? (fun j => (j.kind == 8 || j.kind == 9 || j.kind == 10) && j.ctx == c) with
    | none => s.fail e .power
    | some j =>
      if j.kind = 10 then ((s.returnTargets w.args).complete e .power 0 0).progCheck c
      else s.progAbort c (nth 0 j.n 2) e (j.kind == 8) .power 0 0
  | 2 => s.progAbort c (a 2) e true .power 0 0
  | 3 => s.progAbort c (a 0) e false .power 0 0
  | 4 => (s.withJobs (s.jobs.filter (fun j => !(j.kind == 10 && j.ctx == c)))).ctxFinish e .power 0 0
  | 6 => (s.withJobs (s.jobs.filter (fun j => !(j.kind == 11 && j.ctx == c)))).complete e .power 0 0
  | 9 => (s.modCtx c (fun x => { x with state := x.was })).ctxFinish e .power 0 0
  | 10 => (s.colQueue { steps := w.steps }).complete e .power 0 0
  | 17 => s.fail e .power
  | 18 => s.fail e .power
  | 7 => s.ctxFinish e .power 0 0
  | _ => (again s).ctxFinish e .power 0 0

/-- COLOPHON_WRITE_TIMEOUT (R435, R445): a command's write, or a password change, has waited 100 ms. -/
def execColophonWriteTimeout (s : State) : Host.Outcome State Fault Refusal :=
  .next (match takeJob s.col.queue with
  | none => s
  | some (w, r) =>
    let s := s.withCol { s.col with queue := r }
    match w.job with
    | some e => s.cmdDenied w e
    | none => s.withCol { s.col with pwBusy := false, pwFail := true })

/-! ### Commands -/

/-- DEV_COMMIT (R446). -/
def execDevCommit (e : Entry) (s : State) : Host.Outcome State Fault Refusal :=
  .next (s.begin e 0x01 (fun s =>
    match entryBad e [2] false [] false with
    | some c => s.fail e c
    | none => s.colQueue { steps := [{ home := 0, recs := [(0, s.settingsPayload)] }, deviceStep s], k := 18, job := some e }))

/-- Region of a page (R425). -/
def regionOf (p : Nat) : Nat := if p < 64 then 0 else if p < 160 then 1 else if p < 224 then 2 else 3

/-- One attempt at a region's password (R444): right, or one more wrong attempt. -/
def State.pwTry (s : State) (r which v : Nat) : State × Bool :=
  let p := nth 0 s.col.pw (2 * r + which)
  if p = 0 ∨ p = v then ((s.withCol { s.col with tries := setNth s.col.tries r 0 }), true)
  else
    let n := nth 0 s.col.tries r + 1
    ((s.withCol { s.col with tries := setNth s.col.tries r n, locked := if n ≥ 8 then setNth s.col.locked r true else s.col.locked }), false)

/-- Pages of a range. -/
def pagesOf (p f n : Nat) : List Nat := (List.range ((f + n + 1023) / 1024)).map (fun i => p + i)

/-- The checks of R442, in its order; the state carries the attempt. -/
def State.colCheck (s : State) (e : Entry) (write : Bool) : State × Option Code :=
  let p := e.p 8 2
  let f := e.p 10 2
  let n := e.p 12 4
  let last := p + (f + n - 1) / 1024
  let range := decide (n = 0 ∨ n > 1024 ∨ p > 255 ∨ f > 1023 ∨ last > 255) || regionOf p != regionOf last
  let r := regionOf p
  match entryBad e (if write then [2] else [2, 3]) false [(8, 24)] false with
  | some .opcode => (s, some .opcode)
  | some .value => (s, some .value)
  | b =>
    if range then (s, some .range)
    else if b.isSome then (s, b)
    else if nth false s.col.locked r || (write && s.locked 6) then (s, some .lock)
    else
      let t := s.pwTry r (b2n write) (e.p 24 8)
      if !t.2 then (t.1, some .lock)
      else if (pagesOf p f n).any (fun q => decide (228 ≤ q) || (write && decide (224 ≤ q))) then (t.1, some .lock)
      else if (pagesOf p f n).any (fun q => s.busyPages.contains q) then (t.1, some .busy)
      else (t.1, none)

/-- COL_READ (R442, R443). -/
def execColRead (e : Entry) (s : State) : Host.Outcome State Fault Refusal :=
  .next (s.begin e 0x0F (fun s =>
    match s.colCheck e false with
    | (s, some c) => s.fail e c
    | (s, none) => (s.cmdWrite e (e.p 16 8) (s.colBytes (1024 * e.p 8 2 + e.p 10 2) (e.p 12 4))).complete e .ok (e.p 12 4) 0))

/-- COL_WRITE (R442, R443): `data` is what the source address holds. -/
def execColWrite (e : Entry) (data : List Byte) (s : State) : Host.Outcome State Fault Refusal :=
  .next (s.begin e 0x10 (fun s =>
    match s.colCheck e true with
    | (s, some c) => s.fail e c
    | (s, none) =>
      s.colQueue { steps := [{ home := 128, recs := [(1024 * e.p 8 2 + e.p 10 2, sliceB data 0 (e.p 12 4))] }], k := 17, job := some e
                   args := [e.p 12 4] }))

/-- PASSWORD_CHANGE (R445): a write of COL.PWCTL with GO. -/
def execPasswordChange (value : Word) (s : State) : Host.Outcome State Fault Refusal :=
  let off := rOff .col 0 0x50
  let v := value.toNat
  let r := bits v 1 0
  .next (match s.regBad off v with
  | some c => s.rejectOff off c
  | none =>
    if !bit v 31 then s
    else if nth false s.col.locked r then s.rejectOff off .lock
    else
      let t := s.pwTry r 1 s.col.pwOld
      let s := t.1
      if !t.2 then s.rejectOff off .lock
      else if s.col.pwBusy then s.rejectOff off .busy
      else
        let i := 2 * r + b2n (bit v 2)
        let s := s.withCol { s.col with pwBusy := true, pwFail := false }
        s.colQueue { steps := [{ home := 37, recs := [(0, (setNth s.col.pw i s.col.pwNew).flatMap (fun p => leBytes 8 p))] }], k := 19
                     args := [i, s.col.pwNew] })

/-- POWER_ON_HOUR (R31, R448): the hour counts; its write replaces one that still waits. Before the mount there is no DEVICE
record to write (DEDUCED: log 65). -/
def execPowerOnHour (s : State) : Host.Outcome State Fault Refusal :=
  .next (if !s.powered then s
    else
      let s := s.withCol { s.col with hours := satNat 32 (s.col.hours + 1) }
      if !s.col.mounted then s
      else (s.withCol { s.col with queue := s.col.queue.filter (fun w => !(w.k == 21 && w.active.isNone)) }).colQueue
        { steps := [deviceStep s], k := 21 })

/-! ### Holdup energy (R449 to R452) -/

def State.modHld (s : State) (f : HldSt → HldSt) : State := { s with hld := f s.hld }

/-- V_T in millivolts for a capacitance in microfarads (R450). -/
def vTarget (cap : Nat) : Nat := if cap = 0 then 5000 else min 5000 (isqrt (4000000000000 / (105 * cap)))

/-- EUSABLE in microjoules at a node voltage; its rounding is not stated (R450). -/
def State.energy (s : State) (mv : Nat) : State × Nat :=
  let t := s.hld.cap * 475 * (mv * mv - 4000000)
  let d := s.draw
  (d.1, if mv ≤ 2000 then 0 else satNat 16 (t / 1000000000 + (if t % 1000000000 ≠ 0 && Config.roundUp d.2 then 1 else 0)))

/-- The node voltage is read and the usable energy follows it. -/
def State.nodeAt (s : State) (mv : Nat) : State :=
  let r := s.energy mv
  r.1.modHld (fun h => { h with vhold := mv, eusable := r.2 })

/-- HOLDUP_MEASURE_DONE (R449): the rise from 0.5 V to 1.5 V took `micros`, or 1.5 V was not reached. -/
def execHoldupMeasureDone (micros : Nat) (reached : Bool) (s : State) : Host.Outcome State Fault Refusal :=
  .next (if !s.powered ∨ !s.hld.measuring then s
    else
      let d := s.draw
      let cap := satNat 16 (micros / 100 + (if micros % 100 ≠ 0 && Config.roundUp d.2 then 1 else 0))
      let bad := !reached || decide (micros > 540000)
      let st := if !bad && decide (micros < 25000) then 2 else if bad then 3 else 0
      d.1.modHld (fun h => { h with measuring := false, cap := cap, vtarget := vTarget cap, st := st, why := if bad then 1 else 0 }))

/-- HOLDUP_READY (R450). -/
def execHoldupReady (mv : Nat) (s : State) : Host.Outcome State Fault Refusal :=
  .next (if !s.powered ∨ s.hld.measuring ∨ s.hld.st ≠ 0 ∨ mv * 100 < 98 * s.hld.vtarget then s
    else (s.nodeAt mv).modHld (fun h => { h with st := 1 }))

/-- HOLDUP_DROOP (R450). -/
def execHoldupDroop (mv : Nat) (s : State) : Host.Outcome State Fault Refusal :=
  .next (if !s.powered ∨ s.hld.measuring ∨ s.hld.st ≠ 1 ∨ mv * 10 ≥ 9 * s.hld.vtarget ∨ !s.hld.mainGood ∨ !s.busyPages.isEmpty then s
    else (s.nodeAt mv).modHld (fun h => { h with st := 3, why := 2 }))

/-- EUSABLE_UPDATE (R450). -/
def execEusableUpdate (mv : Nat) (s : State) : Host.Outcome State Fault Refusal :=
  .next (if !s.powered ∨ s.hld.measuring then s else s.nodeAt mv)

/-- REMEASURE (R449, R457). -/
def execRemeasure (value : Word) (s : State) : Host.Outcome State Fault Refusal :=
  let go := bit value.toNat 0
  .next (s.regWrite (rOff .hld 0 0x60) value.toNat false [(go && (!s.col.queue.isEmpty || s.hld.measuring), .busy)] (fun s =>
    if go then s.modHld (fun h => { h with measuring := true }) else s))

/-- Everything that needs power is gone; the Colophon, the flash and the arrays' cells keep what they hold. -/
def State.powerOff (s : State) : State :=
  let a := (s.mapArrs arrKept).arrays
  { State.reset with
    pending := s.pending, free := s.free, powered := false, host := { writes := s.host.writes }, arrays := a
    col := { mem := s.col.mem, isolated := true }, sec := { flash := s.sec.flash }
    doms := (List.range 50).map (fun d => (d, ({ st := 0 } : Dom))) }

/-- VDD_AON_FALL (R436, R452): a step in progress ends on holdup energy; without enough of it, only its first `written` bytes are
new, and the rest of its group reads 0xFF. -/
def execVddAonFall (written : Nat) (s : State) : Host.Outcome State Fault Refusal :=
  .next (if !s.powered then s
    else
      let s := match s.col.queue with
        | w :: _ => match w.active with
          | some (a, bs, pg) =>
            let e := if pg = 0 then 4 else 60 * pg
            let new := if 4 * e ≤ s.eusable then bs else bs.take written ++ List.replicate (bs.length - written) 0xFF#8
            s.withCol { s.col with mem := colPut s.col.mem a new }
          | none => s
        | [] => s
      s.powerOff)

end Sys2Proof.Machine
end

