-- ==== Sys2Proof/Machine/Hkc.lean ====
section
/-!
DEFINITION. Sys2Proof/Machine/Hkc.lean: the housekeeping converters (R458 to R478): the sequencer, outputs and data registers,
statistics, urgent conversions, self-calibration and the twin check.
-/
namespace Sys2Proof.Machine

def State.modHkc (s : State) (f : HkcSt → HkcSt) : State := s.withHkc (f s.hkc)
/-- A converter: 0 A, 1 B. -/
def HkcSt.conv (h : HkcSt) (c : Nat) : HkcConv := if c = 0 then h.a else h.b
def HkcSt.setConv (h : HkcSt) (c : Nat) (x : HkcConv) : HkcSt := if c = 0 then { h with a := x } else { h with b := x }

/-- The value of a staged register that is in force (R465). -/
def State.hkcForce (s : State) (o v : Nat) : Nat := match FMap.get 0 s.hkc.staged o with | 0 => v | x + 1 => x
def State.hkcEntry (s : State) (i : Nat) : Nat := s.hkcForce (0x200 + 8 * i) (s.reg64 .hkc 0 (0x200 + 8 * i))
def State.hkcLen (s : State) : Nat := s.hkcForce 0x44 (s.reg .hkc 0 0x44)
def State.scalRunning (s : State) : Bool := bit (s.reg .hkc 0 0x98) 0

/-- A table entry's fields (R477). -/
def enChannel (e : Nat) : Nat := bits e 5 0
def enGain (e : Nat) : Nat := bits e 7 6
def enFilter (e : Nat) : Nat := bits e 9 8
def enOsr (e : Nat) : Nat := bits e 13 10
def enConv (e : Nat) : Nat := bits e 15 14
def enDest (e : Nat) : Nat := bits e 17 16
def enRepeat (e : Nat) : Nat := bits e 31 24
def enDelay (e : Nat) : Nat := bits e 47 32
def enSettings (e : Nat) : Nat × Nat × Nat × Nat := (enChannel e, enGain e, enFilter e, enOsr e)

/-- Outputs that carry SETTLE after a change (R467). -/
def settleN (filter : Nat) : Nat := filter + 1

/-! ### Writes (R465, R478) -/

/-- A staged register takes its value: at once while the sequencer is stopped, otherwise at the next wrap; reads show it at
once. -/
def State.hkcStage (s : State) (o old : Nat) (put : State → State) : State :=
  let s' := put s
  if s.hkc.running && FMap.get 0 s.hkc.staged o == 0 then s'.modHkc (fun h => { h with staged := FMap.put 0 h.staged o (old + 1) }) else s'

/-- The first fault of an ENTRY's fields, the highest first. -/
def hkcEntryBad (v : Nat) : Option Code :=
  let fs := hkcEntry.flds
  ((fldsBad (fs.filter (fun f => decide (f.lo > 13))) v).or
    (if enOsr v > 8 ∨ (enFilter v = 0 ∧ enOsr v ≠ 0) ∨ (enFilter v ≠ 0 ∧ enOsr v = 0) then some .value else none)).or
    (fldsBad (fs.filter (fun f => decide (f.lo ≤ 13))) v)

/-- ENTRYi commits (R465, R478); `acc` is the offset of the access. -/
def State.hkcEntryWrite (s : State) (i v acc : Nat) : State :=
  let off := rOff .hkc 0 (0x200 + 8 * i)
  match (hkcEntryBad v).or (if s.locked 3 then some .lock else none) with
  | some c => s.rejectOff acc c
  | none => s.hkcStage (0x200 + 8 * i) (s.rd64 off) (fun s => s.regPut off v)

/-- The low half of a 64-bit register is staged in its page (R50). -/
def State.stageLow (s : State) (off v : Nat) : State := s.modPage (off / 4096) (fun p => { p with staging := some (off % 4096, v) })

/-- The value that a write of a high word commits, and the page's staging word after it (R50). -/
def State.takeLow (s : State) (off v : Nat) : State × Nat :=
  let lo := off - 4
  match (s.page (off / 4096)).staging with
  | some (o, x) =>
    if o = lo % 4096 then (s.modPage (off / 4096) (fun p => { p with staging := none }), x + v * 2 ^ 32) else (s, s.rd lo + v * 2 ^ 32)
  | none => (s, s.rd lo + v * 2 ^ 32)

/-- HKC_STAGED_WRITE (R465): SEQLEN, or a word of an ENTRY, by page offset. -/
def execHkcStagedWrite (offset : Nat) (value : Word) (s : State) : Host.Outcome State Fault Refusal :=
  let v := value.toNat
  let off := rOff .hkc 0 offset
  .next (if offset = 0x44 then
      s.regWrite off v (s.locked 3) [] (fun s => s.hkcStage 0x44 (s.rd off) (fun s => s.regPut off v))
    else if 0x200 ≤ offset ∧ offset < 0x300 ∧ offset % 4 = 0 then
      if offset % 8 = 0 then s.stageLow off v
      else let r := s.takeLow off v; r.1.hkcEntryWrite ((offset - 0x204) / 8) r.2 off
    else s)

/-- A change for both converters (R467). -/
def HkcSt.unsettle (h : HkcSt) : HkcSt := { h with a := { h.a with last := none }, b := { h.b with last := none } }

/-- HKC_CTRL_RUN (R464, R465): CTRL. Setting RUN starts the table at entry 0; clearing it stops the sequencer; LOWPWR is
staged while the sequencer runs. -/
def execHkcCtrlRun (value : Word) (s : State) : Host.Outcome State Fault Refusal :=
  let v := value.toNat
  let off := rOff .hkc 0 0x40
  .next (s.regWrite off v (s.locked 3) [] (fun s =>
    let old := s.rd off
    let s := s.regPut off v
    let was := s.hkc.running
    let lp := bit old 2 != bit v 2
    if bit v 0 then
      if was then (if lp && FMap.get 0 s.hkc.staged 0x40 == 0 then s.modHkc (fun h => { h with staged := FMap.put 0 h.staged 0x40 (b2n (bit old 2) + 1) }) else s)
      else s.modHkc (fun h => let h := if lp then h.unsettle else h; { h with running := true, pos := 0, staged := [] })
    else s.modHkc (fun h => let h := if lp then h.unsettle else h; { h with running := false, staged := [] })))

/-- STATACT_CLEAR (R470). -/
def execStatactClear (value : Word) (s : State) : Host.Outcome State Fault Refusal :=
  let off := rOff .hkc 0 0x78
  .next (s.wr off (s.rd off - (s.rd off &&& value.toNat)))

/-- SCALGO (R473, R478). -/
def execScalgo (value : Word) (s : State) : Host.Outcome State Fault Refusal :=
  .next (s.regWrite (rOff .hkc 0 0x60) value.toNat false [(bit value.toNat 0 && s.scalRunning, .busy)] (fun s =>
    if bit value.toNat 0 then s.setReg .hkc 0 0x98 (s.reg .hkc 0 0x98 ||| 1) else s))

/-- STATCAP (R471): capture, and clearing in the same clock. -/
def execStatcap (value : Word) (s : State) : Host.Outcome State Fault Refusal :=
  let v := value.toNat
  .next (s.regWrite (rOff .hkc 0 0x64) v false [] (fun s =>
    if !bit v 31 then s
    else
      let i := bits v 4 0
      let x : HkcStat := FMap.get {} s.hkc.stats i
      let s := s.setReg64 .hkc 0 0x68 (toBits 64 x.sum)
      let s := s.setReg .hkc 0 0x70 (x.n + (b2n x.orSeen <<< 28))
      let s := s.setReg .hkc 0 0x74 (if x.n = 0 then 0x80007FFF else toBits 16 x.mn + (toBits 16 x.mx <<< 16))
      if bit v 8 then s.modHkc (fun h => { h with stats := FMap.put {} h.stats i {} }) else s))

/-! ### The sequencer (R463, R464) -/

/-- The converter an entry takes, if it is free (R463). -/
def HkcSt.freeConv (h : HkcSt) (want : Nat) : Option Nat :=
  if want = 0 then (if h.a.busy.isNone then some 0 else none)
  else if want = 1 then (if h.b.busy.isNone then some 1 else none)
  else if h.a.busy.isNone then some 0 else if h.b.busy.isNone then some 1 else none

/-- A converter starts a conversion; other settings than its preceding one's make a change (R467). -/
def HkcConv.start (x : HkcConv) (who n : Nat) (st : Nat × Nat × Nat × Nat) : HkcConv :=
  { x with busy := some who, left := n, since := if x.last = some st then 3 else 0, last := some st }

/-- HKC_ENTRY_START (R463): the next entry of the table starts once its converter is free and, after an entry with a delay, that
entry's last output has been made. -/
def execHkcEntryStart (s : State) : Host.Outcome State Fault Refusal :=
  let h := s.hkc
  .next (if !h.running || decide (h.pos ≥ s.hkcLen) || s.scalRunning || h.twinDue then s
    else
      let prev := if h.pos = 0 then s.hkcLen - 1 else h.pos - 1
      let waits := decide (enDelay (s.hkcEntry prev) ≠ 0 ∧ h.lastE = prev) && (h.a.busy == some prev || h.b.busy == some prev)
      let e := s.hkcEntry h.pos
      match (if waits then none else h.freeConv (enConv e)) with
      | none => s
      | some c => s.modHkc (fun h => { h.setConv c ((h.conv c).start h.pos (enRepeat e) (enSettings e)) with pos := h.pos + 1, lastE := h.pos }))

/-- HKC_WRAP (R464): after the last entry has started, staged writes apply, LOOPCNT advances, and a twin check may fall due. -/
def execHkcWrap (s : State) : Host.Outcome State Fault Refusal :=
  let h := s.hkc
  .next (if !h.running || decide (s.hkcLen = 0) || decide (h.pos < s.hkcLen) then s
    else
      let n := h.loops + 1
      let due := bit (s.reg .hkc 0 0x40) 1 && decide (n % s.reg .hkc 0 0x48 = 0)
      let s := s.bump .hkc 0 0x50 1
      s.modHkc (fun h =>
        let h := if FMap.get 0 h.staged 0x40 ≠ 0 then h.unsettle else h
        { h with staged := [], pos := 0, loops := n, twinDue := h.twinDue || due }))

/-! ### Outputs (R459, R460, R467 to R471) -/

/-- An output after correction by its converter's factors: its code and OR (R459, R460, R473). `raw` is the filtered value before
correction; `past` says that a raw conversion left the range. -/
def hkcCode (f : Int × Int) (raw : Int) (past : Bool) : Nat × Bool :=
  let v := divRNE ((16 * raw - f.1) * f.2) (16 * 32768)
  if past ∨ v > 32767 ∨ v < -32768 then
    ((if v > 32767 ∨ (v ≥ -32768 ∧ raw ≥ 0) then 0x7FFF else 0x8000), true)
  else (toBits 16 v, false)

/-- TWIN.FAIL. -/
def State.hkcSuspect (s : State) : Bool := bit (s.reg .hkc 0 0x58) 16

/-- An output in the data-register format, but for VALID, DUP and OVR. -/
def State.hkcWord (s : State) (c : Nat) (st : Nat × Nat × Nat × Nat) (code : Nat × Bool) (settle : Bool) : Nat :=
  code.1 + (b2n code.2 <<< 19) + (b2n settle <<< 20) + (c <<< 21) + (st.2.1 <<< 22) + (st.1 <<< 24) + (b2n s.hkcSuspect <<< 30)

/-- An output enters an entry's statistics (R471). -/
def hkcEnter (x : HkcStat) (code : Nat × Bool) : HkcStat :=
  let v := sext 16 code.1
  if x.n ≥ 0x0FFFFFFF then x
  else { sum := x.sum + v, n := x.n + 1, mn := if x.n = 0 ∨ v < x.mn then v else x.mn, mx := if x.n = 0 ∨ v > x.mx then v else x.mx
         orSeen := x.orSeen || code.2 }

/-- An output of entry `i` is delivered (R468 to R470). -/
def State.hkcDeliver (s : State) (i dest word : Nat) (code : Nat × Bool) (settle : Bool) : State :=
  let off := rOff .hkc 0 (0x100 + 4 * i)
  let act := rOff .hkc 0 0x78
  let stats := fun (s : State) => if settle then s else s.modHkc (fun h => { h with stats := FMap.upd {} h.stats i (fun x => hkcEnter x code) })
  let valid := bit (s.rd off) 16
  if dest = 0 then s.wr off (word + 2 ^ 16 + (b2n valid <<< 18))
  else if dest = 1 ∨ bit (s.rd act) i then stats s
  else if valid then stats ((s.wr off (s.rd off ||| 2 ^ 18)).wr act (s.rd act ||| 2 ^ i))
  else s.wr off (word + 2 ^ 16)

/-- HKC_OUTPUT: a converter that works for a table entry makes an output. -/
def execHkcOutput (c : Nat) (raw : Int) (past : Bool) (s : State) : Host.Outcome State Fault Refusal :=
  let x := s.hkc.conv c
  .next (if c > 1 then s else match x.busy, x.last with
  | some i, some st =>
    if i ≥ 32 then s
    else
      let settle := decide (x.since < settleN st.2.2.1)
      let code := hkcCode (nth (0, 0x8000) x.factors st.2.1) raw past
      let dest := enDest (s.hkcEntry i)
      let s := s.hkcDeliver i dest (s.hkcWord c st code settle) code settle
      let done := decide (x.left ≤ 1) || !s.hkc.running
      s.modHkc (fun h => h.setConv c { x with since := x.since + 1, left := x.left - 1, busy := if done then none else x.busy })
  | _, _ => s)

/-- A data register is read with consumption (R469). -/
def State.hkcConsume (s : State) (i : Nat) : State :=
  let off := rOff .hkc 0 (0x100 + 4 * i)
  let w := s.rd off
  if bit w 16 then s.wr off (w - 2 ^ 16 + (if bit w 17 then 0 else 2 ^ 17) - (if bit w 18 then 2 ^ 18 else 0)) else s

/-- HKC_DATA_READ (R469, R36): 4 bytes, or 8 bytes over two registers, consume; a read of another size only returns. -/
def execHkcDataRead (i size : Nat) (s : State) : Host.Outcome State Fault Refusal :=
  .next (if i > 31 then s
    else
      let at' := fun (j : Nat) => leBytes 4 (s.rd (rOff .hkc 0 (0x100 + 4 * j)))
      let ans := fun (s : State) (bs : List Byte) => s.withHost { s.host with reply := bs, poisoned := false, unsup := false }
      if size = 8 ∧ i % 2 = 0 then ans ((s.hkcConsume i).hkcConsume (i + 1)) (at' i ++ at' (i + 1))
      else if size = 4 then ans (s.hkcConsume i) (at' i)
      else ans s ((at' i).take size))

/-! ### Urgent conversions (R472) -/

/-- HKC_URGENT: takes a free converter, or is refused. -/
def execHkcUrgent (e : Entry) (s : State) : Host.Outcome State Fault Refusal :=
  .next (s.begin e 0x11 (fun s =>
    let ch := e.p 8 1
    let g := e.p 9 1
    let fl := e.p 10 1
    match (entryBad e [2, 3] false [(8, 3)] false).or (firstBad
      [(decide (ch > 47) || !(g == 1 || g == 2 || g == 4) || decide (fl > 2), .value), (!bit (s.reg .hkc 0 0x98) 1, .state)]) with
    | some k => s.fail e k
    | none =>
      match s.hkc.freeConv 2 with
      | none => (s.bump .hkc 0 0x54 1).fail e .busy
      | some c =>
        let st := (ch, (if g = 1 then 0 else if g = 2 then 1 else 2), fl, (if fl = 0 then 0 else 4))
        s.modHkc (fun h => { h.setConv c ((h.conv c).start 32 1 st) with urgent := some (e, c) })))

/-- HKC_URGENT_RESULT: the last of its outputs, settled, is the answer. -/
def execHkcUrgentResult (raw : Int) (past : Bool) (s : State) : Host.Outcome State Fault Refusal :=
  .next (match s.hkc.urgent with
  | none => s
  | some (e, c) =>
    let x := s.hkc.conv c
    let st := x.last.getD (0, 0, 0, 0)
    let code := hkcCode (nth (0, 0x8000) x.factors st.2.1) raw past
    let w := s.hkcWord c st code false + 2 ^ 16
    (s.modHkc (fun h => { h.setConv c { x with busy := none, left := 0, since := settleN st.2.2.1 + 1 } with urgent := none })).complete e .ok w 0)

/-! ### Self-calibration and the twin check (R473, R474) -/

/-- A new factor within its limits (R473): offset in 1/16 LSB, gain in Q1.15. -/
def factorOk (f : Int × Int) : Bool := decide (f.1.natAbs ≤ 256 * 16 ∧ 95 * 32768 ≤ 100 * f.2 ∧ 100 * f.2 ≤ 105 * 32768)

def newFactors (old new : List (Int × Int)) : List (Int × Int) :=
  (List.range 3).map (fun g => let f := nth (0, 0) new g; if factorOk f then f else nth (0, 0x8000) old g)
def failMask (new : List (Int × Int)) : Nat := (List.range 3).foldl (fun m g => if factorOk (nth (0, 0) new g) then m else m + 2 ^ g) 0

/-- HKC_SELF_CAL: with both converters free, a self-calibration that was asked for ends: A's factors for the three gains, then
B's. -/
def execHkcSelfCal (factors : List (Int × Int)) (s : State) : Host.Outcome State Fault Refusal :=
  .next (if !s.scalRunning || s.hkc.a.busy.isSome || s.hkc.b.busy.isSome then s
    else
      let fa := factors.take 3
      let fb := factors.drop 3
      let s := s.setReg .hkc 0 0x98 (2 + (failMask fa <<< 2) + (failMask fb <<< 5))
      s.modHkc (fun h => { h with a := { h.a with factors := newFactors h.a.factors fa, last := none }
                                  b := { h.b with factors := newFactors h.b.factors fb, last := none } }))

/-- HKC_TWIN_CHECK: with both converters free, a check that is due compares their third outputs. A difference that DIFF cannot hold
leaves it a free value. -/
def execHkcTwinCheck (a b : Int) (s : State) : Host.Outcome State Fault Refusal :=
  .next (if !s.hkc.twinDue || s.scalRunning || s.hkc.a.busy.isSome || s.hkc.b.busy.isSome then s
    else
      let d := a - b
      let bad := decide (d.natAbs > 24)
      let fr := s.draw
      let diff := if d.natAbs ≤ 32767 then toBits 16 d else (Config.freeValue fr.2).toNat % 65536
      let s := fr.1.setReg .hkc 0 0x58 (diff + (b2n bad <<< 16) + 2 ^ 17)
      let s := if bad then s.bump .hkc 0 0x5C 1 else s
      s.modHkc (fun h => { h.unsettle with twinDue := false }))

end Sys2Proof.Machine
end

