-- ==== Sys2Proof/Machine/Mount.lean ====
section
/-!
DEFINITION. Sys2Proof/Machine/Mount.lean: what the boot reads back from the Colophon: the mount (R430 to R433, R438), the retained
registers (R447) and the context table (R130, R359).
-/
namespace Sys2Proof.Machine

/-- A record's chosen payload. -/
def State.payload (s : State) (h ix : Nat) : Option (List Byte) :=
  match s.colChosen h ix with | .found _ pl _ => some pl | _ => none

/-- Every record position: home and index (R428, R521). -/
def allRecs : List (Nat × Nat) := (List.range 39).flatMap (fun h => (List.range (homeRecs h).length).map (fun i => (h, i)))

/-- COL.MOUNTERR: records with no valid copy, and ring pairs with no valid snapshot (R432, R438, R521). -/
def State.mountErrs (s : State) : Nat :=
  (allRecs.filter (fun r => (s.payload r.1 r.2).isNone)).length + ((List.range 32).filter (fun k => (s.ringCur k).isNone)).length

/-- COL.AMBCNT (R431). -/
def State.ambiguous (s : State) : Nat :=
  (allRecs.filter (fun r => match s.colChosen r.1 r.2 with | .ambiguous _ => true | _ => false)).length

/-! ### Unit histories and fences (R411, R432, R440) -/

/-- One HISTORY entry's unit: its record as retained, with the state and reason it shows. -/
def histOf (b : List Byte) : UnitRec :=
  { total := fieldLe b 2 2, state := if fieldLe b 4 1 = 1 then 1 else 0, reason := if fieldLe b 4 1 = 1 then fieldLe b 5 1 else 0
    evs := (List.range 4).filterMap (fun i =>
      let e := sliceB b (8 + 8 * i) 8
      if fieldLe e 0 1 = 0 then none else some { kind := fieldLe e 0 1, ctx := fieldLe e 1 1, invoc := fieldLe e 2 6, all := 0, old := true }) }

/-- Histories are loaded from the HISTORY homes. -/
def State.loadHistory (s : State) : State :=
  (List.range 96).foldl (fun s k =>
    match s.payload (24 + k / 24) 0 with
    | none => s
    | some pl =>
      let b := sliceB pl (40 * (k % 24)) 40
      let u := fieldLe b 0 2
      if u = 0xFFFF then s
      else (s.modUnit u (fun _ => histOf b)).withCol { s.col with hist := FMap.put 0 s.col.hist k (u + 1) }) s

/-- A unit stands fenced, with the reason its history shows or, where it shows none, STARTUP; or it serves (R429, R432). -/
def State.standFenced (s : State) (u : Nat) (fenced : Bool) : State :=
  s.modUnit u (fun x => if fenced then { x with state := 1, reason := if x.state = 1 then x.reason else 0x0B } else { x with state := 0, reason := 0 })

/-- Units of FENCELIST, with their bits: byte offset of the field and bit. -/
def fenceUnits : List (Nat × Nat × Nat) :=
  (List.range 64).map (fun c => (uClu c, 0, c)) ++ (List.range 17).map (fun k => (uCmp k, 8, k)) ++ (List.range 4).map (fun n => (uSlice n, 11, n))
    ++ (List.range 18).map (fun i => (uLane (i / 9) (i % 9), 12, i))

/-- The fences of clusters, compositors, slices and lanes; a fenced lane counts as failed (R375). -/
def State.loadFences (s : State) : State :=
  let s := match s.payload 1 1 with
    | some pl => fenceUnits.foldl (fun s u => s.standFenced u.1 (bit (fieldLe pl u.2.1 8) u.2.2)) s
    | none => s
  (List.range 18).foldl (fun s i =>
    if s.fenced (uLane (i / 9) (i % 9)) then s.modDsy (i / 9) (fun d => { d with failed := d.failed ++ [i % 9] }) else s) s

/-! ### Arrays (R130, R358, R429, R433, R438) -/

/-- An array's calibration record. -/
def calibOf (b : List Byte) (r : Arr) : Arr :=
  let x := fieldLe b 0 4
  let y := fieldLe b 4 4
  if x = 0 ∧ y = 0 then { r with recD := 0, tbase := 0, tcal := 0, gamma := 0x4000, lcal := 0, hasRec := false, due := false, twinfail := false }
  else { r with recD := sext 12 (bits x 11 0), tbase := (bits x 19 12 : Int) - 40, tcal := (bits x 27 20 : Int) - 40, gamma := y % 65536
                lcal := y / 65536, hasRec := true, due := bit x 28, twinfail := bit x 29 }

/-- A cluster's ownership words; none where it has no valid record. -/
def State.ownWords (s : State) (c : Nat) : Option (List Nat) :=
  (s.payload (10 + c / 7) (c % 7)).map (fun pl => (List.range 68).map (fun a => fieldLe pl (4 * a) 4))

/-- A context's letters that its record holds RESIDENT or ACTIVE. -/
def State.recLetter (s : State) (c g : Nat) : Bool :=
  match s.payload (2 + c / 4) (c % 4) with
  | some pl => decide (bits (fieldLe pl 5 1) (2 * g + 1) (2 * g) ≥ 2)
  | none => false

/-- An ownership word whose owner stands: a SERVING array, or a FENCED one whose logical array no SERVING array of the cluster
holds in its place (DEDUCED: log 71). -/
def State.wordOwned (s : State) (ws : List Nat) (w : Nat) : Bool :=
  let st := bits w 2 0
  s.recLetter (bits w 7 3) (bits w 8 8)
    && (st == 3 || (st == 4 && !ws.any (fun v => bits v 2 0 == 3 && bits v 9 3 == bits w 9 3 && bits v 27 16 == bits w 27 16)))

/-- Arrays at the mount: wear, calibration records and states; the owners follow at stage 9. -/
def State.loadArrays (s : State) : State :=
  (List.range 64).foldl (fun s c =>
    let counts := s.ringCounts (c / 2)
    let cal := s.payload (20 + c / 16) (c % 16)
    let ws := s.ownWords c
    (List.range 68).foldl (fun s a =>
      let k := akey c a
      let s := s.modArr k (fun r => { calibOf (sliceB (cal.getD []) (8 * a) 8) r with progcyc := nth 0 counts (68 * (c % 2) + a) })
      match ws with
      | none => (s.modArr k (fun r => { r with st := 4 })).standFenced (uArr c a) true
      | some ws =>
        let st := bits (nth 0 ws a) 2 0
        if st = 4 then (s.modArr k (fun r => { r with st := 4 })).standFenced (uArr c a) true
        else (s.modArr k (fun r => { r with st := if st = 0 then 0 else 1 })).standFenced (uArr c a) false) s) s

/-! ### Memory repairs (R284, R429) -/

def State.loadRepairs (s : State) : State :=
  (List.range 8).foldl (fun s i =>
    match s.payload (28 + i) 0 with
    | none => s
    | some pl => (List.range 126).foldl (fun s e =>
        let b := sliceB pl (8 * e) 8
        if fieldLe b 0 2 = 0xFFFF then s
        else
          let k := spareAt (fieldLe b 2 1) (fieldLe b 0 2 / 128 % 64) (fieldLe b 6 1)
          (s.modClu k.1 (fun x => { x with rowRepair := FMap.upd 0 x.rowRepair k.2 (· + 1) })).withCol { s.col with repairs := s.col.repairs ++ [b] }) s) s

/-! ### The mount (boot stage 3) -/

/-- Highest epoch in any valid CONTEXT record. -/
def State.topEpoch (s : State) : Option Nat :=
  ((List.range 32).filterMap (fun c => (s.payload (2 + c / 4) (c % 4)).map (fun pl => fieldLe pl 8 4))).foldl (fun m e => some (max e (m.getD 0))) none

/-- The Colophon is mounted. Power-on hours and the trip log that this power-up has already counted stand (DEDUCED: log 67). -/
def State.mount (s : State) : State :=
  let amb := s.ambiguous
  let s := (s.setReg .col 0 0x7C s.mountErrs).setReg .col 0 0x78 amb
  let dev := s.payload 1 0
  let roll := s.payload 38 0
  let pw := match s.payload 37 0 with | some pl => pl | none => ((s.payload 36 0).getD []).drop setLen
  let log := match s.payload 1 2 with | some pl => (List.range 8).map (fun i => sliceB pl (12 * i) 12) | none => []
  let s := { s with
    col := { s.col with mounted := true, ambig := decide (amb ≠ 0), factory := (s.payload 0 0).isNone, hist := [], repairs := []
                        pw := (List.range 8).map (fun i => fieldLe pw (8 * i) 8)
                        lastDigest := match dev with | some pl => sliceB pl 4 48 | none => []
                        hours := max s.col.hours (match dev with | some pl => fieldLe pl 56 4 | none => 0) }
    epochCtr := match dev with | some pl => fieldLe pl 52 4 | none => (match s.topEpoch with | some e => (e + 1) % 2 ^ 32 | none => 1)
    thm := { s.thm with log := if s.thm.log.isEmpty then log else s.thm.log }
    sec := { s.sec with svnMin := match roll with | some pl => fieldLe pl 0 4 | none => 0 } }
  let s := s.setReg .sec 0 0x6C (match roll with | some pl => fieldLe pl 4 4 | none => 0)
  s.loadHistory.loadFences.loadArrays.loadRepairs

/-! ### Retained registers (R447) -/

/-- The retained registers of a page, in ascending offset: first offset and row. -/
def rwkRegs (p : Nat) : List (Nat × PType × Reg) :=
  match pageAt p with
  | none => []
  | some (t, i) => (regsOf t).flatMap (fun r =>
      if r.acc == .rwk && !(t == .dsy && i == 0 && r.off == 0xA0) then (List.range r.count).map (fun k => (p * 4096 + r.off + r.size * k, t, r)) else [])

/-- The rules of the register itself, in the state of that moment. -/
def State.keptBad (s : State) (off : Nat) (t : PType) (r : Reg) (v : Nat) : Bool :=
  let o := off % 4096
  let p := off / 4096
  if (fldsBad r.flds v).isSome then true
  else match t with
  | .fhp => (firstBad (s.fhpCases (p - 0x10) o v)).isSome
  | .gal =>
    let i := (o - 0x40) / 4
    match areaOf (decide (i ≥ 4)) v with
    | none => false
    | some a => decide (a.1 + a.2 > 96) || (s.otherAreas i).any (fun b => decide (a.1 < b.1 + b.2 ∧ b.1 < a.1 + a.2))
        || (List.range 4).any (fun n => decide (a.1 < 24 * (n + 1) ∧ 24 * n < a.1 + a.2) && s.fenced (uSlice n))
  | .dsy => o == 0x40 && ((bit v 1 && !(p == 0x41 && s.sec.role == 2)) || (bit v 2 && !(p == 0x42 && s.sec.role == 1)))
  | .hkc => decide (o ≥ 0x200) && (hkcEntryBad v).isSome
  | _ => false

/-- Words are restored in ascending offset; one whose register refuses its value takes the factory value and counts. A factory
value is never refused (DEDUCED: log 68). -/
def State.restoreRegs (s : State) : State :=
  let pl := (s.settings).getD []
  let s := { s with regs := s.regs.filter (fun x => !isKept x.1) }
  ((pageNums.flatMap rwkRegs).foldl (fun (acc : State × Nat) x =>
    let s := acc.1
    let i := acc.2
    let off := x.1
    let r := x.2.2
    let v := fieldLe pl i r.size
    let old := if r.wide then s.rd64 off else s.rd off
    let s := if v = old then s
      else if s.keptBad off x.2.1 r v then (s.bump .col 0 0x80 (r.size / 4)).setReg .col 0 0x84 (off + r.size - 4)
      else if r.wide then s.put64 off v else s.wr off v
    (s, i + r.size)) (s, 0)).1

/-! ### The context table (boot stage 9) -/

/-- The next multiple of 2³² above a recorded invocation number (R216). -/
def nextInvoc (n : Nat) : Nat := (n / 2 ^ 32 + 1) * 2 ^ 32 % 2 ^ 48

/-- A context as its record restores it: EMPTY, or DORMANT; STAGED letters are gone (R358, R359). -/
def State.ctxOf (s : State) (pl : List Byte) : Ctx :=
  let ls := fieldLe pl 5 1
  let letter := fun (g : Nat) => let st := bits ls (2 * g + 1) (2 * g)
    if st ≥ 2 then ({ st := st, digest := sliceB pl (32 + 48 * g) 48 } : Letter) else {}
  { ex := true, state := if fieldLe pl 1 1 = 0 then 0 else 2, fp := fieldLe pl 2 1 == 1, red := fieldLe pl 3 1, critical := bit (fieldLe pl 4 1) 0
    seed := fieldLe pl 16 8, epoch := fieldLe pl 8 4, gennum := fieldLe pl 30 2, invoc := nextInvoc (fieldLe pl 24 6)
    la := letter 0, lb := letter 1, active := if fieldLe pl 6 1 ≤ 1 then some (fieldLe pl 6 1) else none
    tol := fieldLe pl 12 4, digper := fieldLe pl 128 4, period := s.reg .tst 0 0x44 }

/-- A start-up pair value (R130): the reference step's gain from Γ, checked without STEP, in both formes. -/
def startForme (r : Arr) (fr : Nat) : Arr :=
  let cs := (List.range 260).map (fun q =>
    let c : Coef := { gain := refGain r r.gamma (fr + q), off := 0 }
    (q, pairOutcome { gain := r.gamma } c true, c))
  let put := fun (m : FMap Coef) (fm : Nat) => cs.foldl (fun m x => FMap.put {} m (512 * fm + x.1) (if x.2.1 = 1 then x.2.2 else { gain := r.gamma })) m
  { r with forme := put (put [] 0) 1, active := 0, armed := false, fit := cs.foldl (fun m x => FMap.put 0 m x.1 x.2.1) []
           due := r.due || cs.any (fun x => x.2.1 == 2) }

/-- An owned array is restored: its owner, its formes, and 16 test vectors whose comparisons lie within TOLERANCE or not; which,
the command does not say (free value). -/
def State.restoreArr (s : State) (k w : Nat) : State :=
  let c := bits w 7 3
  let fenced := (s.arr k).st == 4
  let s := s.modArr k (fun r => { r with
    st := if fenced then 4 else 3, owned := true, ctx := c, gen := bits w 8 8, copy := bits w 9 9, lent := bit w 10, logical := bits w 27 16
    epoch := (s.ctx c).epoch })
  if fenced then s
  else
    let fr := s.free
    let s := ((s.modArr k (fun r => startForme r fr)).countFails k).withFree (fr + 261)
    if bit (Config.freeValue (fr + 260)).toNat 0 then
      (s.fence (uArr (k / 128) (k % 128)) 0x0B).report { kind := 0x0F, ctx := c, invoc := (s.ctx c).invoc, unit := uArr (k / 128) (k % 128) }
    else s

/-- Contexts are restored from the table, and their arrays from the ownership records. -/
def State.restoreCtxs (s : State) : State :=
  let s := (List.range 32).foldl (fun s c =>
    match s.payload (2 + c / 4) (c % 4) with | some pl => s.setCtx c (s.ctxOf pl) | none => s) s
  (List.range 64).foldl (fun s c =>
    match s.ownWords c with
    | none => s
    | some ws => (List.range 68).foldl (fun s a => if s.wordOwned ws (nth 0 ws a) then s.restoreArr (akey c a) (nth 0 ws a) else s) s) s

end Sys2Proof.Machine
end

