-- ==== Sys2Proof/Machine/Power.lean ====
section
/-!
DEFINITION. Sys2Proof/Machine/Power.lean: quadrant frequencies (R492), power domains (R497 to R501), and the closing of crossings
(R496).
-/
namespace Sys2Proof.Machine

/-! ### Quadrant frequencies (R492) -/

/-- QFREQ_WRITE: a quadrant whose frequency changes stops starting work until it has relocked; a write during the pause replaces
the pending frequency. -/
def execQfreqWrite (value : Word) (s : State) : Host.Outcome State Fault Refusal :=
  let off := rOff .pwr 0 0x50
  let v := value.toNat
  .next (s.regWrite off v false [] (fun s =>
    (List.range 4).foldl (fun s n =>
      if bits v (8 * n + 7) (8 * n) = s.quad n then s
      else s.withQfreq (FMap.put 80 s.qfreq n (s.quad n % 256 + 256))) (s.regPut off v)))

/-- Work in flight in a quadrant: vectors that have started and not reached their tiles, and operations that execute. -/
def State.quadBusy (s : State) (n : Nat) : Bool :=
  s.arrays.any (fun p => p.1 / 128 / 16 == n && !p.2.res.isEmpty)
    || s.ops.any (fun o => decide (o.stage = 2) && o.clusters.any (fun c => c / 16 == n))

/-- QFREQ_RELOCK: with nothing in flight, the quadrant goes on at the frequency that PWR.QFREQ now holds. -/
def execQfreqRelock (n : Nat) (s : State) : Host.Outcome State Fault Refusal :=
  .next (if n > 3 ∨ !s.relocking n ∨ s.quadBusy n then s
    else s.withQfreq (FMap.put 80 s.qfreq n (bits (s.reg .pwr 0 0x50) (8 * n + 7) (8 * n))))

/-! ### Requests (R498, R499) -/

/-- Pages of a domain (R497). -/
def domPages (d : Nat) : List (PType × Nat) :=
  if d < 32 then [2 * d, 2 * d + 1].flatMap (fun c => [(.clu, c), (.arr, c), (.acc, c), (.out, c), (.prf, c), (.spd, c), (.cal, c)])
  else if d = 40 then [(.gal, 0), (.eng, 0), (.eng, 1), (.eng, 2)]
  else if 41 ≤ d ∧ d ≤ 44 then [(.fhp, d - 41)]
  else if d = 45 then [(.hif, 0), (.que, 0), (.que, 1), (.que, 2), (.que, 3)]
  else if d = 46 ∨ d = 47 then [(.dsy, d - 46)]
  else if d = 48 ∨ d = 49 then [(.lpx, d - 48)]
  else []

/-- A domain's own request: a page's GATE.PWR_REQ, or its DCTL.ON. -/
def State.ownReq (s : State) (d : Nat) : Bool :=
  (s.dom d).req || (domPages d).any (fun p => bit (s.page (pageBase p.1 p.2 / 4096)).gate 0)

/-- A domain is requested on; a quadrant's fabric also by any of its cluster pairs. -/
def State.requested (s : State) (d : Nat) : Bool :=
  s.ownReq d || (decide (32 ≤ d ∧ d ≤ 35) && (List.range 8).any (fun k => s.ownReq (8 * (d - 32) + k)))

/-- Domain 46 or 47 of a standalone device, which stays off (R5). -/
def State.staysOff (s : State) (d : Nat) : Bool := s.sec.role == 0 && (d == 46 || d == 47)

/-- A domain may go on, or off, in view of those that it depends on or that depend on it. -/
def State.mayPower (s : State) (d : Nat) (on : Bool) : Bool :=
  if d < 32 then !on || (s.dom (32 + d / 8)).st == 2
  else if d ≤ 35 then on || (List.range 8).all (fun k => (s.dom (8 * (d - 32) + k)).st == 0)
  else if d ≤ 39 then !on || (s.dom 40).st == 2
  else if d = 40 then on || (List.range 4).all (fun k => (s.dom (36 + k)).st == 0)
  else true

/-- Requests take effect: each domain that is OFF or ON and requested otherwise starts its sequence, unless another must come
first; a domain within a sequence ends it first (R498, R500, R501). -/
def State.powerEval (s : State) : State :=
  if s.thm.shutdown ≠ 0 ∨ s.perst ∨ !s.railOk then s
  else (List.range 50).foldl (fun s d =>
    let want := s.requested d && !s.staysOff d
    let st := (s.dom d).st
    if want && st == 0 && s.mayPower d true then s.modDom d (fun x => { x with st := 1 })
    else if !want && st == 2 && s.mayPower d false then s.modDom d (fun x => { x with st := 3 })
    else s) s

/-- The cases of R499 that refuse to leave a domain requested off. -/
def State.keepsOn (s : State) (d : Nat) : Bool :=
  let slice := d - 36
  let touches := fun (first n : Nat) => decide (first < 24 * (slice + 1) ∧ 24 * slice < first + n)   -- MiB
  let marched := fun (m u : Nat) => s.marching.any (fun x => x % 256 == m * 64 + u)
  if d < 32 then
    let mine := fun (c : Nat) => (s.ctxArrays c).any (fun k => k / 256 == d)
    s.ctxList.any (fun c => mine c && ((s.ctx c).inv.isSome || (s.ctx c).cal.run == 3))
      || [0, 2, 3].any (fun m => marched m (2 * d) || marched m (2 * d + 1))
  else if 36 ≤ d ∧ d ≤ 39 then
    (s.otherAreas 8).any (fun a => touches a.1 a.2) || marched 1 slice
      || s.ctxList.any (fun c => (s.ctx c).claims.any (fun r => nth 0 r 0 == 5
          && decide (nth 0 r 2 * 65536 < 0x1800000 * (slice + 1) ∧ 0x1800000 * slice < (nth 0 r 2 + nth 0 r 3) * 65536)))
  else if 41 ≤ d ∧ d ≤ 44 then bit (s.reg .fhp (d - 41) 0x40) 7
  else if d = 45 then !s.tunnels
  else if d = 46 ∨ d = 47 then s.sec.role == 1 || (s.sec.role == 2 && s.chain.valid) || s.pushState == 1
  else if 48 ≤ d then s.pushState == 1
  else false

/-- Refusals of a request write that changes `s` to `s'` and itself asks for `on` (R498, R499). -/
def State.requestBad (s s' : State) (d : Nat) (on : Bool) : List (Bool × Code) :=
  [(s.staysOff d && on, .state), (s.requested d && !s'.requested d && s.keepsOn d, .state)]

/-- POWER_REQUEST_WRITE: a write of GATE on any page, or of PWR.DCTL for the domain that DSEL names. -/
def execPowerRequestWrite (offset : Nat) (value : Word) (s : State) : Host.Outcome State Fault Refusal :=
  let v := value.toNat
  .next (
    if offset = rOff .pwr 0 0x5C then
      let d := bits (s.reg .pwr 0 0x58) 5 0
      let s' := s.modDom d (fun x => { x with req := bit v 0 })
      s.regWrite offset v false (s.requestBad s' d (bit v 0)) (fun _ => s'.powerEval)
    else match pageAt (offset / 4096) with
      | none => s
      | some (t, i) =>
        if offset % 4096 ≠ 8 then s
        else
          let p := offset / 4096
          let s' := s.modPage p (fun h => { h with gate := v })
          let cases := match domOf t i with
            | none => [(decide (v ≠ 3), Code.state)]
            | some d => s.requestBad s' d (bit v 0)
          match (if v > 3 then some Code.rsvd else none).or (firstBad cases) with
          | some c => s.reject p c 8
          | none => s'.powerEval)

/-! ### Sequences (R500, R501) -/

/-- Work that a domain has accepted and not finished. -/
def State.domBusy (s : State) (d : Nat) : Bool :=
  if d < 32 then s.ops.any (fun o => o.clusters.any (fun c => c / 2 == d)) || s.arrays.any (fun p => p.1 / 256 == d && (p.2.st == 2 || !p.2.res.isEmpty))
  else if d = 40 then s.ops.any (fun o => o.engine.isSome)
  else false

/-- DOMAIN_OFF_DONE: accepted work has retired and the power switch opens. -/
def execDomainOffDone (d : Nat) (s : State) : Host.Outcome State Fault Refusal :=
  .next (if d > 49 ∨ (s.dom d).st ≠ 3 ∨ s.domBusy d then s
    else ((s.domLost d).modDom d (fun x => { x with st := 0, offs := min 65535 (x.offs + 1) })).powerEval)

/-- A cluster pair is back: its contexts' arrays return under R415, and a READY context is restored under R363. -/
def State.pairBack (s : State) (d : Nat) : State :=
  let s := s.ctxList.foldl (fun s c =>
    let x := s.ctx c
    let here := (s.ctxArrays c).any (fun k => k / 256 == d) || x.claims.any (fun r => [1, 2, 4].contains (nth 0 r 0) && nth 0 r 1 / 2 == d)
    if here && x.state == 1 then s.modCtx c (fun x => { x with restoreHold := true }) else s) s
  (s.arrKeys (fun k r => k / 256 == d && r.owned && r.st == 3)).foldl (fun s k =>
    (s.modArr k (fun r => { r with st := 4 })).modUnit (uArr (k / 128) (k % 128)) (fun u => { u with state := 2 })) s

/-- DOMAIN_ON_DONE: the crossings have reopened and the domain is ON. -/
def execDomainOnDone (d : Nat) (s : State) : Host.Outcome State Fault Refusal :=
  .next (if d > 49 ∨ (s.dom d).st ≠ 1 then s
    else
      let s := s.modDom d (fun x => { x with st := 2 })
      let s := if d < 32 then s.pairBack d
        else if 48 ≤ d then s.setReg .lpx (d - 48) 0x44 (s.reg .lpx (d - 48) 0x44 % 2 ^ 10)
        else if d = 46 ∨ d = 47 then s.modDsy (d - 46) (fun x => { x with st := if bit (s.reg .dsy (d - 46) 0x40) 0 then 1 else 0 })
        else s
      s.powerEval)

/-! ### Crossings (R496, R507) -/

/-- Two islands that CROSSING_CLOSE and CROSSING_REOPEN can name: 1 to 18, and different (R507). Which pairs have crossings the
manual leaves open; a pair's events are given only where it has some (DEDUCED: log 66). -/
def crossed (a b : Nat) : Bool := decide (1 ≤ a ∧ a ≤ 18 ∧ 1 ≤ b ∧ b ≤ 18 ∧ a ≠ b)

def xkey (a b : Nat) : Nat := 32 * a + b
def State.xngAt (s : State) (a b : Nat) : Xng := FMap.get {} s.xng (xkey a b)
def State.modXng (s : State) (a b : Nat) (f : Xng → Xng) : State := s.withXng (FMap.put {} s.xng (xkey a b) (f (s.xngAt a b)))

/-- CROSSING_CLOSE: ALIVE of `peer` falls; the side of `src` closes the pair, drops the words that had not crossed, and counts
them, what it presents while the pair is closed, and the requests merged before (R494, log 72). -/
def execCrossingClose (src peer : Nat) (lost : CrossCount) (dropped : Nat) (s : State) : Host.Outcome State Fault Refusal :=
  .next (if !crossed src peer then s
    else
      let close := fun (x : Xng) => if x.closed then x else { x with closed := true, closes := satNat 32 (x.closes + 1) }
      ((s.modXng src peer close).modXng peer src close).modXng src peer (fun x =>
        { x with lost := satNat 32 (x.lost + lost.lost), dropw := satNat 32 (x.dropw + dropped), merged := satNat 32 (x.merged + lost.merged) }))

/-- CROSSING_REOPEN: both ALIVE are high again. -/
def execCrossingReopen (src peer : Nat) (s : State) : Host.Outcome State Fault Refusal :=
  .next (if !crossed src peer then s
    else (s.modXng src peer (fun x => { x with closed := false })).modXng peer src (fun x => { x with closed := false }))

end Sys2Proof.Machine
end

