-- ==== Sys2Proof/Machine/Boot.lean ====
section
/-!
DEFINITION. Sys2Proof/Machine/Boot.lean: supplies and PERST_N (R512, R542, R543), the start after them (R4 to R6, R489), the boot
stages (R508 to R511, R520), and the host link's own events (R554 to R556).
-/
namespace Sys2Proof.Machine

def State.modSec (s : State) (f : SecSt → SecSt) : State := { s with sec := f s.sec }

/-- Stage 2 begins: housekeeping self-calibration and, unless the holdup controller is READY, the measurement of the capacitor
(R449, R508, R512). -/
def State.stageTwo (s : State) : State :=
  let s := s.setReg .hkc 0 0x98 (s.reg .hkc 0 0x98 ||| 1)
  let s := s.modHld (fun h => { h with mainGood := true, measuring := h.measuring || h.st != 1 })
  s.modSec (fun x => { x with stage := 2 })

/-- The Daisy domains of a device that is no manager and no worker stay off; a manager holds position 0 (R5, R6, R365). -/
def State.takeRole (s : State) (role : Nat) : State :=
  let s := s.modSec (fun x => { x with role := role })
  let s := if role = 1 then (s.withChain { s.chain with valid := true, pos := 0, count := 1 }) else s
  if role = 0 ∨ role = 3 then (s.modDom 46 (fun d => { d with st := 0 })).modDom 47 (fun d => { d with st := 0 }) else s

/-- The device starts at stage 1 with the role sampled; a role of 0b11 stops the boot there (R6, R508, R510). -/
def State.start (s : State) (role : Nat) : State :=
  let s := s.takeRole (role % 4)
  if role % 4 = 3 then
    (s.modSec (fun x => { x with stage := 1, fail := true, bcode := Code.rsvd.num })).modPage 0 (fun h => { h with errCode := Code.rsvd.num, errOff := 0 })
  else s.modSec (fun x => { x with stage := 1 })

/-- PERST_N_ASSERT (R489, R512). During a shutdown with cause TEMP it is honoured at the restart; it ends one with cause SENSOR. -/
def execPerstNAssert (s : State) : Host.Outcome State Fault Refusal :=
  .next (if s.perst then s
    else if !s.powered ∨ s.thm.shutdown = 1 then s.withPerst true
    else
      let s := (s.withPerst true).resetCore false
      (s.modSec (fun x => { x with cause := 1 })).modThm (fun t => { t with shutdown := 0, tripN := true }))

/-- PERST_N_RELEASE (R4, R508, R558): the role is sampled and the stages begin, unless the supplies or a shutdown hold the
device. EXTEST, CLAMP and HIGHZ end. -/
def execPerstNRelease (role : Nat) (s : State) : Host.Outcome State Fault Refusal :=
  .next (if !s.powered ∨ !s.perst then s
    else
      let s := (s.withPerst false).withTap { s.tap with ir := if s.tap.ir = 0 ∨ s.tap.ir = 3 ∨ s.tap.ir = 4 then 0xFF else s.tap.ir }
      if s.thm.shutdown ≠ 0 ∨ !s.railOk then s else s.start role)

/-- RAIL_DROOP (R543): as an assertion of PERST_N; a thermal shutdown takes precedence. -/
def execRailDroop (s : State) : Host.Outcome State Fault Refusal :=
  .next (if !s.powered ∨ s.perst ∨ !s.railOk ∨ s.thm.shutdown ≠ 0 then s
    else ((s.withRailOk false).resetCore false).modSec (fun x => { x with cause := 0 }))

/-- RAIL_RECOVERY (R543): the start, with CAUSE 0. -/
def execRailRecovery (role : Nat) (s : State) : Host.Outcome State Fault Refusal :=
  .next (if !s.powered ∨ s.railOk then s
    else
      let s := s.withRailOk true
      if s.perst then s else (s.modSec (fun x => { x with cause := 0 })).start role)

/-- POWER_UP (R452, R542): the always-on island comes up with PERST_N asserted. -/
def execPowerUp (s : State) : Host.Outcome State Fault Refusal :=
  .next (if s.powered then s else { s with powered := true, doms := [], col := { s.col with isolated := false } })

/-- THERMAL_RESTART (R489): ten readings below 90 °C after a shutdown with cause TEMP. The role and the locks stand, and a PERST_N
that is asserted takes effect now. -/
def execThermalRestart (s : State) : Host.Outcome State Fault Refusal :=
  .next (if !s.powered ∨ s.thm.shutdown ≠ 1 ∨ s.thm.cool < 10 then s
    else
      let s := (s.modThm (fun t => { t with shutdown := 0, tripN := true, cool := 0, restarts := satNat 16 (t.restarts + 1) }))
      let s := { s with doms := FMap.mapVals {} (fun _ (d : Dom) => { offs := d.offs }) s.doms }
      if s.perst then (s.resetCore false).modSec (fun x => { x with cause := 1 })
      else ((s.takeRole s.sec.role).modSec (fun x => { x with cause := 2 })).stageTwo)

/-! ### Stage 5 (R516, R519, R520) -/

/-- One slot is tried: read and verified, and once more if it fails. -/
def State.trySlot (s : State) (slot : Nat) : State × List Byte × Option Code :=
  let img := s.fwImage (s.fwDir.1.region slot)
  let s := s.sigCount img
  match s.fwBad img with
  | none => (s, img, none)
  | some _ => let s := s.sigCount img; (s, img, s.fwBad img)

/-- BOOTCNT advances and is written (R508, R521). -/
def State.countBoot (s : State) : State :=
  let n := satNat 32 (s.reg .sec 0 0x6C + 1)
  (s.setReg .sec 0 0x6C n).colQueue { steps := [{ home := 38, recs := [(0, leBytes 4 s.sec.svnMin ++ leBytes 4 n ++ leBytes 8 0)] }] }

/-- The image is booted: every compositor that is not fenced runs it. -/
def State.bootImage (s : State) (slot : Nat) (img : List Byte) : State :=
  let act := s.fwDir.1.active
  let s := s.modSec (fun x => { x with stage := 6, fail := false, recovery := false, bcode := 0, active := act, booted := slot, fallback := slot != act
                                       dirCopy := s.fwDir.2, svn := fwSvn img, meas := fwMeas img })
  ((List.range 17).foldl (fun s k => s.modCmp k (fun c => { c with fw := slot == act && !s.fenced (uCmp k) })) s).countBoot

/-- Stage 5: the active slot, then the other one if it is STAGED; RECOVERY when none verifies. -/
def State.stageFive (s : State) : State :=
  let d := s.fwDir
  let a := s.trySlot d.1.active
  match a.2.2 with
  | none => a.1.bootImage d.1.active a.2.1
  | some c =>
    let o := 1 - d.1.active
    let b := if bit d.1.staged o then a.1.trySlot o else (a.1, [], some c)
    match b.2.2 with
    | none => b.1.bootImage o b.2.1
    | some c => b.1.modSec (fun x => { x with fail := true, recovery := true, bcode := c.num, active := d.1.active, dirCopy := d.2 })

/-! ### The other stages -/

/-- Stage 3 ends: the mount, or a stop for want of the FACTORY record. -/
def State.stageThree (s : State) : State :=
  if (s.payload 36 0).isNone then
    (s.modSec (fun x => { x with fail := true, bcode := Code.digest.num })).modPage 0 (fun h => { h with errCode := Code.digest.num, errOff := 0 })
  else s.mount.modSec (fun x => { x with stage := 4 })

/-- Stage 4 ends: settings and configuration epoch restored, quadrants at their frequencies, the housekeeping sequencer at the
restored table, Daisy training begun (R447, R386, R465, R366). -/
def State.stageFour (s : State) : State :=
  let s := s.restoreRegs
  let ep := match s.payload 1 0 with | some pl => fieldLe pl 0 4 | none => 0
  let q := s.reg .pwr 0 0x50
  let s := (s.withCfg { s.cfg with epoch := ep, pending := true }).withQfreq ((List.range 4).foldl (fun m n => FMap.put 80 m n (bits q (8 * n + 7) (8 * n))) [])
  let s := s.modHkc (fun h => { h with running := bit (s.reg .hkc 0 0x40) 0, pos := 0, staged := [] })
  let s := (List.range 2).foldl (fun s p =>
    if bit (s.reg .dsy p 0x40) 0 && s.domOn (46 + p) then s.modDsy p (fun d => { d with st := 1 }) else s) s
  s.modSec (fun x => { x with stage := 5 })

/-- Stage 7 ends: every memory has been through March C− and holds zeros; a memory without a failing row shows a pass. -/
def State.stageSeven (s : State) : State :=
  let s := (List.range 64).foldl (fun s c => if s.cluOn c && s.reg .spd c 0x68 % 4 == 0 then s.setMarch 3 c 2 0 0 0 else s) s
  let s := if s.reg .gal 0 0x84 % 4 = 0 then s.setMarch 1 0 2 0 0 0 else s
  { s with mem := [], parBad := [], tiles := FMap.mapVals {} (fun _ (t : Tile) => { t with ent := [] }) s.tiles }

/-- Stage 8 begins: the drift clock of every array that holds weights is to be read (R118). -/
def State.stageEight (s : State) : State :=
  (s.mapArrs (fun k r => if r.weights.isEmpty || !s.cluOn (k / 128) then r else { r with readDue := true })).modSec (fun x => { x with stage := 8 })

/-- READY: the locks of LOCKBOOT apply, and MAINT is cleared in every cluster that serves (R273, R508, R527). -/
def State.stageTen (s : State) : State :=
  let s := s.restoreCtxs
  let s := s.setReg .sec 0 0x40 (s.reg .sec 0 0x40 ||| s.reg .sec 0 0x44)
  let s := (List.range 64).foldl (fun s c => if (s.unit (uClu c)).state = 0 then s.setReg .spd c 0x40 0 else s) s
  s.modSec (fun x => { x with stage := 10 })

/-- BOOT_STAGE_COMPLETE (R508): the stage in progress ends once what it waits for is there, and the next begins. The mount waits
for a Colophon step in progress (DEDUCED: log 67). -/
def execBootStageComplete (s : State) : Host.Outcome State Fault Refusal :=
  .next (if !s.powered ∨ s.perst ∨ !s.railOk ∨ s.thm.shutdown ≠ 0 ∨ s.sec.fail then s
    else match s.sec.stage with
    | 1 => s.stageTwo
    | 2 => if s.scalRunning then s else s.modSec (fun x => { x with stage := 3 })
    | 3 => if !s.busyPages.isEmpty then s else s.stageThree
    | 4 => s.stageFour
    | 5 => s.stageFive
    | 6 => s.modSec (fun x => { x with stage := 7 })
    | 7 => if [0, 1].any (fun ch => FMap.get 0 s.lpx (4 + ch) == 0 && s.domOn (48 + ch)) then s else s.stageSeven.stageEight
    | 8 => if s.arrays.any (fun p => p.2.readDue) then s else s.modSec (fun x => { x with stage := 9 })
    | 9 => s.stageTen
    | _ => s)

/-! ### The host link (R554 to R556) -/

/-- HOT_RESET: a Hot Reset, or a link-down of the data link layer. -/
def execHotReset (s : State) : Host.Outcome State Fault Refusal := .next s.linkLost

/-- PCIE_LINK_UP: what the link trained to, within the widths and speeds of R554, is a free value. -/
def execPcieLinkUp (s : State) : Host.Outcome State Fault Refusal :=
  .next (if !s.powered ∨ s.perst ∨ s.thm.shutdown ≠ 0 ∨ !s.domOn 45 ∨ s.host.linkUp then s
    else
      let d := s.draw
      let v := (Config.freeValue d.2).toNat
      let s := d.1
      s.withHost { s.host with linkUp := true, d3hot := false, link := 3 + v % 3 + (2 ^ (v / 4 % 4)) * 16 + (v / 16 % 2) * 512 })

/-- ASPM_L1_ENTRY: the next write or answer of the device leaves L1. -/
def execAspmL1Entry (s : State) : Host.Outcome State Fault Refusal :=
  .next (if s.host.linkUp then (s.withHost { s.host with l1 := true }) else s)

/-- D3HOT_ENTRY: fetching stops as if every QUE.CTRL.EN had been cleared. -/
def execD3hotEntry (s : State) : Host.Outcome State Fault Refusal :=
  .next (if !s.host.linkUp then s
    else
      let s := (List.range 4).foldl (fun s q => s.setReg .que q 0x68 0) s
      s.withHost { s.host with d3hot := true })

end Sys2Proof.Machine
end

