-- ==== Sys2Proof/Machine/Security.lean ====
section
/-!
DEFINITION. Sys2Proof/Machine/Security.lean: staging and activating firmware (R523 to R526), anti-rollback (R522), the security locks
(R527), attestation (R528, R529) and the test access port (R557 to R561).
-/
namespace Sys2Proof.Machine

/-! ### FW_STAGE (R523) -/

/-- Checks 1 to 7 of R523. -/
def State.stageCheck (s : State) (e : Entry) (img : List Byte) : Option Code :=
  let n := e.p 16 4
  match entryBad e [2] false [(8, 12)] false with
  | some .opcode => some .opcode
  | some .value => some .value
  | b =>
    (if n < 17472 ∨ n > 8388608 ∨ n % 64 ≠ 0 then some Code.value else none).or (b.or (firstBad
      [(decide (e.p 8 8 % 64 ≠ 0), .align), (s.locked 5, .lock), (s.sec.op != 0, .busy), (!fwHeader img || fwLen img != n, .value),
       (fwSigFails img != 0, .sig), (decide (fwSvn img < s.sec.svnMin), .lock)]))

/-- Check 6 is reached: its failures count. -/
def State.stageSigs (s : State) (e : Entry) (img : List Byte) : State :=
  match s.stageCheck e img with
  | none => s.sigCount img
  | some .sig => s.sigCount img
  | some .lock => if s.locked 5 then s else s.sigCount img
  | _ => s

/-- The free region is programmed with the image. -/
def State.programRegion (s : State) (img : List Byte) : State :=
  let lo := regionBase s.fwDir.1.free
  { s with sec := { s.sec with flash := s.sec.flash.filter (fun p => !decide (lo ≤ p.1 ∧ p.1 < lo + 0x800000)) } }.flashWrite lo img

/-- FW_STAGE: the image is checked and written into the free region; it is read back when the writing is done (FW_STAGE_DONE). -/
def execFwStage (e : Entry) (image : List Byte) (s : State) : Host.Outcome State Fault Refusal :=
  .next (s.begin e 0x14 (fun s =>
    let img := sliceB image 0 (min (e.p 16 4) 8388608)
    let c := s.stageCheck e img
    let s := s.stageSigs e img
    match c with
    | some c => s.fail e c
    | none =>
      let s := s.programRegion img
      if !fwPayload img then s.fail e .digest
      else s.modSec (fun x => { x with op := 1, fwJob := some (e, img) })))

/-- FW_STAGE_DONE: the image read back verifies and the directory write reads back, or one of them does not (checks 9 and 10). -/
def execFwStageDone (readBackOk dirOk : Bool) (s : State) : Host.Outcome State Fault Refusal :=
  .next (match s.sec.fwJob with
  | none => s
  | some (e, img) =>
    let s := s.modSec (fun x => { x with op := 0, fwJob := none })
    if !readBackOk then s.fail e .digest
    else
      let d := s.fwDir.1
      let o := 1 - d.active
      let d' : FwDir := if o = 0 then { d with rega := d.free, staged := d.staged ||| 1, svna := fwSvn img }
        else { d with regb := d.free, staged := d.staged ||| 2, svnb := fwSvn img }
      let s := s.dirWrite d' dirOk
      if dirOk then s.complete e .ok o (fwSvn img) else s.fail e .digest)

/-! ### FW_ACTIVATE (R524 to R526) -/

/-- Checks 1 to 6 of R524. -/
def State.activateCheck (s : State) (e : Entry) : Option Code :=
  let slot := e.p 8 1
  let d := s.fwDir.1
  match entryBad e [2] false [(8, 1)] false with
  | some .opcode => some .opcode
  | some .value => some .value
  | b =>
    (if slot > 1 then some Code.value else none).or (b.or ((firstBad
      [(s.locked 5, .lock), (s.sec.op != 0, .busy), (!bit d.staged slot || slot == d.active, .state),
       (!s.sec.recovery && (s.fenced (uCmp 16) || ((s.cmp 16).carry != 0 && s.fenced (uCmp ((s.cmp 16).carry - 1)))), .fenced)]).or
      (s.fwBad (s.fwImage (d.region slot)))))

/-- FW_ACTIVATE: the slot verifies and the directory names it; then the compositors take it one after another, or in RECOVERY the
boot goes on at stage 5. Whether the directory write reads back, the command does not say (free value). -/
def execFwActivate (e : Entry) (s : State) : Host.Outcome State Fault Refusal :=
  .next (s.begin e 0x15 (fun s =>
    let slot := e.p 8 1
    let c := s.activateCheck e
    let img := s.fwImage (s.fwDir.1.region slot)
    let s := match c with
      | none => s.sigCount img
      | some .sig => s.sigCount img
      | some .digest => s.sigCount img
      | _ => s
    match c with
    | some c => s.fail e c
    | none =>
      let d := s.draw
      let ok := bit (Config.freeValue d.2).toNat 0
      let s := d.1.dirWrite { s.fwDir.1 with active := slot } ok
      if !ok then s.fail e .digest
      else
        let s := s.modSec (fun x => { x with active := slot, dirCopy := s.fwDir.2, svn := fwSvn img, meas := fwMeas img })
        if s.sec.recovery then
          (s.modSec (fun x => { x with recovery := false, fail := false, bcode := 0, stage := 5 })).cfgAdvance.complete e .ok 0 0
        else
          let s := (List.range 17).foldl (fun s k => s.modCmp k (fun x => { x with fw := false, fwDue := !s.fenced (uCmp k) })) s
          ((s.modSec (fun x => { x with op := 2 })).withJobs (s.jobs ++ [({ e := e, kind := 17 } : Job)])).fwCheck))

/-- RBCOMMIT (R522). -/
def execRbcommit (value : Word) (s : State) : Host.Outcome State Fault Refusal :=
  let go := bit value.toNat 0
  .next (s.regWrite (rOff .sec 0 0x54) value.toNat false
    [(go && (s.fwCount != 17 || s.sec.fallback || s.sec.recovery), .state), (go && s.col.queue.any (fun w => w.k == 20), .busy)] (fun s =>
      if go && decide (s.sec.svn > s.sec.svnMin) then
        s.colQueue { steps := [{ home := 38, recs := [(0, leBytes 4 s.sec.svn ++ leBytes 4 (s.reg .sec 0 0x6C) ++ leBytes 8 0)] }], k := 20
                     args := [s.sec.svn] }
      else s))

/-! ### Locks (R527) -/

/-- LOCK_WRITE: a set bit stays set; TAPVEND returns every probe to SRC 0 (R561). -/
def execLockWrite (value : Word) (s : State) : Host.Outcome State Fault Refusal :=
  let off := rOff .sec 0 0x40
  let v := value.toNat
  .next (s.regWrite off v (decide (s.rd off &&& v ≠ s.rd off)) [] (fun s =>
    let s := s.wr off v
    if bit v 4 then (s.withTap { s.tap with probe := [] }) else s))

/-- LOCKBOOT_WRITE: a bit that is set in LOCK is not cleared. -/
def execLockbootWrite (value : Word) (s : State) : Host.Outcome State Fault Refusal :=
  let off := rOff .sec 0 0x44
  let v := value.toNat
  let keep := s.rd off &&& s.reg .sec 0 0x40
  .next (s.regWrite off v (decide (keep &&& v ≠ keep)) [] (fun s => s.regPut off v))

/-! ### Registers that attestation quotes (R514, R531) -/

/-- DEV.BOOTSTAGE. -/
def State.bootStage (s : State) : Nat := s.sec.stage + (b2n s.sec.fail <<< 4) + (b2n s.sec.recovery <<< 5) + (s.sec.bcode <<< 8)
/-- DEV.CHAINPOS. -/
def State.chainPos (s : State) : Nat := s.chain.pos + (b2n s.chain.valid <<< 4)
/-- SEC.BOOT. -/
def State.secBoot (s : State) : Nat :=
  s.sec.active + (s.sec.booted <<< 1) + (b2n s.sec.fallback <<< 2) + (b2n s.sec.recovery <<< 3) + (s.sec.dirCopy <<< 4) + (s.fwCount <<< 8)

/-! ### ATTEST (R528, R529) -/

/-- ATTEST: reports are produced one at a time in arrival order. -/
def execAttest (e : Entry) (s : State) : Host.Outcome State Fault Refusal :=
  .next (s.begin e 0x18 (fun s =>
    match (entryBad e [2, 3] false [(8, 44)] false).or (firstBad [(decide (e.p 48 4 < 17296), .range), (decide (e.p 40 8 % 64 ≠ 0), .align)]) with
    | some c => s.fail e c
    | none => s.withJobs (s.jobs ++ [({ e := e, kind := 21 } : Job)])))

/-- The signed part of a Gawahus report: bytes 0 to 687. -/
def State.reportBody (s : State) (nonce : List Byte) : List Byte :=
  [0x47#8, 0x57#8, 0x48#8, 0x52#8] ++ leBytes 2 1 ++ leBytes 2 0x4C38 ++ leBytes 1 0xB1 ++ leBytes 1 s.sec.role ++ leBytes 1 s.chainPos
    ++ leBytes 1 s.bootStage ++ leBytes 4 17296 ++ nonce ++ leBytes 8 Config.serial.toNat ++ leBytes 4 (s.reg .sec 0 0x6C)
    ++ leBytes 4 (s.reg .sec 0 0xA4) ++ sliceB s.sec.meas 0 48 ++ leBytes 4 s.sec.svn ++ leBytes 4 s.sec.svnMin ++ leBytes 4 s.cfg.pub
    ++ sliceB s.cfg.digest 0 48 ++ leBytes 4 (s.reg .sec 0 0x40) ++ leBytes 4 s.secBoot ++ leBytes 76 0
    ++ sliceB Config.unitRsaKey 0 384 ++ sliceB Config.unitSlhKey 0 48

/-- ATTEST_REPORT_DONE: the first waiting report is written, then its completion; it waits while a configuration change awaits
publication. -/
def execAttestReportDone (s : State) : Host.Outcome State Fault Refusal :=
  .next (match s.jobs.find? (fun j => j.kind == 21) with
  | none => s
  | some j =>
    if s.cfgPending then s
    else
      let s := (s.withJobs (s.jobs.filter (fun y => y != j))).bump .sec 0 0xA4 1
      let body := s.reportBody (sliceB j.e.bytes 8 32)
      let d := s.draw
      (d.1.cmdWrite j.e (j.e.p 40 8) (body ++ sliceB (Config.rsaSign d.2 body) 0 384 ++ sliceB (Config.slhSign d.2 body) 0 16224)).complete j.e .ok 17296 0)

/-! ### The test access port (R557 to R561) -/

/-- TAP_INSTRUCTION: an instruction that is not listed, or EXTEST, CLAMP or HIGHZ without PERST_N, acts as BYPASS. -/
def execTapInstruction (code : Byte) (s : State) : Host.Outcome State Fault Refusal :=
  let c := code.toNat
  .next (s.withTap { s.tap with
    ir := if [0x01, 0x02, 0x20, 0x21, 0x22].contains c || (s.perst && [0x00, 0x03, 0x04].contains c) then c else 0xFF })

/-- Why an ARRAY_PROBE selection takes effect as SRC 0: an array in use, or a reserved value. -/
def State.probeOff (s : State) (v : Nat) : Bool :=
  let st := (s.arr (akey (16 * bits v 1 0 + bits v 7 4) (bits v 14 8))).st
  decide (bits v 14 8 > 67 ∨ bits v 23 15 > 263 ∨ bits v 26 24 > 4 ∨ bits v 31 30 ≠ 0) || st == 2 || st == 3

/-- ARRAY_PROBE (R559, R561): the selection of one tap. -/
def execArrayProbe (value : Word) (s : State) : Host.Outcome State Fault Refusal :=
  let v := value.toNat
  .next (if s.tap.ir ≠ 0x21 ∨ s.locked 4 then s
    else
      let sel := if s.probeOff v then v - (bits v 26 24 <<< 24) else v
      s.withTap { s.tap with probe := FMap.put 0 s.tap.probe (4 * bits v 1 0 + bits v 3 2) sel })

/-- MBIST_ACCESS (R560, R561): a march of one instance under the rules of R286. -/
def execMbistAccess (value : DWord) (s : State) : Host.Outcome State Fault Refusal :=
  let v := value.toNat
  let m := bits v 1 0
  let alg := bits v 2 2
  let u := bits v 8 3
  let mapped := (s.otherAreas 8).any (fun a => decide (a.1 < 24 * (u + 1) ∧ 24 * u < a.1 + a.2))
  let bad := decide (m = 1 ∧ u > 3) || (if m = 1 then !s.domOn (36 + u) else !s.cluOn u)
    || (alg == 0 && (if m = 1 then mapped else s.reg .spd u 0x40 % 2 == 0)) || s.marchBusy m u
  .next (if s.tap.ir ≠ 0x20 ∨ s.locked 4 ∨ bits v 63 10 ≠ 0 then s
    else
      let s := s.withTap { s.tap with mbist := v }
      if !bit v 9 ∨ bad then s
      else
        let s := s.setMarch m u 1 alg 0 0
        let s := if alg = 0 then s.marchZero m u else s
        (s.withJobs (s.jobs ++ [({ e := { queue := 0, bytes := [] }, kind := 20, n := [256 * alg + 64 * m + u] } : Job)])).withTap { s.tap with result := if m = 1 then s.reg .gal 0 0x84 else s.reg .spd u 0x68 })

/-- SCAN_LOCK_STATUS (R561): what the port captures. -/
def execScanLockStatus (s : State) : Host.Outcome State Fault Refusal :=
  .next (if s.tap.ir ≠ 0x22 then s
    else s.withTap { s.tap with scan := bits (s.reg .sec 0 0x40) 6 0 + (s.sec.stage <<< 8) + (b2n s.sec.recovery <<< 12) })

end Sys2Proof.Machine
end

