-- ==== Sys2Proof/Machine/Words.lean ====
section
/-!
DEFINITION. Sys2Proof/Machine/Words.lean: what every readable register of BAR0 shows (R40, R41, and the register tables of the page
chapters): the stored words, and those that are read out of the rest of the state.
-/
namespace Sys2Proof.Machine

/-! ### The page header (R40, R41) -/

/-- Clock island of a page's block (R491). -/
def islandOf : PType → Nat → Nat
  | .hif, _ => 1 | .que, _ => 1 | .fhp, n => 2 + n | .gal, _ => 6 | .eng, _ => 6
  | .clu, c => 7 + c / 16 | .arr, c => 7 + c / 16 | .acc, c => 7 + c / 16 | .out, c => 7 + c / 16 | .prf, c => 7 + c / 16
  | .spd, c => 7 + c / 16 | .cal, c => 7 + c / 16
  | .cmp, _ => 11 | .dsy, p => 12 + p | .lpx, c => 14 + c | .hkc, _ => 17 | _, _ => 16

/-- Every crossing of an island is open (R496). -/
def State.alive (s : State) (n : Nat) : Bool := !s.xng.any (fun p => p.2.closed && (p.1 / 32 == n || p.1 % 32 == n))

/-- GSTAT. Whether the rail of a domain that is POWERING is already good is free (DESIGN CHOICE: log 69). -/
def State.gstat (s : State) (t : PType) (i : Nat) : Nat :=
  let h := s.page (pageBase t i / 4096)
  let st := match domOf t i with | none => 2 | some d => (s.dom d).st
  let on := st == 2 || st == 3 || (st == 1 && bit (Config.unsetWord (rOff t i 0x0C)).toNat 0)
  b2n on + (b2n ((st == 2 || st == 3) && bit h.gate 1) <<< 1) + (b2n (s.alive (islandOf t i)) <<< 2) + (st <<< 4)

/-- Array that a cluster's ARR page shows (R105), and the one that its CAL page shows (R137). -/
def State.arrSel (s : State) (c : Nat) : Nat := akey c (bits (s.reg .arr c 0x40) 6 0)
def State.calSel (s : State) (c : Nat) : Nat := akey c (bits (s.reg .cal c 0x54) 6 0)

/-- FENCE of a page: the array, cluster or compositor that it shows. -/
def State.pageFence (s : State) (t : PType) (i : Nat) : Nat :=
  match t with
  | .arr => s.fenceReg (uArr i (s.arrSel i % 128))
  | .cmp => s.fenceReg (uCmp i)
  | .clu => s.fenceReg (uClu i) | .acc => s.fenceReg (uClu i) | .out => s.fenceReg (uClu i) | .prf => s.fenceReg (uClu i)
  | .spd => s.fenceReg (uClu i) | .cal => s.fenceReg (uClu i)
  | _ => 0

/-- A header word. REV of an ACC page is 3 (the example of R10); REV of any other page, and EPOCH and DIGEST of a page for which no rule names them, are free (DESIGN CHOICE: log 69). -/
def State.hdrWord (s : State) (t : PType) (i o : Nat) : Nat :=
  let h := s.page (pageBase t i / 4096)
  let open' := (Config.unsetWord (rOff t i o + (if t = .arr then s.arrSel i * 2 ^ 32 else 0))).toNat
  match o with
  | 0x00 => (if t = .acc then 3 else open' % 4096) + (i <<< 12) + (t.code <<< 24)
  | 0x04 => caps t
  | 0x08 => h.gate
  | 0x0C => s.gstat t i
  | 0x10 => h.errOff + (h.errCode <<< 24)
  | 0x14 => h.errCnt
  | 0x18 => if t = .cfg then s.cfg.pub else if t = .arr then (s.arr (s.arrSel i)).epoch else open'
  | 0x1C => s.pageFence t i
  | 0x20 => h.snapHi
  | 0x24 => h.updates + (h.latches <<< 16)
  | 0x38 => 0
  | 0x3C => 0
  | o => if 0x28 ≤ o ∧ o < 0x38 ∧ o % 4 = 0 then (if t = .cfg then fieldLe s.cfg.digest (o - 0x28) 4 else open') else 0

/-! ### Cluster pages (R105 to R107, R137 to R139, R169 to R172, R199, R200, R274, R275) -/

/-- ARR.LAYER (R106). -/
def layerBits (r : Arr) : Nat :=
  let l := r.layer
  let ck := fun (h : Nat) => b2n (ckScale (rowSums l.w8 h r.weights) == 64)
  l.gain + (b2n l.w8 <<< 3) + (l.inbits <<< 4) + (b2n l.insigned <<< 6) + (l.split <<< 8) + (ck 0 <<< 10) + (ck 1 <<< 11) + (l.rows <<< 12)

/-- ARR.COLMAP and ARR.ROWMAP (R69, R106). -/
def colBits (l : List Nat) : Nat := nth 0x1FF l 0 + (nth 0x1FF l 1 <<< 16)
def rowBits (l : List (Nat × Nat)) : Nat := l.foldl (fun v p => v + ((p.2 % 64) <<< (6 * p.1)) + 2 ^ (48 + p.1)) 0

def idle (r : Arr) : Bool := r.st == 0 || r.st == 1

def arrWord (r : Arr) (o : Nat) : Nat :=
  match o with
  | 0x44 => r.st + (r.ctx <<< 8) + (r.gen <<< 13) + (r.logical <<< 16)
  | 0x48 => if idle r then 0 else layerBits r
  | 0x50 => r.vec | 0x58 => r.zeros | 0x60 => r.coarse | 0x68 => r.ovr
  | 0x70 => r.ckfail
  | 0x74 => if idle r then 0 else r.ckmag + (r.ckhalf <<< 20) + (r.ckgroup <<< 21)
  | 0x78 => if idle r then 0 else r.ref0
  | 0x80 => if idle r then 0 else r.ref1
  | 0x88 => r.refcnt
  | 0x8C => colBits r.colmap
  | 0x90 => rowBits r.rowmap
  | 0x98 => r.progcyc
  | 0x9C => r.inclamp
  | _ => 0

/-- Physical pair that serves pair `q` (R69). -/
def pairOf (r : Arr) (q : Nat) : Nat := match findIdx (fun x => x == q) r.colmap 0 with | some i => 262 + i | none => q

def trimBits (t : Trim) : Nat := toBits 8 t.o + (toBits 8 t.g <<< 8) + (b2n t.fail <<< 16)
def coefBits (c : Coef) : Nat := c.gain + (toBits 8 c.off <<< 16)

/-- The array and pair registers of CAL (R138, R139). -/
def calArr (r : Arr) (q o : Nat) : Nat :=
  let st : Stat := FMap.get {} r.stats q
  let data := !idle r && decide (q < 260)
  match o with
  | 0x60 => r.active + (b2n r.armed <<< 1) + (b2n r.due <<< 2) + (b2n r.refreshing <<< 3) + (b2n r.twinfail <<< 4) + (b2n r.refbad <<< 5)
      + (b2n r.agevalid <<< 6) + (r.failed <<< 16)
  | 0x64 => if idle r then 0 else r.age
  | 0x68 => if idle r then 0 else r.ratio
  | 0x6C => if idle r then 0 else toBits 12 r.recD + (toBits 8 (r.tbase + 40) <<< 12) + (toBits 8 (r.tcal + 40) <<< 20)
  | 0x70 => if idle r then 0 else r.gamma + (r.lcal <<< 16)
  | 0x78 => if data then coefBits (r.coef 0 q) else 0
  | 0x7C => if data then coefBits (r.coef 1 q) else 0
  | 0x80 => trimBits (FMap.get {} r.trims (pairOf r q))
  | 0x84 => if decide (q < 260) then FMap.get 0 r.fit q else 0
  | 0x88 => if data then st.n else 0
  | 0x90 => if data then toBits 64 st.su else 0
  | 0x98 => if data then st.su2 else 0
  | 0xA0 => if data then st.sn else 0
  | 0xA8 => if data then toBits 32 (FMap.get 0 r.expMean q) else 0
  | 0xB0 => if data then FMap.get 0 r.expM2 q else 0
  | _ => 0

/-- CAL.CSTAT: the run of context `x` in cluster `c`. -/
def State.calCtx (s : State) (c x : Nat) : Nat :=
  let y := s.ctx x
  let n := (s.arrKeys (fun k r => k / 128 == c && r.owned && r.ctx == x)).length
  (if bit y.cal.mask c then y.cal.run else 0) + (y.cal.trig <<< 3) + (n <<< 8) + (min 65535 y.cal.invocs <<< 16)

/-- CAL.SCALSTAT.RUNNING: a CAL_RUN has arrays of the cluster still to calibrate, or the start-up calibrates them (R112, R113). -/
def State.scalAt (s : State) (c : Nat) : Bool :=
  s.jobs.any (fun j => j.kind == 2 && j.n.any (fun k => k / 128 == c)) || (s.sec.stage == 6 && s.cluOn c)

def State.calWord (s : State) (c o : Nat) : Nat :=
  match o with
  | 0xB8 => s.calCtx c (bits (s.reg .cal c 0x5C) 4 0)
  | 0xBC => b2n (s.clu c).scalDone + (b2n (s.scalAt c) <<< 1)
      + ((s.arrKeys (fun k r => k / 128 == c && r.trims.any (fun p => p.2.fail))).length <<< 8)
  | 0xD0 => (s.arrKeys (fun k r => k / 128 == c && r.due)).length
  | o => calArr (s.arr (s.calSel c)) (bits (s.reg .cal c 0x58) 8 0) o

/-- Pending writers or readers of a tile (R155, R156). -/
def State.pendAt (s : State) (c t : Nat) (write : Bool) : Nat :=
  min 15 (s.ops.flatMap (fun o => if o.stage ≥ 1 then o.acc.filter (fun e => e.cl == c && e.tile == t && e.write == write) else [])).length

def State.tstat (s : State) (c t : Nat) : Nat :=
  let x := s.tile (tkey c t)
  b2n x.coarse + (b2n x.clip <<< 1) + (b2n x.sat <<< 2) + (b2n x.fp <<< 3) + (b2n x.owned <<< 4) + (b2n (s.anyChain c t) <<< 5)
    + (x.ctx <<< 8) + (s.pendAt c t true <<< 16) + (s.pendAt c t false <<< 20)

def State.accWord (s : State) (c o : Nat) : Nat :=
  match o with
  | 0x48 => s.tstat c (bits (s.reg .acc c 0x44) 8 0)
  | 0x58 => (s.clu c).rb.word
  | 0x60 => (List.range 64).foldl (fun v b => if (s.chSet c b).bound then v + 2 ^ b else v) 0
  | _ => FMap.get 0 (s.clu c).rngAEnd (bits (s.reg .acc c 0x4C) 4 0)

/-- The OUT page's profile registers (R159, R172). -/
def State.outWord (s : State) (c o : Nat) : Nat :=
  let p := s.profile c (bits (s.reg .out c 0x40) 3 0)
  let up := p.owned && !p.data.isEmpty
  match o with
  | 0x44 => b2n p.owned + (b2n (up && bit (fieldLe p.data 9 1) 0) <<< 1) + (b2n (!p.data.isEmpty) <<< 2) + (p.ctx <<< 8)
  | 0x48 => if up then fieldLe p.data 0 4 else 0
  | 0x4C => if up then fieldLe p.data 12 4 else 0
  | 0x50 => if up then fieldLe p.data 4 4 else 0
  | 0x54 => if up then fieldLe p.data 8 1 else 0
  | _ => FMap.get 0 (s.clu c).rngOEnd (bits (s.reg .out c 0x70) 4 0)

/-- BUSY and PENDING of a unit with `n` accepted operations: the first executes (R200, R202). -/
def busyPend (n : Nat) : Nat := b2n (decide (n ≠ 0)) + ((n - 1) <<< 1)

def State.prfWord (s : State) (c o : Nat) : Nat :=
  match o with
  | 0x40 => busyPend (s.countOps (fun x => x.isProof && x.clusters == [c]))
  | _ => let r := s.region (bits (s.reg .prf c 0x44) 4 0) c; r.base + ((r.part * r.parts) <<< 16)

def State.spdWord (s : State) (c o : Nat) : Nat :=
  match o with
  | 0x60 => (List.range 4).foldl (fun v b => v + (s.sparesUsed 0 c b <<< (8 * b))) 0
  | _ => s.sparesUsed 2 c 0

/-! ### Fabric pages (R202, R228 to R230, R282, R283, R321, R322, R391, R392) -/

/-- The stream that a compositor is running: its context, number and state. -/
def State.runningOn (s : State) (k : Nat) : Option (Nat × Nat × StreamSt) :=
  s.ctxList.findSome? (fun c => (s.ctx c).inv.bind (fun v => (findIdx (fun st => st.page == k) v.streams 0).map (fun i => (c, i, nth noStream v.streams i))))

/-- CMP.STATE.ST. -/
def State.cmpSt (s : State) (k : Nat) : Nat :=
  let ph := (s.cmp k).phase
  if ph = 1 ∨ ph = 2 then 5 else if ph = 3 then 6
  else match s.runningOn k with
    | none => 0
    | some (_, _, st) => if st.ended then 4 else if st.waiting.isSome then 3 else if st.held.isSome then 2 else 1

def State.cmpWord (s : State) (k o : Nat) : Nat :=
  let run := s.runningOn k
  let cx := match run with | some r => r.1 | none => 0
  match o with
  | 0x40 => s.cmpSt k + (b2n (decide (k < 16) && s.carried k) <<< 3)
      + ((if k = 16 ∧ (s.cmp 16).carry ≠ 0 then (s.cmp 16).carry - 1 else 0x1F) <<< 8) + (cx <<< 16) + ((s.streamsOn k).length <<< 24)
  | 0x44 => s.progFree k
  | 0x50 => match run with | some (c, _, st) => st.idx + (c <<< 16) | none => 0
  | 0x7C =>
    let sel := s.reg .cmp k 0x78
    let n := bits sel 7 0
    if bit sel 8 then
      match s.ctxList.find? (fun c => (s.ctx c).claims.any (fun r => nth 0 r 0 == 3 && nth 0 r 2 == n)) with
      | some c => s.gs n + (c <<< 16) + (1 <<< 21)
      | none => s.gs n
    else match run with | some (_, _, st) => FMap.get 0 st.sems n | none => 0
  | 0x84 => match run with | some (_, _, st) => st.rc (bits (s.reg .cmp k 0x80) 11 8) | none => 0
  | _ => match run with | some (_, _, st) => st.ra (bits (s.reg .cmp k 0x80) 3 0) | none => 0

/-- GAL.BUFSTATc: S0 buffers that serve a slot, S3 buffers that await egress. -/
def State.bufStat (s : State) (car : Nat) : Nat :=
  let l := (s.carrier car).slots
  let on := fun (p : Slot → Bool) (b : Nat) => b2n (l.any (fun x => p x && x.num % 2 == b))
  let busy := fun (x : Slot) => x.buf && !x.ended
  let out := fun (x : Slot) => !x.done && !x.egress.isEmpty
  on busy 0 + (on busy 1 <<< 1) + (on out 0 <<< 2) + (on out 1 <<< 3)

def State.galWord (s : State) (o : Nat) : Nat :=
  let rows := fun (n : Nat) => (List.range 8).foldl (fun v b => v + s.sparesUsed 1 n b) 0
  let mask := fun (p : Nat → Bool) => (List.range 4).foldl (fun v n => if p n then v + 2 ^ n else v) 0
  match o with
  | 0x7C => rows 0 + (rows 1 <<< 16)
  | 0x80 => rows 2 + (rows 3 <<< 16)
  | 0x88 => mask (fun n => s.fenced (uSlice n)) + (mask (fun n => s.domOn (36 + n)) <<< 4)
  | o => s.bufStat ((o - 0x60) / 4)

/-- FHP.LINK. While the link is down, what the physical layer reports is free (DESIGN CHOICE: log 69). -/
def State.fhpLink (s : State) (p : Nat) : Nat :=
  if (s.port p).linkUp then 0x3F
  else (Config.unsetWord (rOff .fhp p 0x60)).toNat % 256 / 4 * 4 + (if bit (s.reg .fhp p 0x40) 0 then 2 else (Config.unsetWord (rOff .fhp p 0x60)).toNat % 4 / 2 * 2)

/-- Registers that DSY1 of a manager alone has (R391). -/
def managerOnly (o : Nat) : Bool := decide (0x64 ≤ o ∧ o < 0x9C)
def State.isManagerPort (s : State) (p : Nat) : Bool := p == 1 && s.sec.role == 1

def State.dsyWord (s : State) (p o : Nat) : Nat :=
  let d := s.dsyAt p
  match o with
  | 0x44 => d.st + (b2n (p == 0 && s.sec.role == 1 && s.chain.ring) <<< 2)
      + (((d.lanes + (match d.spare with | some 8 => 0 | _ => if d.spareFor < 8 then 256 else 0)) % 512) <<< 3) + (d.spareFor <<< 12) + ((d.peer % 16) <<< 16)
  | 0x54 => if p = 1 then s.chain.xrx.length else 0
  | _ => if s.isManagerPort p then s.chain.count else 0

/-! ### Device services (R394, R420, R454, R456, R477, R503, R505, R507, R514, R531) -/

def State.devWord (s : State) (o : Nat) : Nat :=
  match o with
  | 0x40 => s.bootStage
  | 0x44 => s.sec.role
  | 0x48 => s.chainPos
  | 0x4C => s.col.hours
  | 0x50 => Config.serial.toNat
  | _ => s.sec.cause + (min 65535 s.thm.restarts <<< 16)

/-- QUE.STAT and QUE.INFLIGHT (R53, R54, R55). -/
def State.queWaits (s : State) (q : Nat) : Bool := bit (s.reg .que q 0x68) 0 && s.reg .que q 0x50 != s.reg .que q 0x4C
def State.queWord (s : State) (q o : Nat) : Nat :=
  match o with
  | 0x6C => b2n (s.queue q).inflight.isEmpty + (b2n (s.queWaits q && !s.cqFree q) <<< 1)
  | _ => (s.queue q).inflight.length

def State.colWord (s : State) (o : Nat) : Nat :=
  let c := s.col
  let mask := fun (l : List Bool) => (List.range 4).foldl (fun v i => v + (b2n (nth false l i) <<< i)) 0
  match o with
  | 0x40 => b2n c.mounted + (b2n (!c.queue.isEmpty) <<< 1) + (b2n c.pwBusy <<< 2) + (b2n c.pwFail <<< 3) + (b2n c.factory <<< 4)
  | 0x44 => match s.busyPages with
    | [] => 0
    | [a] => a + (1 <<< 8)
    | a :: b :: _ => a + (1 <<< 8) + (b <<< 16) + (1 <<< 24)
  | 0x48 => (List.range 4).foldl (fun v r => v + (min 7 (nth 0 c.tries r) <<< (8 + 3 * r))) (mask c.locked)
  | _ => match s.settings with | some pl => pl.length | none => 0

def State.hldWord (s : State) (o : Nat) : Nat :=
  let h := s.hld
  match o with
  | 0x44 => h.st + (b2n h.mainGood <<< 2) + (b2n h.measuring <<< 3) + (h.why <<< 4)
  | 0x48 => h.cap
  | 0x4C => h.vtarget
  | 0x50 => h.vhold
  | _ => min 65535 h.eusable

def State.hkcWordAt (s : State) (o : Nat) : Nat :=
  let h := s.hkc
  let fac := fun (x : HkcConv) (g : Nat) => let f := nth (0, 0x8000) x.factors g; toBits 16 f.1 + (toBits 16 f.2 <<< 16)
  match o with
  | 0x4C => (if s.scalRunning then 2 else if h.running then (if h.twinDue then 3 else 1) else 0) + (b2n (!h.staged.isEmpty) <<< 2)
      + (b2n h.a.busy.isSome <<< 3) + (b2n h.b.busy.isSome <<< 4) + (h.lastE <<< 5)
  | o => if o < 0x8C then fac h.a ((o - 0x80) / 4) else fac h.b ((o - 0x8C) / 4)

def State.thmWord (s : State) (o : Nat) : Nat :=
  let t := s.thm
  let e := nth [] t.log (bits (s.reg .thm 0 0x68) 2 0)
  match o with
  | 0x48 => toBits 16 t.temp + (b2n (t.valid && t.flt == 0) <<< 16) + (t.flt <<< 17)
  | 0x4C => t.st + (b2n t.enforced <<< 2) + (b2n t.grace <<< 3)
  | 0x50 => toBits 16 t.peak
  | o => fieldLe e (o - 0x6C) 4

def State.domMask (p : Nat → Bool) : Nat := (List.range 50).foldl (fun v d => if p d then v + 2 ^ d else v) 0

def State.pwrWord (s : State) (o : Nat) : Nat :=
  let d := bits (s.reg .pwr 0 0x58) 5 0
  match o with
  | 0x40 => State.domMask s.requested
  | 0x48 => State.domMask s.domOn
  | 0x54 => (List.range 4).foldl (fun v n => v + ((s.quad n % 256) <<< (8 * n))) 0
  | 0x5C => b2n (s.dom d).req
  | _ => (s.dom d).st + ((s.dom d).offs <<< 16)

/-- XNG (R506, R507). -/
def State.xngWord (s : State) (o : Nat) : Nat :=
  let w := s.reg .xng 0 0x40
  let a := bits w 4 0
  let b := bits w 12 8
  let x := s.xngAt a b
  let on := crossed a b && Config.crossings a b != 0
  match o with
  | 0x44 => if on then 1 + (b2n (!x.closed) <<< 1) + ((Config.crossings a b % 256) <<< 2) else 0
  | 0x48 => if on then x.lost else 0
  | 0x4C => if on then x.dropw else 0
  | 0x50 => if on then x.closes else 0
  | _ => if on then x.merged else 0

/-- The entry of the suspect log that FLT shows. -/
def State.shownLog (s : State) : Option LogEntry := (s.ctx (bits (s.reg .flt 0 0x60) 4 0)).log[bits (s.reg .flt 0 0x6C) 5 0]?

/-- FLT.UHIST of a unit: events in the window as one at this moment would see them (R409). -/
def State.uhist (s : State) (u : Nat) : Nat :=
  let x := s.unit u
  let n := (x.evs.filter (fun e => s.inWindow e.ctx (if e.ctx = 255 then 0 else (s.ctx e.ctx).invoc) e)).length
  x.total + (min 3 n <<< 16) + (x.state <<< 18) + (x.reason <<< 24)

def State.fltWord (s : State) (o : Nat) : Nat :=
  let e := s.events[bits (s.reg .flt 0 0x44) 5 0]?
  let x := s.ctx (bits (s.reg .flt 0 0x60) 4 0)
  match o with
  | 0x50 => match e with | some e => e.kind + (e.cls <<< 8) + (if e.ctx ≤ 31 then (1 <<< 10) + (e.ctx <<< 16) else 0) | none => 0
  | 0x54 => match e with | some e => e.unit + (min 65535 e.detail <<< 16) | none => 0
  | 0x58 => match e with | some e => e.invoc + (e.tile <<< 48) | none => 0
  | 0x64 => b2n (x.ex && s.degraded (bits (s.reg .flt 0 0x60) 4 0)) + (b2n x.faulted <<< 1) + (b2n x.frozen <<< 2) + (b2n x.lost <<< 3)
      + (b2n x.multi <<< 4) + (x.log.length <<< 8)
  | 0x68 => if x.ex then x.tol else 0
  | 0x70 => match s.shownLog with | some l => l.invoc + (l.gennum <<< 48) | none => 0
  | 0x78 => match s.shownLog with | some l => l.trig | none => 0
  | 0x7C => match s.shownLog with
    | some l => 1 + (b2n l.touched <<< 1) + (b2n l.slot <<< 2) + (l.carrier <<< 3) + (b2n l.preempted <<< 5)
    | none => 0
  | 0x80 => x.slUnit + (x.slReason <<< 16)
  | 0x8C => s.uhist (bits (s.reg .flt 0 0x88) 15 0)
  | o => match s.shownLog with
    | some l => (FMap.get 0 l.wrote (x.slUnit * 64 + bits (s.reg .flt 0 0x6C) 13 8) >>> (8 * (o - 0xA0))) % 2 ^ 32
    | none => 0

/-- SEC.SLOTn. -/
def State.slotWord (s : State) (n : Nat) : Nat :=
  let d := s.fwDir.1
  (if d.active = n then 2 else if bit d.staged n then 1 else 0) + (d.region n <<< 2)

/-- SEC.FWSTAT. KIB shows the whole image while it is being staged (DESIGN CHOICE: log 69). -/
def State.fwStat (s : State) : Nat :=
  let cmp := if s.sec.op = 2 then ((List.range 17).find? (fun k => let p := (s.cmp k).phase; decide (1 ≤ p ∧ p ≤ 3))).getD 0x1F else 0
  let kib := match s.sec.fwJob with | some j => j.2.length / 1024 | none => 0
  s.sec.op + (cmp <<< 2) + (kib <<< 8)

def State.secWord (s : State) (o : Nat) : Nat :=
  match o with
  | 0x48 => s.secBoot
  | 0x4C => s.sec.svn
  | 0x50 => s.sec.svnMin
  | 0x58 => s.slotWord 0
  | 0x5C => s.fwDir.1.svn 0
  | 0x60 => s.slotWord 1
  | 0x64 => s.fwDir.1.svn 1
  | 0xA0 => s.fwStat
  | o => fieldLe s.sec.meas (o - 0x70) 4

def State.cfgWord (s : State) (o : Nat) : Nat :=
  match o with
  | 0x40 => s.cfg.pub
  | 0x48 => b2n s.cfgPending + (b2n (s.ops.any (fun x => x.opc == 0x51) || s.jobs.any (fun j => j.kind == 18)) <<< 1)
  | o => fieldLe s.cfg.digest (o - 0x50) 4

/-! ### Reading a word -/

/-- Registers of a page that are read out of the rest of the state, by the page offset they start at. -/
def derivedAt : PType → Nat → Bool
  | .dev, _ => true
  | .hif, o => o == 0x64
  | .que, o => o == 0x6C || o == 0x70
  | .fhp, o => o == 0x60
  | .gal, o => (decide (0x60 ≤ o ∧ o < 0x70)) || o == 0x7C || o == 0x80 || o == 0x88
  | .eng, o => o == 0x40
  | .cmp, o => [0x40, 0x44, 0x50, 0x7C, 0x84, 0x88].contains o
  | .dsy, o => [0x44, 0x54, 0x6C].contains o
  | .arr, o => o != 0x40
  | .acc, o => [0x48, 0x58, 0x60, 0x68].contains o
  | .out, o => (decide (0x44 ≤ o ∧ o ≤ 0x54)) || o == 0x78
  | .prf, o => o == 0x40 || o == 0x48
  | .spd, o => o == 0x60 || o == 0x64
  | .cal, o => decide (0x60 ≤ o ∧ o < 0xC0) || o == 0xD0
  | .col, o => decide (0x40 ≤ o ∧ o ≤ 0x4C)
  | .hld, o => decide (0x44 ≤ o ∧ o ≤ 0x54)
  | .hkc, o => o == 0x4C || decide (0x80 ≤ o ∧ o < 0x98)
  | .thm, o => [0x48, 0x4C, 0x50, 0x6C, 0x70, 0x74].contains o
  | .pwr, o => [0x40, 0x48, 0x54, 0x5C, 0x60].contains o
  | .flt, o => [0x50, 0x54, 0x58, 0x64, 0x68, 0x70, 0x78, 0x7C, 0x80, 0x8C].contains o || decide (0xA0 ≤ o)
  | .sec, o => [0x48, 0x4C, 0x50, 0x58, 0x5C, 0x60, 0x64, 0xA0].contains o || decide (0x70 ≤ o ∧ o < 0xA0)
  | .cfg, o => o == 0x40 || o == 0x48 || decide (0x50 ≤ o ∧ o < 0x80)
  | .xng, o => o != 0x40
  | _, _ => false

/-- Value of a derived register. -/
def State.derived (s : State) (t : PType) (i o : Nat) : Nat :=
  match t with
  | .dev => s.devWord o | .hif => s.host.link | .que => s.queWord i o | .fhp => s.fhpLink i | .gal => s.galWord o
  | .eng => busyPend (s.countOps (fun x => x.engine == some i))
  | .cmp => s.cmpWord i o | .dsy => s.dsyWord i o | .arr => arrWord (s.arr (s.arrSel i)) o | .acc => s.accWord i o
  | .out => s.outWord i o | .prf => s.prfWord i o | .spd => s.spdWord i o | .cal => s.calWord i o | .col => s.colWord o
  | .hld => s.hldWord o | .hkc => s.hkcWordAt o | .thm => s.thmWord o | .pwr => s.pwrWord o | .flt => s.fltWord o
  | .sec => s.secWord o | .cfg => s.cfgWord o | .xng => s.xngWord o
  | _ => 0

/-- A register's value as read: write-only ones read 0 (R13), and so do those that a manager's DSY1 alone has, elsewhere,
and XTAGMAP on DSY0 (R391). -/
def State.regShown (s : State) (t : PType) (i : Nat) (r : Reg) (b : Nat) : Nat :=
  if r.acc == .wo then 0
  else if t == .dsy && ((managerOnly b && !s.isManagerPort i) || (i == 0 && decide (b ≥ 0xA0))) then 0
  else if derivedAt t b then s.derived t i b
  else if r.wide then s.reg64 t i b else s.reg t i b

/-- The 4 bytes at an aligned BAR0 offset as they stand: 0 outside the pages, in reserved places, and for the block-specific
registers of a domain that is not ON (R37, R43). -/
def State.word (s : State) (off : Nat) : Nat :=
  match pageAt (off / 4096) with
  | none => 0
  | some (t, i) =>
    let o := off % 4096
    if o < 0x40 then s.hdrWord t i o
    else if !s.pageOn t i then 0
    else match findReg t o with
      | none => 0
      | some (r, b) => (s.regShown t i r b >>> (8 * (o - b))) % 2 ^ 32

end Sys2Proof.Machine
end

