-- ==== Sys2Proof/Machine/HostIf.lean ====
section
/-!
DEFINITION. Sys2Proof/Machine/HostIf.lean: what the host does to the register pages and the queues (R36, R37, R43 to R66, R106,
R107, R376).
-/
namespace Sys2Proof.Machine

/-! ### Plain accesses -/

/-- The state that a meaning answers. -/
def after (o : Host.Outcome State Fault Refusal) (s : State) : State := match o with | .next t => t | _ => s

/-- An access outside the pages (R37). -/
def State.unmapped (s : State) (off : Nat) : State := s.reject 0 .range (off % 4096)

/-- A write of a header word (R44): ERR clears the bits written as 1, GATE requests power, the rest is read-only. -/
def State.hdrWrite (s : State) (off : Nat) (v : Word) : State :=
  let o := off % 4096
  if o = 0x08 then after (execPowerRequestWrite off v s) s
  else if o = 0x10 then
    s.modPage (off / 4096) (fun h =>
      { h with errCode := h.errCode - (h.errCode &&& bits v.toNat 31 24), errOff := h.errOff - (h.errOff &&& bits v.toNat 11 0) })
  else s

/-! ### 64-bit registers (R49, R50) -/

/-- Why a whole value is refused for the 64-bit register that starts at `lo` (R54, R66, R391, R392, R478). -/
def State.wideBad (s : State) (lo v : Nat) : Option Code :=
  match pageAt (lo / 4096) with
  | none => some .range
  | some (t, i) =>
    match t with
    | .hkc => (hkcEntryBad v).or (if s.locked 3 then some .lock else none)
    | .dsy => (if !s.pageOn .dsy i then some .power else none).or (firstBad [(!s.isManagerPort i, .state), (s.pushState == 1, .busy)])
    | .que => (s.regBad lo v).or (firstBad [(bit (s.reg .que i 0x68) 0, .state)])
    | .hif => (s.regBad lo v).or (firstBad
        [(lo % 4096 == 0x40 && bit (s.reg .hif 0 0x48) 0, .state), (lo % 4096 == 0x50 && decide (v + 2 ^ 30 > s.lpCap), .range)])
    | _ => s.regBad lo v

/-- A whole value is written to the 64-bit register that starts at `lo`; `acc` is the offset of the access. -/
def State.wideWrite (s : State) (lo v acc : Nat) : State :=
  match pageAt (lo / 4096) with
  | none => s
  | some (t, _) =>
    match findReg t (lo % 4096) with
    | none => s
    | some (r, _) =>
      if r.acc == .ro then (if (s.regBad lo 0) == some .power then s.rejectOff acc .power else s)
      else match s.wideBad lo v with
      | some c => s.rejectOff acc c
      | none =>
        if t == .hkc then s.hkcEntryWrite ((lo % 4096 - 0x200) / 8) v acc
        else if t == .col then s.withCol (if lo % 4096 = 0x58 then { s.col with pwOld := v } else { s.col with pwNew := v })
        else s.regPut lo v

/-- A 4-byte write of a word of a 64-bit register (R50). -/
def State.halfWrite (s : State) (off lo v : Nat) : State :=
  if s.regBad lo 0 == some .power then s.rejectOff off .power
  else if off = lo then s.stageLow off v
  else let r := s.takeLow off v; r.1.wideWrite lo r.2 off

/-- The 64-bit register that a BAR0 offset lies in: its first offset. -/
def wideAt (off : Nat) : Option Nat :=
  match pageAt (off / 4096) with
  | none => none
  | some (t, _) =>
    if off % 4096 < 0x40 then none
    else match findReg t (off % 4096) with
      | some (r, b) => if r.wide then some (off / 4096 * 4096 + b) else none
      | none => none

/-! ### QUE and HIF (R54, R55, R65) -/

/-- SQ_DOORBELL: a value of 2^n or more is refused. -/
def execSqDoorbell (q : Nat) (value : Word) (s : State) : Host.Outcome State Fault Refusal :=
  let off := rOff .que q 0x4C
  .next (if q > 3 then s
    else s.regWrite off value.toNat false [(decide (value.toNat ≥ 2 ^ s.reg .que q 0x48), .range)] (fun s => s.regPut off value.toNat))

/-- CQ_HEAD_WRITE. -/
def execCqHeadWrite (q : Nat) (value : Word) (s : State) : Host.Outcome State Fault Refusal :=
  let off := rOff .que q 0x54
  .next (if q > 3 then s else s.regWrite off value.toNat false [] (fun s => s.regPut off value.toNat))

/-- QUEUE_ENABLE: setting EN zeroes the four indices, the completion sequence, and starts the first pass; clearing it stops
fetching. -/
def execQueueEnable (q : Nat) (value : Word) (s : State) : Host.Outcome State Fault Refusal :=
  let off := rOff .que q 0x68
  .next (if q > 3 then s
    else s.regWrite off value.toNat false [] (fun s =>
      let was := bit (s.rd off) 0
      let s := s.regPut off value.toNat
      if was || !bit value.toNat 0 then s
      else
        let s := (((s.setReg .que q 0x4C 0).setReg .que q 0x50 0).setReg .que q 0x54 0).setReg .que q 0x64 0
        (s.modQueue q (fun x => { x with turn := 0, cseq := 0, phase := true })).withHost { s.host with d3hot := false }))

/-- STATCTRL_WRITE: setting EN makes record 1 due. -/
def execStatctrlWrite (value : Word) (s : State) : Host.Outcome State Fault Refusal :=
  let off := rOff .hif 0 0x48
  .next (s.regWrite off value.toNat false [] (fun s =>
    let was := bit (s.rd off) 0
    let s := s.regPut off value.toNat
    if was || !bit value.toNat 0 then s
    else (s.setReg .hif 0 0x4C 0).withHost { s.host with record := [], recordDue := true }))

/-- A queue from which the device can fetch. -/
def State.fetchable (s : State) (q : Nat) : Bool :=
  s.pageOn .que q && s.queWaits q && s.cqFree q && !s.host.d3hot && (s.host.linkUp || s.tunnels)

/-- The queue fetched from next (R57). -/
def State.nextQueue (s : State) : Option Nat :=
  let l := (List.range 4).filter s.fetchable
  match l.find? (fun q => decide ((s.queue q).turn ≥ 16)) with
  | some q => some q
  | none => l.head?

/-- QUEUE_FETCH: the entry that stands at SQ_HEAD of the next queue is fetched. An opcode that is no command is refused at once
(DESIGN CHOICE: log 70). -/
def execQueueFetch (bytes : List Byte) (s : State) : Host.Outcome State Fault Refusal :=
  .next (match s.nextQueue with
  | none => s
  | some q =>
    let e : Entry := { queue := q, bytes := sliceB bytes 0 64 }
    let s := (List.range 4).foldl (fun s j =>
      s.modQueue j (fun x => { x with turn := if j ≠ q ∧ s.queWaits j then x.turn + 1 else 0 })) s
    let s := s.setReg .que q 0x50 ((s.reg .que q 0x50 + 1) % 2 ^ s.reg .que q 0x48)
    let bad := decide (e.op = 0 ∨ e.op > 0x18)
    let s := s.modQueue q (fun x => { x with inflight := x.inflight ++ [{ e := e, started := bad }] })
    if bad then s.fail e .opcode else s)

/-! ### The status record (R64) -/

/-- Bytes 4 to 251 of the status record. -/
def State.statusBody (s : State) : List Byte :=
  let ctxMask := fun (p : Nat → Bool) => s.ctxList.foldl (fun v c => if p c then v + 2 ^ c else v) 0
  let count := fun (n : Nat) (u : Nat → Nat) => ((List.range n).filter (fun i => s.fenced (u i))).length
  let d := s.fwDir.1
  leBytes 1 s.bootStage ++ leBytes 1 s.sec.role ++ leBytes 1 s.thm.st ++ leBytes 1 s.thm.shed ++ leBytes 2 (toBits 16 s.thm.pub)
    ++ leBytes 1 s.hld.st ++ leBytes 1 0 ++ leBytes 4 s.cfg.pub ++ (List.range 4).flatMap (fun q => leBytes 4 (s.reg .que q 0x50))
    ++ leBytes 4 (ctxMask s.degraded) ++ leBytes 4 (ctxMask (fun c => (s.ctx c).faulted))
    ++ leBytes 2 (s.arrKeys (fun _ r => r.st == 4)).length ++ leBytes 1 (count 64 uClu) ++ leBytes 1 (count 17 uCmp)
    ++ leBytes 1 (d.active + (b2n (bit d.staged (1 - d.active)) <<< 1)) ++ leBytes 3 0
    ++ leBytes 4 (s.reg .dsy 1 0x90) ++ leBytes 4 (ones 16 (s.reg .dsy 1 0x98))
    ++ leBytes 4 (b2n s.col.ambig + ((List.range 4).foldl (fun v i => v + (b2n (nth false s.col.locked i) <<< (i + 1))) 0))
    ++ List.replicate 192 0#8

/-- STATUS_RECORD_WRITE: a record that is due, or whose fields have changed since the last, goes to STATADDR in one write. -/
def execStatusRecordWrite (s : State) : Host.Outcome State Fault Refusal :=
  .next (if !bit (s.reg .hif 0 0x48) 0 || !s.domOn 45 || (!s.host.recordDue && s.host.record == s.statusBody) then s
    else
      let n := (s.reg .hif 0 0x4C + 1) % 2 ^ 32
      let b := s.statusBody
      let s := s.setReg .hif 0 0x4C n
      let s := s.withHost { s.host with record := b, recordDue := false }
      s.hostWrite (s.reg64 .hif 0 0x40) (leBytes 4 n ++ b ++ leBytes 4 n))

/-! ### ARR (R106, R107) -/

/-- ARR_CNTCLR: the counters of the selected array restart from 0. -/
def execArrCntclr (c : Nat) (value : Word) (s : State) : Host.Outcome State Fault Refusal :=
  .next (if c > 63 then s
    else s.regWrite (rOff .arr c 0x4C) value.toNat false [] (fun s =>
      if bit value.toNat 0 then s.modArr (s.arrSel c) (fun r =>
        { r with vec := 0, zeros := 0, coarse := 0, ovr := 0, ckfail := 0, ckmag := 0, ckhalf := 0, ckgroup := 0, inclamp := 0 })
      else s))

/-! ### 4-byte writes (R45) -/

/-- Lock and state rules of the 32-bit registers that have no behaviour of their own. -/
def State.plainRules (s : State) (t : PType) (i o v : Nat) : Bool × List (Bool × Code) :=
  match t with
  | .que => (false, [((o == 0x48 || o == 0x60) && bit (s.reg .que i 0x68) 0, .state)])
  | .fhp => (false, s.fhpCases i o v)
  | .cmp => (o == 0x48 && s.locked 0, [(o == 0x78 && !bit v 8 && decide (bits v 7 0 > 63), .range)])
  | .dsy => (false, [(managerOnly o && !s.isManagerPort i, .state), (o == 0x80 && s.pushState == 1, .busy)])
  | .hkc => (s.locked 3, [])
  | .tst => (s.locked 2, [])
  | .flt =>
    let u := bits v 15 0
    let k := bits u 12 7
    let ok := match u / 8192 with
      | 0 => decide (u % 128 < 68)
      | 1 => u % 128 == 0
      | 2 => u % 128 == 0 && decide (k < 17)
      | 3 => decide (k < 2 ∧ u % 128 < 9)
      | _ => u % 128 == 0 && decide (k < 4)
    (false, [(o == 0x88 && !ok, .value)])
  | .xng => (false, [(bits v 4 0 == bits v 12 8, .range)])
  | _ => (false, [])

/-- A write to a 32-bit register of a page, at page offset `o`: to the register's own behaviour where it has one. -/
def State.wordWrite (s : State) (t : PType) (i o : Nat) (v : Word) : State :=
  let off := rOff t i o
  match t, o with
  | .que, 0x4C => after (execSqDoorbell i v s) s
  | .que, 0x54 => after (execCqHeadWrite i v s) s
  | .que, 0x68 => after (execQueueEnable i v s) s
  | .hif, 0x48 => after (execStatctrlWrite v s) s
  | .cmp, 0x4C => after (execAbort i v s) s
  | .arr, 0x4C => after (execArrCntclr i v s) s
  | .acc, 0x50 => after (execRbselGo i v s) s
  | .fhp, 0x40 => after (execFhpCfgWrite i v s) s
  | .fhp, 0x64 => after (execFhpCntclr i v s) s
  | .spd, 0x40 => after (execMaintWrite i v s) s
  | .dsy, 0x40 => after (execDsyCfgWrite i v s) s
  | .dsy, 0x84 => if s.isManagerPort i then after (execPushGo v s) s else s.regWrite off v.toNat false [(true, .state)] id
  | .col, 0x50 => after (execPasswordChange v s) s
  | .hld, 0x60 => after (execRemeasure v s) s
  | .hkc, 0x40 => after (execHkcCtrlRun v s) s
  | .hkc, 0x44 => after (execHkcStagedWrite 0x44 v s) s
  | .hkc, 0x60 => after (execScalgo v s) s
  | .hkc, 0x64 => after (execStatcap v s) s
  | .hkc, 0x78 => after (execStatactClear v s) s
  | .thm, 0x44 => after (execTripWrite v s) s
  | .thm, 0x54 => after (execPeakclr v s) s
  | .pwr, 0x50 => after (execQfreqWrite v s) s
  | .pwr, 0x5C => after (execPowerRequestWrite off v s) s
  | .flt, 0x84 => after (execSlack v s) s
  | .tst, 0x44 => after (execPeriodWrite v s) s
  | .sec, 0x40 => after (execLockWrite v s) s
  | .sec, 0x44 => after (execLockbootWrite v s) s
  | .sec, 0x54 => after (execRbcommit v s) s
  | .cfg, 0x44 => after (execAlign v s) s
  | .gal, o =>
    if o < 0x60 then after (execGalMapWrite off v s) s else s.regWrite off 0 false [] id
  | t, o =>
    match findReg t o with
    | none => s.regWrite off 0 false [] id
    | some (r, _) =>
      if r.acc == .ro then s.regWrite off 0 false (if t == .dsy && managerOnly o && !s.isManagerPort i then [(true, .state)] else []) id
      else if t == .dsy && i == 0 && decide (o ≥ 0xA0) then s.regWrite off 0 false [] id
      else
        let k := s.plainRules t i o v.toNat
        s.regWrite off v.toNat k.1 k.2 (fun s => s.regPut off v.toNat)

/-- A host write of 4 aligned bytes. -/
def State.write4 (s : State) (off : Nat) (v : Word) : State :=
  match pageAt (off / 4096) with
  | none => s.unmapped off
  | some (t, i) =>
    if off % 4096 < 0x40 then s.hdrWrite off v
    else match wideAt off with
      | some lo => s.halfWrite off lo v.toNat
      | none => s.wordWrite t i (off % 4096) v

/-- The remote window (R34). -/
def inRemote (off : Nat) : Bool := decide (0x800000 ≤ off ∧ off < 0x1000000)

/-- A manager's access inside the remote window is the command REMOTE_WINDOW_ACCESS and none of the plain ones (R34, R376). -/
def State.forwards (s : State) (off : Nat) : Bool := inRemote off && s.sec.role == 1

/-- REGISTER_WRITE: a 4-byte write to any aligned offset. -/
def execRegisterWrite (offset : Nat) (value : Word) (s : State) : Host.Outcome State Fault Refusal :=
  .next (if offset % 4 ≠ 0 ∨ offset ≥ 0x2000000 ∨ s.forwards offset then s else s.write4 offset value)

/-- LOW_WORD_WRITE: the page's staging word takes the low half (R50). -/
def execLowWordWrite (offset : Nat) (value : Word) (s : State) : Host.Outcome State Fault Refusal :=
  .next (match wideAt offset with
  | some lo => if offset = lo then s.halfWrite offset lo value.toNat else s
  | none => s)

/-- HIGH_WORD_WRITE: both halves are committed (R50). -/
def execHighWordWrite (offset : Nat) (value : Word) (s : State) : Host.Outcome State Fault Refusal :=
  .next (match wideAt offset with
  | some lo => if offset = lo + 4 then s.halfWrite offset lo value.toNat else s
  | none => s)

/-! ### Reads (R36, R37, R49) -/

/-- Bytes from a BAR0 offset as they stand. -/
def State.rawBytes (s : State) (off n : Nat) : List Byte :=
  (List.range n).map (fun j => BitVec.ofNat 8 (s.word ((off + j) / 4 * 4) >>> (8 * ((off + j) % 4))))

/-- A 4-byte aligned read, with the effects that R49, R168 and R469 give it. -/
def State.read4 (s : State) (off : Nat) : State :=
  match pageAt (off / 4096) with
  | none => (s.unmapped off).reply (leBytes 4 0)
  | some (t, i) =>
    if off % 4096 < 0x40 ∨ !s.pageOn t i then s.reply (leBytes 4 (s.word off))
    else if t = .acc ∧ off % 4096 = 0x58 then after (execRbdataRead i 4 s) s
    else if t = .hkc ∧ 0x100 ≤ off % 4096 ∧ off % 4096 < 0x180 then after (execHkcDataRead ((off % 4096 - 0x100) / 4) 4 s) s
    else match wideAt off with
      | none => s.reply (leBytes 4 (s.word off))
      | some lo =>
        if off = lo then
          (s.reply (leBytes 4 (s.word lo))).modPage (off / 4096) (fun p => { p with snapHi := s.word (lo + 4), latches := (p.latches + 1) % 65536 })
        else s.reply (leBytes 4 (s.page (off / 4096)).snapHi)

/-- An 8-byte aligned read: a 64-bit register at one instant, or two accesses (R36, R49). -/
def State.read8 (s : State) (off : Nat) : State :=
  match pageAt (off / 4096), wideAt off with
  | some (.acc, c), some lo => if lo % 4096 = 0x58 then after (execRbdataRead c 8 s) s else s.reply (s.rawBytes off 8)
  | _, some _ => s.reply (s.rawBytes off 8)
  | none, _ => (s.unmapped off).reply (leBytes 8 0)
  | _, none =>
    let a := s.read4 off
    let b := a.read4 (off + 4)
    b.reply (a.host.reply ++ b.host.reply)

/-- An 8-byte aligned write. -/
def State.write8 (s : State) (off : Nat) (v : DWord) : State :=
  match wideAt off with
  | some lo =>
    if s.regBad lo 0 == some .power then s.rejectOff off .power else s.wideWrite lo v.toNat off
  | none =>
    match pageAt (off / 4096) with
    | none => s.unmapped off
    | some _ => (s.write4 off (v.extractLsb' 0 32)).write4 (off + 4) (v.extractLsb' 32 32)

/-- The sizes and alignments that BAR0 accepts (R36). -/
def properAccess (off size : Nat) : Bool := (size == 4 || size == 8) && off % size == 0

/-- An access of another size or alignment (R36). -/
def State.oddAccess (s : State) (write : Bool) (off size : Nat) : State :=
  if size > 8 then
    let s := s.bump .hif 0 0x60 1
    s.withHost { s.host with reply := [], poisoned := false, unsup := true }
  else match pageAt (off / 4096) with
    | none => if write then s.unmapped off else (s.unmapped off).reply (leBytes size 0)
    | some _ => if write then s.rejectOff off .align else s.reply (s.rawBytes off size)

/-- A host access of any size (R36). -/
def State.hostAccess (s : State) (write : Bool) (off size : Nat) (v : DWord) : State :=
  if !properAccess off size then s.oddAccess write off size
  else if write then (if size = 4 then s.write4 off (v.extractLsb' 0 32) else s.write8 off v)
  else if size = 4 then s.read4 off else s.read8 off

/-- LOW_WORD_READ (R49): a 4-byte read at any aligned offset; of a 64-bit register's low word it latches. -/
def execLowWordRead (offset : Nat) (s : State) : Host.Outcome State Fault Refusal :=
  .next (if offset % 4 ≠ 0 ∨ offset ≥ 0x2000000 ∨ s.forwards offset then s else s.read4 offset)

/-- BAR0_ODD_ACCESS (R36). -/
def execBar0OddAccess (write : Bool) (offset size : Nat) (s : State) : Host.Outcome State Fault Refusal :=
  .next (if properAccess offset size ∨ offset ≥ 0x2000000 ∨ (s.forwards offset ∧ size ≤ 8) then s else s.oddAccess write offset size)

/-- BAR0_UNMAPPED (R37): a manager's remote window is mapped. -/
def execBar0Unmapped (write : Bool) (offset : Nat) (s : State) : Host.Outcome State Fault Refusal :=
  .next (if (pageAt (offset / 4096)).isSome ∨ offset ≥ 0x2000000 ∨ s.forwards offset then s
    else if write then s.unmapped offset else (s.unmapped offset).reply (leBytes 4 0))

/-! ### The remote window (R376, R377) -/

/-- REMOTE_WINDOW_ACCESS: a manager forwards the access to the position that RWSEL names; for a read, `value` is what the worker
answered. A position out of reach gives 0 and counts. -/
def execRemoteWindowAccess (write : Bool) (offset size : Nat) (value : DWord) (s : State) : Host.Outcome State Fault Refusal :=
  .next (if !inRemote offset then s
    else if size > 8 ∨ s.sec.role ≠ 1 then s.hostAccess write offset size value
    else
      let sel := s.reg .dsy 1 0x64
      let pos := bits sel 3 0
      let x := bits sel 5 4 * 0x800000 + (offset - 0x800000)
      if pos < s.chain.count ∧ s.dsyUp 1 then
        let s := s.withChain { s.chain with remote := s.chain.remote ++ [(pos, b2n write, x, size, if write then value.toNat else 0)] }
        if write then s else s.reply (leBytes size value.toNat)
      else
        let s := (s.bump .dsy 1 0x68 1).reject (rOff .dsy 1 0 / 4096) .link (offset % 4096)
        if write then s else s.reply (leBytes size 0))

/-- REMOTE_REG_ACCESS: a worker performs the manager's access as a host access of that size, and answers a read upstream. -/
def execRemoteRegAccess (write : Bool) (offset size : Nat) (value : DWord) (s : State) : Host.Outcome State Fault Refusal :=
  .next (if s.sec.role ≠ 2 ∨ !s.dsyUp 0 then s
    else
      let h := s.host
      let t := s.hostAccess write offset size value
      (t.withHost { t.host with reply := h.reply, poisoned := h.poisoned, unsup := h.unsup }).withChain (if write then t.chain else { t.chain with answer := t.host.reply }))

end Sys2Proof.Machine
end

