-- ==== Sys2Proof/Machine/Dispatch.lean ====
section
/-!
DEFINITION. Sys2Proof/Machine/Dispatch.lean: one meaning per command.
-/
namespace Sys2Proof.Machine

def exec (i : Instr) (s : State) : Host.Outcome State Fault Refusal :=
  match i with
  | .devCommit e => Sys2Proof.Machine.execDevCommit e s
  | .ctxCreate e => Sys2Proof.Machine.execCtxCreate e s
  | .ctxLoad e image bad => Sys2Proof.Machine.execCtxLoad e image bad s
  | .ctxProgram e image => Sys2Proof.Machine.execCtxProgram e image s
  | .ctxSwitch e => Sys2Proof.Machine.execCtxSwitch e s
  | .ctxSave e => Sys2Proof.Machine.execCtxSave e s
  | .ctxRestore e data bad => Sys2Proof.Machine.execCtxRestore e data bad s
  | .ctxDestroy e => Sys2Proof.Machine.execCtxDestroy e s
  | .run e => Sys2Proof.Machine.execRun e s
  | .slotDesc e map => Sys2Proof.Machine.execSlotDesc e map s
  | .slotClose e => Sys2Proof.Machine.execSlotClose e s
  | .calRun e => Sys2Proof.Machine.execCalRun e s
  | .testRun e => Sys2Proof.Machine.execTestRun e s
  | .marchRun e => Sys2Proof.Machine.execMarchRun e s
  | .colRead e => Sys2Proof.Machine.execColRead e s
  | .colWrite e data => Sys2Proof.Machine.execColWrite e data s
  | .hkcUrgent e => Sys2Proof.Machine.execHkcUrgent e s
  | .digestQuery e => Sys2Proof.Machine.execDigestQuery e s
  | .census e => Sys2Proof.Machine.execCensus e s
  | .fwStage e image => Sys2Proof.Machine.execFwStage e image s
  | .fwActivate e => Sys2Proof.Machine.execFwActivate e s
  | .unitFence e => Sys2Proof.Machine.execUnitFence e s
  | .unitUnfence e => Sys2Proof.Machine.execUnitUnfence e s
  | .attest e => Sys2Proof.Machine.execAttest e s
  | .queueFetch bytes => Sys2Proof.Machine.execQueueFetch bytes s
  | .statusRecordWrite => Sys2Proof.Machine.execStatusRecordWrite s
  | .nop ctx stream => Sys2Proof.Machine.execNop ctx stream s
  | .loop ctx stream => Sys2Proof.Machine.execLoop ctx stream s
  | .endloop ctx stream => Sys2Proof.Machine.execEndloop ctx stream s
  | .brc ctx stream => Sys2Proof.Machine.execBrc ctx stream s
  | .wait ctx stream => Sys2Proof.Machine.execWait ctx stream s
  | .waitMet ctx stream cycles => Sys2Proof.Machine.execWaitMet ctx stream cycles s
  | .waitLimit ctx stream => Sys2Proof.Machine.execWaitLimit ctx stream s
  | .sig ctx stream => Sys2Proof.Machine.execSig ctx stream s
  | .halt ctx stream => Sys2Proof.Machine.execHalt ctx stream s
  | .seta ctx stream => Sys2Proof.Machine.execSeta ctx stream s
  | .adda ctx stream => Sys2Proof.Machine.execAdda ctx stream s
  | .mvm ctx stream => Sys2Proof.Machine.execMvm ctx stream s
  | .mvms ctx stream => Sys2Proof.Machine.execMvms ctx stream s
  | .refread ctx stream => Sys2Proof.Machine.execRefread ctx stream s
  | .pmm ctx stream => Sys2Proof.Machine.execPmm ctx stream s
  | .pmmc ctx stream => Sys2Proof.Machine.execPmmc ctx stream s
  | .pout ctx stream => Sys2Proof.Machine.execPout ctx stream s
  | .drain ctx stream => Sys2Proof.Machine.execDrain ctx stream s
  | .argx ctx stream => Sys2Proof.Machine.execArgx ctx stream s
  | .asave ctx stream => Sys2Proof.Machine.execAsave ctx stream s
  | .arestore ctx stream => Sys2Proof.Machine.execArestore ctx stream s
  | .azero ctx stream => Sys2Proof.Machine.execAzero ctx stream s
  | .move ctx stream => Sys2Proof.Machine.execMove ctx stream s
  | .gather ctx stream => Sys2Proof.Machine.execGather ctx stream s
  | .pack ctx stream => Sys2Proof.Machine.execPack ctx stream s
  | .rank ctx stream => Sys2Proof.Machine.execRank ctx stream s
  | .chkpt ctx stream => Sys2Proof.Machine.execChkpt ctx stream s
  | .digest ctx stream => Sys2Proof.Machine.execDigest ctx stream s
  | .testvec ctx stream => Sys2Proof.Machine.execTestvec ctx stream s
  | .cmpr ctx stream => Sys2Proof.Machine.execCmpr ctx stream s
  | .xsend ctx stream => Sys2Proof.Machine.execXsend ctx stream s
  | .xrecv ctx stream => Sys2Proof.Machine.execXrecv ctx stream s
  | .invocationStart ctx => Sys2Proof.Machine.execInvocationStart ctx s
  | .invocationEnd ctx => Sys2Proof.Machine.execInvocationEnd ctx s
  | .invocationStop ctx => Sys2Proof.Machine.execInvocationStop ctx s
  | .abort cmp value => Sys2Proof.Machine.execAbort cmp value s
  | .vectorStart cluster array dev => Sys2Proof.Machine.execVectorStart cluster array dev s
  | .vectorResult cluster array residueOk => Sys2Proof.Machine.execVectorResult cluster array residueOk s
  | .tileOpRelease cluster tile => Sys2Proof.Machine.execTileOpRelease cluster tile s
  | .clusterEntryRelease cluster held => Sys2Proof.Machine.execClusterEntryRelease cluster held s
  | .proofOpRetire cluster stall residueOk => Sys2Proof.Machine.execProofOpRetire cluster stall residueOk s
  | .drainRetire cluster stall => Sys2Proof.Machine.execDrainRetire cluster stall s
  | .accOpRetire cluster => Sys2Proof.Machine.execAccOpRetire cluster s
  | .moveRetire cluster => Sys2Proof.Machine.execMoveRetire cluster s
  | .engineOpRetire engine stall => Sys2Proof.Machine.execEngineOpRetire engine stall s
  | .refreadDone cluster array s0 s1 => Sys2Proof.Machine.execRefreadDone cluster array s0 s1 s
  | .chkptRecord ctx stream => Sys2Proof.Machine.execChkptRecord ctx stream s
  | .digestDone => Sys2Proof.Machine.execDigestDone s
  | .testvecDone cluster => Sys2Proof.Machine.execTestvecDone cluster s
  | .cmprDone cluster => Sys2Proof.Machine.execCmprDone cluster s
  | .xsendAccepted => Sys2Proof.Machine.execXsendAccepted s
  | .xrecvMessage cluster => Sys2Proof.Machine.execXrecvMessage cluster s
  | .fronthaulFrame port frame fcs room => Sys2Proof.Machine.execFronthaulFrame port frame fcs room s
  | .pauseTransmit port occupancy => Sys2Proof.Machine.execPauseTransmit port occupancy s
  | .pauseRepeat port => Sys2Proof.Machine.execPauseRepeat port s
  | .fhLinkChange port up => Sys2Proof.Machine.execFhLinkChange port up s
  | .s0BufferAssign carrier => Sys2Proof.Machine.execS0BufferAssign carrier s
  | .egressWrite carrier => Sys2Proof.Machine.execEgressWrite carrier s
  | .slotCompletion carrier => Sys2Proof.Machine.execSlotCompletion carrier s
  | .driftClockRead cluster array s0 s1 tw1 tw2 => Sys2Proof.Machine.execDriftClockRead cluster array s0 s1 tw1 tw2 s
  | .referenceStep ctx => Sys2Proof.Machine.execReferenceStep ctx s
  | .statWindowClose ctx => Sys2Proof.Machine.execStatWindowClose ctx s
  | .statFit ctx => Sys2Proof.Machine.execStatFit ctx s
  | .converterSelfCal cluster array trims tw1 tw2 => Sys2Proof.Machine.execConverterSelfCal cluster array trims tw1 tw2 s
  | .twinCheck cluster array tw1 tw2 => Sys2Proof.Machine.execTwinCheck cluster array tw1 tw2 s
  | .refreshStart cluster => Sys2Proof.Machine.execRefreshStart cluster s
  | .arrayProgrammed cluster array badRows badPairs s0 s1 tw1 tw2 => Sys2Proof.Machine.execArrayProgrammed cluster array badRows badPairs s0 s1 tw1 tw2 s
  | .domainRepowerRestore ctx => Sys2Proof.Machine.execDomainRepowerRestore ctx s
  | .arrayTest cluster array dev => Sys2Proof.Machine.execArrayTest cluster array dev s
  | .clusterTest cluster pass => Sys2Proof.Machine.execClusterTest cluster pass s
  | .clusterTestPreempt cluster pass => Sys2Proof.Machine.execClusterTestPreempt cluster pass s
  | .digestRound ctx => Sys2Proof.Machine.execDigestRound ctx s
  | .verifiedReadback cluster array s0 s1 dev => Sys2Proof.Machine.execVerifiedReadback cluster array s0 s1 dev s
  | .faultEvent rep0 rep1 => Sys2Proof.Machine.execFaultEvent rep0 rep1 s
  | .unitReturn unit weightsOk secondOk calOk => Sys2Proof.Machine.execUnitReturn unit weightsOk secondOk calOk s
  | .cmpReplaceStart => Sys2Proof.Machine.execCmpReplaceStart s
  | .cmpCopyDone => Sys2Proof.Machine.execCmpCopyDone s
  | .cmpReload => Sys2Proof.Machine.execCmpReload s
  | .cmpReloadDone pass => Sys2Proof.Machine.execCmpReloadDone pass s
  | .cmpCarryEnd => Sys2Proof.Machine.execCmpCarryEnd s
  | .marchTestDone memory unit bad => Sys2Proof.Machine.execMarchTestDone memory unit bad s
  | .lpxTrainingDone channel density => Sys2Proof.Machine.execLpxTrainingDone channel density s
  | .lpxPatrolScrub channel outcome => Sys2Proof.Machine.execLpxPatrolScrub channel outcome s
  | .lpxMr4Poll channel rate => Sys2Proof.Machine.execLpxMr4Poll channel rate s
  | .colophonStepStart => Sys2Proof.Machine.execColophonStepStart s
  | .colophonStepEnd => Sys2Proof.Machine.execColophonStepEnd s
  | .colophonWriteTimeout => Sys2Proof.Machine.execColophonWriteTimeout s
  | .powerOnHour => Sys2Proof.Machine.execPowerOnHour s
  | .holdupMeasureDone micros reached => Sys2Proof.Machine.execHoldupMeasureDone micros reached s
  | .holdupReady mv => Sys2Proof.Machine.execHoldupReady mv s
  | .holdupDroop mv => Sys2Proof.Machine.execHoldupDroop mv s
  | .eusableUpdate mv => Sys2Proof.Machine.execEusableUpdate mv s
  | .vddAonFall written => Sys2Proof.Machine.execVddAonFall written s
  | .railDroop => Sys2Proof.Machine.execRailDroop s
  | .perstNAssert => Sys2Proof.Machine.execPerstNAssert s
  | .perstNRelease role => Sys2Proof.Machine.execPerstNRelease role s
  | .bootStageComplete => Sys2Proof.Machine.execBootStageComplete s
  | .hotReset => Sys2Proof.Machine.execHotReset s
  | .aspmL1Entry => Sys2Proof.Machine.execAspmL1Entry s
  | .d3hotEntry => Sys2Proof.Machine.execD3hotEntry s
  | .diodeReading r => Sys2Proof.Machine.execDiodeReading r s
  | .graceExpiry => Sys2Proof.Machine.execGraceExpiry s
  | .sensorFaultTimeout => Sys2Proof.Machine.execSensorFaultTimeout s
  | .thermalTrip => Sys2Proof.Machine.execThermalTrip s
  | .thermalRestart => Sys2Proof.Machine.execThermalRestart s
  | .hkcEntryStart => Sys2Proof.Machine.execHkcEntryStart s
  | .hkcOutput conv raw past => Sys2Proof.Machine.execHkcOutput conv raw past s
  | .hkcWrap => Sys2Proof.Machine.execHkcWrap s
  | .hkcTwinCheck a b => Sys2Proof.Machine.execHkcTwinCheck a b s
  | .hkcSelfCal factors => Sys2Proof.Machine.execHkcSelfCal factors s
  | .hkcUrgentResult raw past => Sys2Proof.Machine.execHkcUrgentResult raw past s
  | .qfreqRelock quadrant => Sys2Proof.Machine.execQfreqRelock quadrant s
  | .domainOffDone domain => Sys2Proof.Machine.execDomainOffDone domain s
  | .domainOnDone domain => Sys2Proof.Machine.execDomainOnDone domain s
  | .crossingClose src peer lost dropped => Sys2Proof.Machine.execCrossingClose src peer lost dropped s
  | .crossingReopen src peer => Sys2Proof.Machine.execCrossingReopen src peer s
  | .daisyLinkUp port peer => Sys2Proof.Machine.execDaisyLinkUp port peer s
  | .enumReceived port pos => Sys2Proof.Machine.execEnumReceived port pos s
  | .endReceived pos => Sys2Proof.Machine.execEndReceived pos s
  | .positionLoss => Sys2Proof.Machine.execPositionLoss s
  | .daisyNak port => Sys2Proof.Machine.execDaisyNak port s
  | .laneFail port lane => Sys2Proof.Machine.execLaneFail port lane s
  | .daisyLinkReset port healthy => Sys2Proof.Machine.execDaisyLinkReset port healthy s
  | .collMessageReceived msg => Sys2Proof.Machine.execCollMessageReceived msg s
  | .remoteRegAccess write offset size value => Sys2Proof.Machine.execRemoteRegAccess write offset size value s
  | .tunnelRequest position req => Sys2Proof.Machine.execTunnelRequest position req s
  | .tunnelTimeout e => Sys2Proof.Machine.execTunnelTimeout e s
  | .pushBlock hdr data => Sys2Proof.Machine.execPushBlock hdr data s
  | .pushDone => Sys2Proof.Machine.execPushDone s
  | .pushFail code position => Sys2Proof.Machine.execPushFail code position s
  | .censusStart => Sys2Proof.Machine.execCensusStart s
  | .censusToken entries => Sys2Proof.Machine.execCensusToken entries s
  | .censusFinish entries inTime => Sys2Proof.Machine.execCensusFinish entries inTime s
  | .configDigestPublish => Sys2Proof.Machine.execConfigDigestPublish s
  | .lowWordRead offset => Sys2Proof.Machine.execLowWordRead offset s
  | .lowWordWrite offset value => Sys2Proof.Machine.execLowWordWrite offset value s
  | .highWordWrite offset value => Sys2Proof.Machine.execHighWordWrite offset value s
  | .bar0OddAccess write offset size => Sys2Proof.Machine.execBar0OddAccess write offset size s
  | .bar0Unmapped write offset => Sys2Proof.Machine.execBar0Unmapped write offset s
  | .bar2Access a => Sys2Proof.Machine.execBar2Access a s
  | .rotateAliasAccess a => Sys2Proof.Machine.execRotateAliasAccess a s
  | .setAliasWrite a => Sys2Proof.Machine.execSetAliasWrite a s
  | .clearAliasWrite a => Sys2Proof.Machine.execClearAliasWrite a s
  | .apertureAccess a => Sys2Proof.Machine.execApertureAccess a s
  | .remoteWindowAccess write offset size value => Sys2Proof.Machine.execRemoteWindowAccess write offset size value s
  | .registerWrite offset value => Sys2Proof.Machine.execRegisterWrite offset value s
  | .sqDoorbell queue value => Sys2Proof.Machine.execSqDoorbell queue value s
  | .cqHeadWrite queue value => Sys2Proof.Machine.execCqHeadWrite queue value s
  | .queueEnable queue value => Sys2Proof.Machine.execQueueEnable queue value s
  | .statctrlWrite value => Sys2Proof.Machine.execStatctrlWrite value s
  | .arrCntclr cluster value => Sys2Proof.Machine.execArrCntclr cluster value s
  | .fhpCntclr port value => Sys2Proof.Machine.execFhpCntclr port value s
  | .rbselGo cluster value => Sys2Proof.Machine.execRbselGo cluster value s
  | .readbackArrive cluster => Sys2Proof.Machine.execReadbackArrive cluster s
  | .rbdataRead cluster size => Sys2Proof.Machine.execRbdataRead cluster size s
  | .maintWrite cluster value => Sys2Proof.Machine.execMaintWrite cluster value s
  | .slack value => Sys2Proof.Machine.execSlack value s
  | .periodWrite value => Sys2Proof.Machine.execPeriodWrite value s
  | .passwordChange value => Sys2Proof.Machine.execPasswordChange value s
  | .remeasure value => Sys2Proof.Machine.execRemeasure value s
  | .scalgo value => Sys2Proof.Machine.execScalgo value s
  | .statcap value => Sys2Proof.Machine.execStatcap value s
  | .statactClear value => Sys2Proof.Machine.execStatactClear value s
  | .hkcStagedWrite offset value => Sys2Proof.Machine.execHkcStagedWrite offset value s
  | .hkcCtrlRun value => Sys2Proof.Machine.execHkcCtrlRun value s
  | .hkcDataRead entry size => Sys2Proof.Machine.execHkcDataRead entry size s
  | .peakclr value => Sys2Proof.Machine.execPeakclr value s
  | .tripWrite value => Sys2Proof.Machine.execTripWrite value s
  | .qfreqWrite value => Sys2Proof.Machine.execQfreqWrite value s
  | .powerRequestWrite offset value => Sys2Proof.Machine.execPowerRequestWrite offset value s
  | .fhpCfgWrite port value => Sys2Proof.Machine.execFhpCfgWrite port value s
  | .galMapWrite offset value => Sys2Proof.Machine.execGalMapWrite offset value s
  | .dsyCfgWrite port value => Sys2Proof.Machine.execDsyCfgWrite port value s
  | .pushGo value => Sys2Proof.Machine.execPushGo value s
  | .align value => Sys2Proof.Machine.execAlign value s
  | .rbcommit value => Sys2Proof.Machine.execRbcommit value s
  | .lockWrite value => Sys2Proof.Machine.execLockWrite value s
  | .lockbootWrite value => Sys2Proof.Machine.execLockbootWrite value s
  | .tapInstruction code => Sys2Proof.Machine.execTapInstruction code s
  | .arrayProbe value => Sys2Proof.Machine.execArrayProbe value s
  | .mbistAccess value => Sys2Proof.Machine.execMbistAccess value s
  | .scanLockStatus => Sys2Proof.Machine.execScanLockStatus s
  | .powerUp => Sys2Proof.Machine.execPowerUp s
  | .railRecovery role => Sys2Proof.Machine.execRailRecovery role s
  | .pcieLinkUp => Sys2Proof.Machine.execPcieLinkUp s
  | .attestReportDone => Sys2Proof.Machine.execAttestReportDone s
  | .fwStageDone readBackOk dirOk => Sys2Proof.Machine.execFwStageDone readBackOk dirOk s

end Sys2Proof.Machine
end

