-- ==== Sys2Proof/Safety.lean ====
section
/-!
DEFINITION. Sys2Proof/Safety.lean: the words the claims are written in: the states every run can reach, a command that runs and
what then holds, and what it leaves unchanged.
-/
namespace Sys2Proof.Machine

/-- The states that the claims are about: the register file, the galley and scratchpads, the LPDDR5X and the boot flash list
addresses in rising order and nothing that reads as an unlisted address does; the boot stage is 1 to 10 (R514), the thermal
state and the holdup state 0 to 3 (R456, R481), and the event ring holds at most 64 events (R399). -/
structure State.Legal (s : State) : Prop where
  regs   : FMap.wf wordReset s.regs = true
  mem    : Memory.wf s.mem = true
  lpmem  : Memory.wf s.lpmem = true
  flash  : FMap.wf (fun _ => 0xFF#8) s.sec.flash = true
  stage  : 1 ≤ s.sec.stage ∧ s.sec.stage ≤ 10
  therm  : s.thm.st ≤ 3
  holdup : s.hld.st ≤ 3
  events : s.events.length ≤ 64

/-- The command runs, and `P` holds of the state it leaves. -/
def Gives (c : Instr) (s : State) (P : State → Prop) : Prop := ∃ t, exec c s = .next t ∧ P t

/-- Every byte of the galley, the scratchpads and the LPDDR5X reads as before. -/
def SameMemory (s t : State) : Prop := (∀ a, t.memByte a = s.memByte a) ∧ ∀ a, t.lpByte a = s.lpByte a

/-- Every register word outside `changed` reads as before. -/
def SameRegs (s t : State) (changed : Nat → Prop) : Prop := ∀ off, ¬ changed off → t.rd off = s.rd off

/-- Stream `i` of the context's invocation goes on as `st'`, one instruction issued on the page of `st` (R213, R228); every
other stream, every other context, every other register word and all memory stay. -/
structure Issues (s t : State) (ctx i : Nat) (st st' : StreamSt) : Prop where
  stream  : t.stream ctx i = st'
  count   : t.reg64 .cmp st.page 0x60 = satNat 64 (s.reg64 .cmp st.page 0x60 + 1)
  streams : ∀ j, j ≠ i → t.stream ctx j = s.stream ctx j
  ctxs    : ∀ c, c ≠ ctx → t.ctx c = s.ctx c
  regs    : SameRegs s t (fun off => off = rOff .cmp st.page 0x60 ∨ off = rOff .cmp st.page 0x64)
  mem     : SameMemory s t

/-- The instruction `w` of stream `i` is handed over (R213): its operation stands among the operations, accepted, with the
stream one instruction on, or waiting at a full queue, with the stream held by it. -/
def HandedOver (ctx i : Nat) (st : StreamSt) (w : Nat) (t : State) : Prop :=
  ∃ o ∈ t.ops, o.word = w ∧ o.ctx = ctx ∧ o.stream = i ∧
    ((o.stage = 1 ∧ t.stream ctx i = { st with idx := st.idx + 1 }) ∨ (o.stage = 0 ∧ t.stream ctx i = { st with held := some o.id }))

/-- The invocation stops with code `c`, detected on stream `i` at its present instruction (R223), unless it had stopped before. -/
def StopsWith (ctx i : Nat) (c : Code) (s t : State) : Prop :=
  ∀ v, (s.ctx ctx).inv = some v →
    (t.ctx ctx).inv = some (if v.stop.isSome then v else { v with stop := some (c, i, (s.stream ctx i).idx) })

/-- The operation is under way no longer. -/
def Left (o : Op) (t : State) : Prop := ∀ x ∈ t.ops, x.id ≠ o.id

/-- The operation's invocation stops with code `c`, detected on its stream (R223), unless it had stopped before. -/
def StopsOp (o : Op) (c : Code) (s t : State) : Prop :=
  Left o t ∧ ∀ v, (s.ctx o.ctx).inv = some v → ∃ v', (t.ctx o.ctx).inv = some v' ∧
    v'.stop = if v.stop.isSome then v.stop else some (c, o.stream, (s.stream o.ctx o.stream).idx)

/-- A queue's command may begin now (R57, R511): it is next to start, and the boot has restored what it needs. -/
def Begins (s : State) (e : Entry) (op : Nat) : Prop := s.canStart e op = true ∧ s.accepted e = true

end Sys2Proof.Machine
end

