-- ==== Sys2Proof/Certificates/Slice0/Obligations.lean ====
section
/-!
DEFINITION. Sys2Proof/Certificates/Slice0/Obligations.lean: the statements for the provers. Each one's comment names the rules of
spec/ that it rests on, and the model's own choices by their log entry.
-/
open Sys2Proof Sys2Proof.Machine

/-- R239 to R243, R213: NOP, LOOP, ENDLOOP, BRC and HALT issue: what becomes of their stream; nothing else changes but ISSUECNT.
-/
def Obligations.ControlInstructionsIssue : Prop :=
  ∀ (s : State) (ctx i : Nat) (v : Inv) (st : StreamSt) (w : Nat),
    (s.issuable ctx i 0x00 = some (v, st, w) →
      Gives (.nop ctx i) s (fun t => Issues s t ctx i st { st with idx := st.idx + 1 })) ∧
    (s.issuable ctx i 0x01 = some (v, st, w) →
      Gives (.loop ctx i) s (fun t =>
        let n := if wX4 w then st.rc (bits w 107 104) else bits w 31 0
        Issues s t ctx i st (if n ≥ 1 then { st with loops := (n, st.idx + 1) :: st.loops, idx := st.idx + 1 }
          else { st with idx := afterLoop (nth [] (s.ctx ctx).prog i) st.idx }))) ∧
    (∀ n b r, s.issuable ctx i 0x02 = some (v, st, w) → st.loops = (n, b) :: r →
      Gives (.endloop ctx i) s (fun t =>
        Issues s t ctx i st (if n > 1 then { st with loops := (n - 1, b) :: r, idx := b } else { st with loops := r, idx := st.idx + 1 }))) ∧
    (s.issuable ctx i 0x03 = some (v, st, w) →
      Gives (.brc ctx i) s (fun t =>
        let n := bits w 107 104
        let st' := if wX4 w then st.setC n (st.rc n - 1) else st
        Issues s t ctx i st
          (if brcTaken (bits w 111 109) (st'.rc n) (bits w 31 0) then
            (if sameLevel (nth [] (s.ctx ctx).prog i) (bits w 76 64) st.idx then { st' with idx := bits w 76 64 }
              else { st' with loops := st'.loops.drop 1, idx := bits w 76 64 })
          else { st' with idx := st.idx + 1 }))) ∧
    (s.issuable ctx i 0x06 = some (v, st, w) →
      Gives (.halt ctx i) s (fun t => Issues s t ctx i st { st with ended := true, loops := [] }))

/-- R244, R208: SETA and ADDA write one register of their stream: an address wraps at 64 bits, a counter saturates. -/
def Obligations.RegisterInstructionsIssue : Prop :=
  ∀ (s : State) (ctx i : Nat) (v : Inv) (st : StreamSt) (w : Nat),
    (s.issuable ctx i 0x07 = some (v, st, w) →
      Gives (.seta ctx i) s (fun t =>
        let d := bits w 111 108
        let n := bits w 107 104
        Issues s t ctx i st { (if wX4 w then st.setC d (if wX5 w then st.rc n else bits w 31 0)
          else st.setA d (if wX5 w then st.ra n else bits w 63 0)) with idx := st.idx + 1 })) ∧
    (s.issuable ctx i 0x08 = some (v, st, w) →
      Gives (.adda ctx i) s (fun t =>
        let d := bits w 111 108
        let imm := sext 64 (bits w 63 0)
        let x : Int := if wX5 w then (st.rc (bits w 107 104) : Int) * imm else imm
        Issues s t ctx i st { (if wX4 w then st.setC d (satC ((st.rc d : Int) + x)) else st.setA d (toBits 64 ((st.ra d : Int) + x)))
          with idx := st.idx + 1 }))

/-- R210, R211, R228, R245: SIG adds to its semaphore or stops with E_LIMIT above 65,535; WAIT holds its stream until WAIT_MET
finds the value, subtracts it where R210 says so, and counts the cycles; WAITLIM stops an invocation that waits too long. -/
def Obligations.SemaphoreInstructions : Prop :=
  ∀ (s : State) (ctx i : Nat) (v : Inv) (st : StreamSt) (w : Nat),
    (s.issuable ctx i 0x05 = some (v, st, w) → wRglob w = true → s.gs (wSem w) + bits w 15 0 ≤ 65535 →
      Gives (.sig ctx i) s (fun t => t.gs (wSem w) = s.gs (wSem w) + bits w 15 0 ∧ (∀ g, g ≠ wSem w → t.gs g = s.gs g) ∧
        Issues s t ctx i st { st with idx := st.idx + 1 })) ∧
    (s.issuable ctx i 0x05 = some (v, st, w) → wRglob w = false → FMap.get 0 st.sems (wSem w) + bits w 15 0 ≤ 65535 →
      Gives (.sig ctx i) s (fun t => FMap.get 0 (t.stream ctx i).sems (wSem w) = FMap.get 0 st.sems (wSem w) + bits w 15 0 ∧
        (t.stream ctx i).idx = st.idx + 1 ∧ ∀ g, t.gs g = s.gs g)) ∧
    (s.issuable ctx i 0x05 = some (v, st, w) →
      (if wRglob w then s.gs (wSem w) else FMap.get 0 st.sems (wSem w)) + bits w 15 0 > 65535 →
      Gives (.sig ctx i) s (fun t => StopsWith ctx i .limit s t ∧ ∀ g, t.gs g = s.gs g)) ∧
    (∀ x, s.issuable ctx i 0x04 = some (v, st, w) → waitOf v st w = .inr x →
      Gives (.wait ctx i) s (fun t => Issues s t ctx i st { st with waiting := some x })) ∧
    (∀ x cycles, (s.ctx ctx).inv = some v → i < v.streams.length → (s.stream ctx i).waiting = some x → v.stop = none → v.heldTest = false →
      s.semVal (s.stream ctx i) x ≥ x.v →
      Gives (.waitMet ctx i cycles) s (fun t =>
        (t.stream ctx i).waiting = none ∧ (t.stream ctx i).idx = (s.stream ctx i).idx + 1 ∧
        t.semVal (t.stream ctx i) x = s.semVal (s.stream ctx i) x - (if x.sub then x.v else 0) ∧
        SameMemory s t)) ∧
    ((s.ctx ctx).inv = some v → v.stop = none → (s.stream ctx i).waiting.isSome = true → s.reg .cmp (s.stream ctx i).page 0x48 ≠ 0 →
      Gives (.waitLimit ctx i) s (fun t => StopsWith ctx i .limit s t))

/-- R246 to R248, R213, R266: an MVM, MVMS or REFREAD that passes its checks is handed over, and one that fails a check stops
its invocation with that check's code. R251 to R255, R261, R213, R266: the accumulator and output instructions are handed over
or stop their invocation; issuing one stores nothing. -/
def Obligations.ArrayAndAccumulatorInstructionsIssue : Prop :=
  (∀ (s : State) (ctx i : Nat) (v : Inv) (st : StreamSt) (w : Nat),
      (s.issuable ctx i 0x10 = some (v, st, w) → Gives (.mvm ctx i) s (fun t => SameMemory s t ∧
        match s.mvmBad ctx v st w with | none => HandedOver ctx i st w t | some c => StopsWith ctx i c s t)) ∧
      (s.issuable ctx i 0x11 = some (v, st, w) → Gives (.mvms ctx i) s (fun t => SameMemory s t ∧
        match s.mvmBad ctx v st w with | none => HandedOver ctx i st w t | some c => StopsWith ctx i c s t)) ∧
      (s.issuable ctx i 0x12 = some (v, st, w) → Gives (.refread ctx i) s (fun t => SameMemory s t ∧
        match s.refreadBad ctx v st w with | none => HandedOver ctx i st w t | some c => StopsWith ctx i c s t))) ∧
  (∀ (s : State) (ctx i : Nat) (v : Inv) (st : StreamSt) (w : Nat) (c : Instr) (f : IssueForm),
      (∃ op, (c, op, f) ∈ [(Instr.drain ctx i, 0x30, s.drainForm ctx i st w), (Instr.argx ctx i, 0x31, s.argxForm ctx i st w),
          (Instr.asave ctx i, 0x32, s.asaveForm ctx i st w), (Instr.arestore ctx i, 0x33, s.arestoreForm ctx i st w),
          (Instr.azero ctx i, 0x34, s.azeroForm ctx i st w), (Instr.cmpr ctx i, 0x53, s.cmprForm ctx i st w)] ∧
        s.issuable ctx i op = some (v, st, w)) →
      Gives c s (fun t => SameMemory s t ∧ match s.formBad f with | none => HandedOver ctx i st w t | some k => StopsWith ctx i k s t))

/-- R249, R250, R256, R260, R262, R213, R266: the instructions of the proof engines, movers, fixed engines, test engines and the
collective unit, and DIGEST, are handed over or stop their invocation; issuing one stores nothing. -/
def Obligations.EngineInstructionsIssue : Prop :=
  ∀ (s : State) (ctx i : Nat) (v : Inv) (st : StreamSt) (w : Nat) (c : Instr) (f : IssueForm),
    (∃ op, (c, op, f) ∈ [(Instr.pmm ctx i, 0x20, s.pmmForm ctx i v st w), (Instr.pmmc ctx i, 0x21, s.pmmcForm ctx i st w),
        (Instr.pout ctx i, 0x22, s.poutForm ctx i st w), (Instr.move ctx i, 0x40, s.descForm ctx i st w [wClu w]),
        (Instr.gather ctx i, 0x41, s.descForm ctx i st w []), (Instr.pack ctx i, 0x42, s.descForm ctx i st w []),
        (Instr.rank ctx i, 0x43, s.descForm ctx i st w []), (Instr.digest ctx i, 0x51, s.digestForm ctx i st w),
        (Instr.testvec ctx i, 0x52, s.testvecForm ctx i st w), (Instr.xsend ctx i, 0x60, s.xsendForm ctx i st w),
        (Instr.xrecv ctx i, 0x61, s.xrecvForm ctx i st w)] ∧
      s.issuable ctx i op = some (v, st, w)) →
    Gives c s (fun t => SameMemory s t ∧ match s.formBad f with | none => HandedOver ctx i st w t | some k => StopsWith ctx i k s t)

/-- R258: a CHKPT is held at its compositor, whose stream issues nothing until CHKPT_RECORD finds every earlier operation of the
stream retired; then the 16-byte record stands at its address, and the stream goes on. -/
def Obligations.CheckpointHoldsThenRecords : Prop :=
  ∀ (s : State) (ctx i : Nat) (v : Inv) (st : StreamSt) (w : Nat),
    (s.issuable ctx i 0x50 = some (v, st, w) → Gives (.chkpt ctx i) s (fun t => SameMemory s t ∧
      match s.chkptBad (effA st w 64) with
      | none => HandedOver ctx i st w t ∧ ∃ id, (t.stream ctx i).held = some id
      | some c => StopsWith ctx i c s t)) ∧
    (∀ o, (s.ctx ctx).inv = some v → i < v.streams.length → v.stop = none → o ∈ s.ops → o.ctx = ctx → o.stream = i → o.opc = 0x50 →
      (∀ x ∈ s.ops, x.ctx = ctx → x.stream = i → x = o) → o.a1 < 2 ^ 63 →
      Gives (.chkptRecord ctx i) s (fun t =>
        (∀ a, t.memByte a = if o.a1 ≤ a ∧ a < o.a1 + 16 then nth 0#8 (chkptBytes v i (bits o.word 103 88)) (a - o.a1) else s.memByte a) ∧
        (∀ a, t.lpByte a = s.lpByte a) ∧ (t.stream ctx i).held = none ∧ (t.stream ctx i).idx = (s.stream ctx i).idx + 1 ∧
        ∀ x ∈ t.ops, x.id ≠ o.id))

/-- R79, R80, R86, R100, R105, R140: VECTOR_START applies the array's earliest waiting vector: its result joins the array's
results, VECCNT advances by 1, and nothing else of the array, no other array, no tile and no byte of memory changes. -/
def Obligations.VectorStarts : Prop :=
  ∀ (s : State) (c a : Nat) (dev : List Int) (o : Op) (k : Nat),
    let r := s.arr (akey c a)
    let n := nth 0 o.started k
    r.st = 3 ∨ r.st = 4 → s.cluOn c = true → s.relocking (c / 16) = false → r.res.length < 2 →
    (r.st = 3 → r.testDue = false ∧ r.cmpDue = false) → s.nextFor c a = some (o, k) → o.opc ≠ 0x12 → s.vecBad o r.layer n = none →
    Gives (.vectorStart c a dev) s (fun t =>
      let xs := rowInputs r.layer (s.vecBytes o r.layer n)
      let x := vecOut r xs dev s.free
      (t.arr (akey c a)).res = r.res ++
        [{ op := o.id, copy := k, pos := n, vals := x.vals, coarse := x.coarse, clip := x.clip, cks := x.cks }] ∧
      (t.arr (akey c a)).vec = satNat 64 (r.vec + 1) ∧ (t.arr (akey c a)).st = r.st ∧ (t.arr (akey c a)).weights = r.weights ∧
      (∀ j, j ≠ akey c a → t.arr j = s.arr j) ∧ (∀ j, t.tile j = s.tile j) ∧ SameMemory s t ∧
      (∀ x ∈ s.ops, x.id ≠ o.id → x ∈ t.ops) ∧ SameRegs s t (fun _ => False))

/-- R80, R91, R140, R396, R407: VECTOR_RESULT takes the array's oldest result. A result that fails its residue check stops its
invocation with E_PARITY and is written nowhere; one that may be delivered is written to its tiles, or joins its chain set. -/
def Obligations.VectorResults : Prop :=
  ∀ (s : State) (c a : Nat) (r : VecRes) (rest : List VecRes) (o : Op),
    (s.arr (akey c a)).res = r :: rest → s.getOp r.op = some o →
    Gives (.vectorResult c a false) s (fun t => (t.arr (akey c a)).res = rest ∧ StopsOp o .parity s t ∧ (∀ j, t.tile j = s.tile j) ∧ SameMemory s t) ∧
    (s.deliverable c o r = true → o.arrays.length < 2 →
      let u := (s.modArr (akey c a) (fun x => { x with res := rest })).checkValues c a o r
      Gives (.vectorResult c a true) s (fun t =>
        (t.arr (akey c a)).res = rest ∧ SameMemory s t ∧
        match u.deliver c (nth 0 o.arrays r.copy) o r with
        | some x => (∀ j, t.tile j = x.tile j) ∧ (o.done + 1 ≥ bits o.word 78 73 + 1 → Left o t)
        | none => (∀ j, t.tile j = s.tile j) ∧ StopsOp o .parity s t)) ∧
    (s.deliverable c o r = true → 2 ≤ o.arrays.length → o.hold.find? (fun h => h.pos == r.pos) = none →
      Gives (.vectorResult c a true) s (fun t => (t.arr (akey c a)).res = rest ∧ (∀ j, t.tile j = s.tile j) ∧ SameMemory s t))

/-- R98, R248: REFREAD_DONE leaves both sums in the array's REF0 and REF1, advances REFCNT, stores the sums' 16 bytes at DST
where STORE is set and no byte of memory otherwise, and the REFREAD leaves. R155, R156, R213: TILE_OP_RELEASE lets the earliest
waiting access to a tile go on once nothing earlier holds it; the first operation waiting at a cluster's entry is accepted once
there is room, and its stream goes on. -/
def Obligations.ReferenceReadsEndAndTilesRelease : Prop :=
  (∀ (s : State) (c a s0 s1 : Nat) (o : Op) (k : Nat),
      s.nextFor c a = some (o, k) → o.opc = 0x12 → (s.arr (akey c a)).st = 3 ∨ (s.arr (akey c a)).st = 4 →
      Gives (.refreadDone c a s0 s1) s (fun t =>
        t.arr (akey c a) = { s.arr (akey c a) with ref0 := s0, ref1 := s1, refcnt := satNat 32 ((s.arr (akey c a)).refcnt + 1) } ∧
        (∀ j, j ≠ akey c a → t.arr j = s.arr j) ∧ (∀ j, t.tile j = s.tile j) ∧ Left o t ∧
        SameMemory (if wX4 o.word then s.engWrite o.a1 (leBytes 8 s0 ++ leBytes 8 s1) else s) t)) ∧
  (∀ (s : State) (c : Nat) (o : Op),
      (∀ tile, s.ops.find? (fun x => x.acc.any (fun a => a.cl == c && a.tile == tile && a.wait)) = some o →
        Gives (.tileOpRelease c tile) s (fun t =>
          { o with acc := o.acc.map (fun a =>
            if a.cl == c && a.tile == tile && a.wait && !s.accWaits (s.ops.takeWhile (fun x => x.id != o.id)) a then { a with wait := false } else a) } ∈ t.ops ∧
          (∀ x, x.id ≠ o.id → (x ∈ t.ops ↔ x ∈ s.ops)) ∧ SameMemory s t ∧ SameRegs s t (fun _ => False))) ∧
      (∀ held v, s.ops.find? (fun x => x.stage == 0 && x.clusters.contains c) = some o → (s.ctx o.ctx).inv = some v → v.stop = none →
        o.stream < v.streams.length → (s.stream o.ctx o.stream).held = some o.id →
        s.accepts o (s.ops.takeWhile (fun x => x.id != o.id)) = true →
        Gives (.clusterEntryRelease c held) s (fun t =>
          (∃ x ∈ t.ops, x.id = o.id ∧ x.stage = 1 ∧ x.word = o.word) ∧
          t.stream o.ctx o.stream = { s.stream o.ctx o.stream with idx := (s.stream o.ctx o.stream).idx + 1, held := none } ∧ SameMemory s t)))

/-- R160 to R163, R215: a released DRAIN writes its N requantised values, packed, at DST and nowhere else, and retires; an entry
with wrong parity stops its invocation with nothing written. -/
def Obligations.DrainWritesItsValues : Prop :=
  ∀ (s : State) (c stall : Nat) (o : Op),
    s.ops.find? (fun o => o.clusters == [c] && (o.opc == 0x30 || o.opc == 0x31) && o.free) = some o → o.opc = 0x30 →
    let w := o.word
    let n := bits w 84 77 + 1
    let x := s.tile (tkey c (nth 0 o.tiles 0))
    let nb := opndBytes (bits w 70 69) n
    let fuse := decide (bits w 72 71 ≠ 0)
    (x.badPar n = none → (fuse = true → s.badIn o.a2 nb = none) →
      Gives (.drainRetire c stall) s (fun t =>
        let vals := drainVals x (s.profile c (bits w 76 73)).data (if fuse then s.engRead o.a2 nb else []) w o.rng
        SameMemory (s.engWrite o.a1 (leBytes (outBytes (bits w 68 66) n) (packBits (outBits (bits w 68 66)) (vals.map (fun v => v.1))))) t ∧
        Left o t ∧ ∀ j, (t.tile j).ent = (s.tile j).ent)) ∧
    (∀ e, x.badPar n = some e →
      Gives (.drainRetire c stall) s (fun t => StopsOp o .parity s t ∧ SameMemory s t ∧ ∀ j, t.tile j = s.tile j))

/-- R164, R215: a released ARGX writes the 8-byte record of its winner, merged with the record at DST where MERGE is set, and
retires. -/
def Obligations.ArgxWritesItsWinner : Prop :=
  ∀ (s : State) (c stall : Nat) (o : Op),
    s.ops.find? (fun o => o.clusters == [c] && (o.opc == 0x30 || o.opc == 0x31) && o.free) = some o → o.opc ≠ 0x30 →
    let w := o.word
    let n := bits w 84 77 + 1
    let x := s.tile (tkey c (nth 0 o.tiles 0))
    x.badPar n = none → (wX5 w = true → s.badIn o.a1 8 = none) →
    Gives (.drainRetire c stall) s (fun t =>
      let p := (s.profile c (bits w 76 73)).data
      let best := bestOf (wX4 w) ((List.range n).map (fun i => (stages p 0 (x.read i).1 (ofInt 0), i)))
      let own := (best.1, (bits w 72 57 + best.2) % 65536)
      let old := (decode32 (fieldLe (s.engRead o.a1 8) 0 4), fieldLe (s.engRead o.a1 8) 4 2)
      let win := if wX5 w && beats (wX4 w) old own then old else own
      SameMemory (s.engWrite o.a1 (leBytes 4 (encode32 win.1) ++ leBytes 2 win.2 ++ leBytes 1 (b2n win.1.isNan + 2 * b2n (wX5 w)) ++ leBytes 1 0)) t ∧
      Left o t ∧ ∀ j, (t.tile j).ent = (s.tile j).ent)

/-- R165 to R167, R215: AZERO clears its tiles, ASAVE writes their image at DST and changes no tile, and ARESTORE of an image
that passes R166's checks writes each of its tiles as the image holds it; an image that fails stops the invocation, and no tile
changes. -/
def Obligations.TileOperationsRetire : Prop :=
  ∀ (s : State) (c : Nat) (o : Op),
    s.ops.find? (fun o => o.clusters == [c] && (o.opc == 0x32 || o.opc == 0x33 || o.opc == 0x34) && o.free) = some o →
    (o.opc = 0x34 → Gives (.accOpRetire c) s (fun t => Left o t ∧ SameMemory s t ∧
      (∀ k ∈ o.tiles, t.tile (tkey c k) = { s.tile (tkey c k) with ent := [], coarse := false, clip := false, sat := false }) ∧
      ∀ j, (∀ k ∈ o.tiles, j ≠ tkey c k) → t.tile j = s.tile j)) ∧
    (o.opc = 0x32 → o.tiles.findSome? (fun t => ((s.tile (tkey c t)).badPar 256).map (fun e => (t, e))) = none →
      Gives (.accOpRetire c) s (fun t => Left o t ∧ SameMemory (s.engWrite o.a1 (s.saveImage c o)) t ∧ ∀ j, t.tile j = s.tile j)) ∧
    (o.opc = 0x33 → s.badIn o.a1 (68 + 1296 * o.tiles.length) = none →
      let im := s.engRead o.a1 (68 + 1296 * o.tiles.length)
      Gives (.accOpRetire c) s (fun t => SameMemory s t ∧
        match s.restoreBad o.ctx o.tiles.length im with
        | some e => StopsOp o e s t ∧ ∀ j, t.tile j = s.tile j
        | none => Left o t ∧ (o.tiles.Nodup → ∀ k x, nth 0 o.tiles k = x → k < o.tiles.length →
            t.tile (tkey c x) = tileFrom (s.tile (tkey c x)) (sliceB im (64 + 1296 * k) 1296)) ∧
            ∀ j, (∀ k ∈ o.tiles, j ≠ tkey c k) → t.tile j = s.tile j))

/-- R261, R215: CMPR compares the N entries of its two tiles; it stores the 8-byte summary where STORE is set, and with a
mismatch and STOP set it stops its invocation with E_DIGEST; otherwise it retires. -/
def Obligations.CompareDecides : Prop :=
  ∀ (s : State) (c : Nat) (o : Op),
    s.ops.find? (fun o => o.clusters.headD 64 == c && o.opc == 0x53 && o.free) = some o →
    let w := o.word
    let n := bits w 65 58 + 1
    let x := s.tile (tkey c (nth 0 o.tiles 0))
    let y := s.tile (tkey (bits w 84 79) (nth 0 o.tiles 1))
    x.badPar n = none → y.badPar n = none →
    Gives (.cmprDone c) s (fun t =>
      let r := (List.range n).map (fun i => cmprEntry x.fp (bits w 57 42) (x.e i) (y.e i))
      let bad := (r.filter (fun e => e.2)).length
      let first := (findIdx (fun e => e.2) r 0).getD 0xFFFF
      SameMemory (if wX4 w then s.engWrite o.a1 (leBytes 2 bad ++ leBytes 2 first ++ leBytes 4 (r.foldl (fun m e => max m e.1) 0)) else s) t ∧
      (∀ j, (t.tile j).ent = (s.tile j).ent) ∧ Left o t ∧ (bad ≠ 0 → wX5 w = true → StopsOp o .digest s t))

/-- R176, R177, R181, R182 to R187, R215, R396: the cluster's earliest proof-engine operation, once no tile holds it, ends. One
that fails its residue check stops its invocation and writes nothing. A PMM or PMMC whose inputs read well writes its tiles and
no byte of memory, a POUT its clipped vectors and its tiles, and a spilled MVM its tiles or its chain set; then it retires. -/
def Obligations.ProofEngineRetires : Prop :=
  ∀ (s : State) (c stall : Nat) (o : Op),
    s.ops.find? (fun o => o.clusters == [c] && o.isProof && decide (o.stage ≥ 1)) = some o → o.free = true →
    let u := (s.bump .prf c 0x6C stall).stallAt o.a1 stall
    let writes := fun (vals : List (List (Option FVal))) (t : State) =>
      match (u.proofTiles c o 0 vals).2 with
      | none => Left o t ∧ ∀ j, t.tile j = (u.proofTiles c o 0 vals).1.tile j
      | some _ => StopsOp o .parity s t
    (o.spilled = false → Gives (.proofOpRetire c stall false) s (fun t => StopsOp o .parity s t ∧ SameMemory s t ∧ ∀ j, t.tile j = s.tile j)) ∧
    (o.spilled = false → o.opc = 0x20 → u.pmmBadRow o = none → u.pmmBadIn o = none →
      Gives (.proofOpRetire c stall true) s (fun t => SameMemory s t ∧ writes (u.pmmVals o) t)) ∧
    (o.spilled = false → o.opc = 0x21 → u.pmmcBadIn o = none →
      Gives (.proofOpRetire c stall true) s (fun t => SameMemory s t ∧ writes (u.pmmcVals o) t)) ∧
    (o.spilled = false → o.opc = 0x22 →
      let d := u.poutDesc o
      let p := u.poutWork o (u.poutShift c o) d
      u.poutBad c o (u.poutShift c o) d = none → u.badIn o.a1 (64 + 2 * min 512 (fieldLe d 2 2)) = none → u.blockedAny p.ext = none →
      p.bad = none →
      Gives (.proofOpRetire c stall true) s (fun t => SameMemory (p.writes.foldl (fun s q => s.engWrite q.1 q.2) u) t ∧ writes p.vals t)) ∧
    (∀ e, o.spilled = false → o.opc = 0x22 → u.poutBad c o (u.poutShift c o) (u.poutDesc o) = some e →
      Gives (.proofOpRetire c stall true) s (fun t => StopsOp o e s t ∧ SameMemory s t ∧ ∀ j, t.tile j = s.tile j)) ∧
    (o.spilled = true → o.chainIx = none →
      let a := u.spillWork o
      u.blockedAny [(a.base, a.n), (o.a1, (a.nv * a.G - 1) * a.str + a.rows)] = none → u.badIn a.base a.n = none → u.spillBadIn o a = none →
      Gives (.proofOpRetire c stall true) s (fun t => SameMemory s t ∧ writes a.vals t))

/-- R196, R198, R215: the mover's earliest MOVE copies its rows, or fills them with zero bytes, writes nothing else and retires;
one whose descriptor fails a check stops its invocation and writes nothing. -/
def Obligations.MoveCopiesItsRows : Prop :=
  ∀ (s : State) (c : Nat) (o : Op),
    s.ops.find? (fun o => o.clusters == [c] && o.opc == 0x40 && decide (o.stage ≥ 1)) = some o →
    let d := s.engRead o.a1 64
    let zero := bit (fieldLe d 32 1) 0
    let len := fieldLe d 16 4
    let rows := fieldLe d 20 4
    let src := descAddr d 0 o.a2
    let dst := descAddr d 8 o.a3
    (∀ e, s.moveBad o d = some e → Gives (.moveRetire c) s (fun t => StopsOp o e s t ∧ SameMemory s t)) ∧
    (s.moveBad o d = none → s.badIn o.a1 64 = none →
      s.blockedAny ((dst, (rows - 1) * fieldLe d 28 4 + len) :: (if zero then [] else [(src, (rows - 1) * fieldLe d 24 4 + len)])) = none →
      (zero = false → (List.range rows).findSome? (fun r => s.badIn (src + r * fieldLe d 24 4) len) = none) →
      Gives (.moveRetire c) s (fun t => Left o t ∧ (∀ j, t.tile j = s.tile j) ∧
        SameMemory ((List.range rows).foldl (fun u r =>
          u.engWrite (dst + r * fieldLe d 28 4) (if zero then List.replicate len 0#8 else s.engRead (src + r * fieldLe d 24 4) len)) s) t))

/-- R189 to R195, R198, R203, R215: the engine's earliest GATHER, PACK or RANK, once its descriptor passes its checks, stores
what it computes at its destinations and nowhere else, and retires; one that fails a check stops its invocation and stores
nothing. -/
def Obligations.FixedEnginesRetire : Prop :=
  ∀ (s : State) (e stall : Nat) (o : Op),
    s.ops.find? (fun o => o.engine == some e && decide (o.stage ≥ 1)) = some o →
    let u := (s.bump .eng e 0x60 stall).bump .gal 0 0x70 stall
    let d := u.engRead o.a1 64
    (∀ c, u.engineBad e o d = some c → Gives (.engineOpRetire e stall) s (fun t => StopsOp o c s t ∧ SameMemory s t)) ∧
    (u.engineBad e o d = none → u.badIn o.a1 64 = none → u.blockedAny (engineExt e o d) = none →
      (e = 0 → u.gatherBadIn o d = none →
        Gives (.engineOpRetire e stall) s (fun t => Left o t ∧ SameMemory ((u.gatherWrites o d).foldl (fun s p => s.engWrite p.1 p.2) u) t)) ∧
      (e = 1 → u.badIn (descAddr d 0 o.a2) (fieldLe d 16 4 * (fieldLe d 22 1 + 1)) = none →
        Gives (.engineOpRetire e stall) s (fun t => Left o t ∧ SameMemory (u.engWrite (descAddr d 8 o.a3) (u.packBytes o d)) t)) ∧
      (e = 2 → u.rankBadIn o d = none →
        Gives (.engineOpRetire e stall) s (fun t => Left o t ∧ SameMemory (u.engWrite (descAddr d 8 o.a3) (u.rankRecords o d)) t)))

/-- R259, R260, R215: the block's earliest DIGEST leaves the SHA-384 of its extent at DST; one whose comparison fails stops its
invocation with E_DIGEST. A TESTVEC leaves its N bytes at DST. Both store nothing else. R263, R264, R383 to R385, R215: an
XSEND's message joins the upstream port's queue with its values, flags and CRC-64; an XRECV takes the oldest message that it
waits for, and writes it to its tile, or stops its invocation with the code of the check that fails. -/
def Obligations.DigestsTestVectorsAndCollectivesEnd : Prop :=
  (∀ (s : State) (o : Op),
      (s.ops.find? (fun o => o.opc == 0x51 && decide (o.stage ≥ 1)) = some o →
        let n := 64 * (bits o.word 103 86 + 1)
        let h := sha384 (s.engRead o.a1 n)
        (s.badIn o.a1 n = none → wX4 o.word = false → Gives .digestDone s (fun t => Left o t ∧ SameMemory (s.engWrite o.a2 h) t)) ∧
        (s.badIn o.a1 n = none → wX4 o.word = true → (s.engWrite o.a2 h).badIn o.a3 48 = none →
          Gives .digestDone s (fun t => SameMemory (s.engWrite o.a2 h) t ∧ Left o t ∧
            ((s.engWrite o.a2 h).engRead o.a3 48 ≠ h → StopsOp o .digest s t))) ∧
        (∀ b, s.badIn o.a1 n = some b → Gives .digestDone s (fun t => SameMemory s t ∧ StopsOp o .parity s t))) ∧
      (∀ c, s.ops.find? (fun o => o.clusters == [c] && o.opc == 0x52 && decide (o.stage ≥ 1)) = some o →
        Gives (.testvecDone c) s (fun t => Left o t ∧ SameMemory (s.engWrite o.a1 (testvecBytes
          (testvecSeed (s.ctx o.ctx).seed (s.invNum o.ctx) (bits o.word 83 68)) (bits o.word 97 86 + 1) (bits o.word 85 84) (wX4 o.word))) t))) ∧
  (∀ (s : State) (o : Op),
      (s.ops.find? (fun o => o.opc == 0x60 && o.free) = some o → s.dsyUp 0 = true →
        let w := o.word
        let n := bits w 84 77 + 1
        let x := s.tile (tkey (o.clusters.headD 0) (nth 0 o.tiles 0))
        (x.badPar n = none → Gives .xsendAccepted s (fun t =>
          let b := collBody (bits w 76 69) s.chain.pos (b2n x.coarse + 2 * b2n x.clip + 4 * b2n x.sat) n s.cfg.epoch ((List.range n).map (fun i => bits (x.e i) 31 0))
          t.chain = { s.chain with xtx := s.chain.xtx ++ [b ++ leBytes 8 (crc64 b)] } ∧ Left o t ∧ SameMemory s t ∧ ∀ j, t.tile j = s.tile j)) ∧
        (∀ e, x.badPar n = some e → Gives .xsendAccepted s (fun t => StopsOp o .parity s t ∧ t.chain = s.chain ∧ ∀ j, t.tile j = s.tile j))) ∧
      (∀ c m rest,
        let want := fun (o : Op) (m : List Byte) => fieldLe m 0 1 == bits o.word 76 69 && fieldLe m 1 1 == bits o.word 68 65
        s.ops.find? (fun o => o.clusters == [c] && o.opc == 0x61 && o.free && s.chain.xrx.any (want o)) = some o →
        takeFirst (want o) s.chain.xrx = some (m, rest) →
        let n := bits o.word 84 77 + 1
        let k := tkey c (nth 0 o.tiles 0)
        Gives (.xrecvMessage c) s (fun t => t.chain = { s.chain with xrx := rest } ∧ Left o t ∧ SameMemory s t ∧ (∀ j, j ≠ k → t.tile j = s.tile j) ∧
          match s.collBad n m with
          | some e => StopsOp o e s t ∧ t.tile k = s.tile k
          | none => (wAdd o.word = false ∨ (s.tile k).badPar 256 = none) →
            (t.tile k).ent = (tileWrite (s.tile k) (wAdd o.word) ((List.range n).map (fun i => some (decode32 (fieldLe m (16 + 4 * i) 4)))) o.rng
              (bit (fieldLe m 2 1) 0) (bit (fieldLe m 2 1) 1)).1.ent)))

/-- R217 to R221, R224, R225: RUN adds its trigger to its context's; INVOCATION_START starts the oldest on every stream with the
registers of R220, a trigger of a context on a fenced compositor ends with E_FENCED (R219); INVOCATION_END and INVOCATION_STOP
end an invocation with OK, with E_STATE while a chain is open, or with the code of its first stop; ABORT stops one with E_STATE.
-/
def Obligations.InvocationsRun : Prop :=
  ∀ (s : State) (c : Nat),
    (∀ e, Begins s e 0x09 → entryBad e [0, 1] true [(8, 20)] false = none → 1 ≤ e.p 16 4 → e.p 16 4 ≤ 4096 →
      (s.ctx e.ctx).ex = true → (s.ctx e.ctx).state = 1 →
      Gives (.run e) s (fun t => t.ctx e.ctx = { s.ctx e.ctx with trigs := (s.ctx e.ctx).trigs ++ [{ slot := false, entry := e }] } ∧
        (∀ j, j ≠ e.ctx → t.ctx j = s.ctx j) ∧ SameMemory s t ∧ SameRegs s t (fun _ => False))) ∧
    (∀ tr r,
      let b := s.boundary c
      let x := b.ctx c
      x.inv = none → x.trigs = tr :: r → x.ex = true → (x.state = 1 ∨ x.state = 3) → x.gap = false → x.restoreHold = false →
      b.testHolds c = false → b.trigReady tr = true →
      (x.cmps.any b.cmpOut = false →
        Gives (.invocationStart c) s (fun t =>
          let num := (x.invoc + 1) % 2 ^ 48
          (t.ctx c).trigs = r ∧ (t.ctx c).invoc = num ∧ t.invAll = b.invAll + 1 ∧ SameMemory b t ∧ SameRegs b t (fun _ => False) ∧
          ∃ v, (t.ctx c).inv = some v ∧ v.num = num ∧ v.gen = x.active.getD 0 ∧ v.gennum = x.gennum ∧ v.stop = none ∧
            v.streams.length = x.prog.length ∧ ∀ i, i < x.prog.length →
              let st := t.stream c i
              st.idx = 0 ∧ st.ended = false ∧ st.loops = [] ∧ st.sems = [] ∧ st.cmp = nth 0 x.cmps i ∧
              (tr.slot = false → st.ra 0 = tr.entry.p 8 8 ∧ st.ra 1 = tr.entry.p 20 8 ∧ st.ra 2 = 0 ∧
                st.rc 0 = tr.entry.p 16 4 ∧ st.rc 1 = 0 ∧ st.rc 2 = 0 ∧ st.rc 3 = num % 2 ^ 32) ∧
              (tr.slot = true → st.ra 0 = b.s0Base tr.carrier tr.slotNum ∧ st.ra 1 = (b.s3Buf tr.carrier tr.slotNum).1 ∧
                st.ra 2 = tr.entry.p 16 8 ∧ st.rc 0 = tr.entry.p 26 1 ∧ st.rc 1 = tr.entry.p 27 1 ∧
                st.rc 2 = tr.carrier + 4 * (tr.slotNum % 2) ∧ st.rc 3 = tr.slotNum))) ∧
      (x.cmps.any b.cmpOut = true →
        exec (.invocationStart c) s = .next (((b.modCtx c (fun x => { x with trigs := r })).trigFail tr .fenced).destroyStep c))) ∧
    (∀ v, (s.ctx c).inv = some v → v.stop = none → v.streams.all (fun st => st.ended) = true → s.ops.any (fun o => o.ctx == c) = false →
      (s.openChainOf c = none → exec (.invocationEnd c) s = .next (s.finishInv c v .ok)) ∧
      (∀ k i, s.openChainOf c = some k → findIdx (fun st => st.cmp == k) v.streams 0 = some i →
        exec (.invocationEnd c) s = .next ((s.stopAt c i .state).finishInv c v .state))) ∧
    (∀ v code i j, (s.ctx c).inv = some v → v.stop = some (code, i, j) → s.ops.any (fun o => o.ctx == c && decide (o.stage ≥ 1)) = false →
      exec (.invocationStop c) s = .next ((s.withOps (s.ops.filter (fun o => o.ctx != c))).finishInv c v code)) ∧
    (∀ k value v i, k ≤ 16 → bits value.toNat 30 5 = 0 → bit value.toNat 31 = true → (s.ctx (bits value.toNat 4 0)).inv = some v →
      findIdx (fun st => st.page == k && !st.ended) v.streams 0 = some i → v.streams.all (fun st => st.ended) = false →
      Gives (.abort k value) s (fun t => StopsWith (bits value.toNat 4 0) i .state s t ∧ SameMemory s t)) ∧
    (∀ k value, k ≤ 16 → bits value.toNat 30 5 = 0 → bit value.toNat 31 = true → (s.ctx (bits value.toNat 4 0)).inv = none →
      exec (.abort k value) s = .next (s.rejectOff (rOff .cmp k 0x4C) .state))

/-- R299, R302 to R308: a frame that a port receives counts in RXFRAMES and RXBYTES, and its codewords in FECCORR and FECUNCORR;
the first check it fails drops it, counts in that check's counter and stands in LASTDROP; a PAUSE is counted and ignored; one
that passes has its sections written to its slot. -/
def Obligations.FramesReachTheirSlot : Prop :=
  ∀ (s : State) (p : Nat) (fr : List Byte) (fcs : FrameCheck) (room : Bool), p ≤ 3 → s.portUp p = true →
    let u := (((s.bump .fhp p 0x7C fcs.corr).bump .fhp p 0x80 fcs.bad).bump64 .fhp p 0x68 1).bump64 .fhp p 0x70 fr.length
    let h := u.header p ((vlanTags fr).1 + 2) fr
    let pause := beNat (sliceB fr 12 2) = 0x8808 ∧ beNat (sliceB fr 14 2) = 1
    let dropped := fun (s' : State) (cnt reason eaxc : Nat) => Gives (.fronthaulFrame p fr fcs room) s (fun t =>
      t.reg64 .fhp p 0x68 = satNat 64 (s.reg64 .fhp p 0x68 + 1) ∧ t.reg .fhp p 0x7C = satNat 32 (s.reg .fhp p 0x7C + fcs.corr) ∧
      t.reg .fhp p 0x80 = satNat 32 (s.reg .fhp p 0x80 + fcs.bad) ∧ t.reg .fhp p cnt = satNat 32 (s'.reg .fhp p cnt + 1) ∧
      t.reg .fhp p 0xB8 = reason + eaxc % 65536 * 65536 ∧ SameMemory s t ∧ t.carriers = s.carriers)
    ((fcs.ok = false ∨ fr.length < 64 ∨ fr.length > 9600) → dropped s 0x78 1 0) ∧
    (fcs.ok = true → 64 ≤ fr.length → fr.length ≤ 9600 →
      (room = false → dropped s 0x84 2 0) ∧
      (room = true → pause → Gives (.fronthaulFrame p fr fcs room) s (fun t =>
        t.reg .fhp p 0xB4 = satNat 32 (s.reg .fhp p 0xB4 + 1) ∧ SameMemory s t ∧ t.carriers = s.carriers)) ∧
      (room = true → ¬ pause → u.addrOk p fr = false → dropped s 0x88 3 0) ∧
      (room = true → ¬ pause → u.addrOk p fr = true →
        (h.ok = false → dropped s 0x8C 4 h.eaxc) ∧
        (h.ok = true → u.eaxcMap p h.eaxc = none → dropped s 0x90 5 h.eaxc) ∧
        (∀ car st, h.ok = true → u.eaxcMap p h.eaxc = some (car, st) →
          let z := u.seqSeen p car st h.seq
          let k := slotIndex (z.mu p) h
          ((z.carrier car).slotFor k = none →
            ((z.carrier car).slots.any (fun l => (z.carrier car).recent l && l.num % k.2 == k.1) = true → dropped z 0x9C 8 h.eaxc) ∧
            ((z.carrier car).slots.any (fun l => (z.carrier car).recent l && l.num % k.2 == k.1) = false → dropped z 0xA0 9 h.eaxc)) ∧
          (∀ l, (z.carrier car).slotFor k = some l → exec (.fronthaulFrame p fr fcs room) s = .next
            ((z.sections p car l.num h st fr ((vlanTags fr).1 + 2 + 4 + h.payload) fr.length ((vlanTags fr).1 + 2 + 12)).closeComplete car l.num)))))

/-- R300, R301, R323: PAUSE_TRANSMIT and PAUSE_REPEAT send the PAUSE frames of R300; FH_LINK_CHANGE brings the link up while the
port is enabled, or down; FHP_CFG_WRITE, FHP_CNTCLR and GAL_MAP_WRITE take effect when R45 finds nothing wrong with them. -/
def Obligations.FronthaulPortCommands : Prop :=
  ∀ (s : State) (p : Nat) (value : Word), p ≤ 3 →
    let r := s.reg .fhp p 0x5C
    let v := value.toNat
    (∀ occ, Gives (.pauseTransmit p occ) s (fun t => (t.port p).occ = occ ∧ SameMemory s t ∧
      (s.portUp p = true → bit (s.reg .fhp p 0x40) 4 = true →
        ((s.port p).occ ≤ 1024 * bits r 22 16 → 1024 * bits r 22 16 < occ →
          (t.port p).sent = (s.port p).sent ++ [bits r 15 0] ∧ (t.port p).xoff = true ∧ t.reg .fhp p 0xB0 = satNat 32 (s.reg .fhp p 0xB0 + 1)) ∧
        (¬ 1024 * bits r 22 16 < occ → (s.port p).xoff = true → occ ≤ 1024 * bits r 30 24 →
          (t.port p).sent = (s.port p).sent ++ [0] ∧ (t.port p).xoff = false ∧ t.reg .fhp p 0xB0 = satNat 32 (s.reg .fhp p 0xB0 + 1))) ∧
      ((s.portUp p && bit (s.reg .fhp p 0x40) 4) = false → (t.port p).sent = (s.port p).sent ∧ SameRegs s t (fun _ => False)))) ∧
    (s.portUp p = true → bit (s.reg .fhp p 0x40) 4 = true → (s.port p).xoff = true → 1024 * bits r 30 24 < (s.port p).occ →
      Gives (.pauseRepeat p) s (fun t => (t.port p).sent = (s.port p).sent ++ [bits r 15 0] ∧
        t.reg .fhp p 0xB0 = satNat 32 (s.reg .fhp p 0xB0 + 1) ∧ SameMemory s t)) ∧
    (∀ up, Gives (.fhLinkChange p up) s (fun t =>
      (t.port p).linkUp = (up && s.pageOn .fhp p && bit (s.reg .fhp p 0x40) 7) ∧ t.carriers = s.carriers ∧ SameRegs s t (fun _ => False) ∧ SameMemory s t)) ∧
    (s.regBad (rOff .fhp p 0x40) v = none → (bit (s.reg .fhp p 0x40) 7 = true → bit v 0 = bit (s.reg .fhp p 0x40) 0 ∧ bits v 6 5 = bits (s.reg .fhp p 0x40) 6 5) →
      Gives (.fhpCfgWrite p value) s (fun t => t.reg .fhp p 0x40 = v ∧ (bit v 7 = false → (t.port p).linkUp = false) ∧
        (bit v 7 = true → (t.port p).linkUp = (s.port p).linkUp) ∧ SameRegs s t (fun off => off = rOff .fhp p 0x40) ∧ SameMemory s t)) ∧
    (s.regBad (rOff .fhp p 0x64) v = none → bit v 0 = true →
      Gives (.fhpCntclr p value) s (fun t => (∀ o, o ∈ fhpCounters → t.reg .fhp p o = 0) ∧
        SameRegs s t (fun off => ∃ o ∈ fhpCounters, off = rOff .fhp p o) ∧ SameMemory s t)) ∧
    (∀ i, i < 8 →
      let off := 0x20040 + 4 * i
      let a := (areaOf (decide (i ≥ 4)) v).getD (0, 0)
      s.regBad off v = none → (s.carrier (i % 4)).slots.any (fun l => !l.closed || (l.started && !l.ended)) = false →
      (bit v 31 = true → a.1 + a.2 ≤ 96 ∧ (∀ b ∈ s.otherAreas i, b.1 + b.2 ≤ a.1 ∨ a.1 + a.2 ≤ b.1) ∧
        ∀ n, n < 4 → a.1 < 24 * (n + 1) → 24 * n < a.1 + a.2 → s.fenced (uSlice n) = false ∧ s.domOn (36 + n) = true) →
      Gives (.galMapWrite off value) s (fun t => t.rd off = v ∧ SameRegs s t (fun x => x = off) ∧ SameMemory s t))

/-- R212, R281, R311 to R320: SLOT_DESC puts its slot behind its carrier's others and its trigger behind its context's;
SLOT_CLOSE closes an open slot and answers with its counts; a slot's S0 buffer starts wholly erased; the blocks of its PACKs
leave for the host; once all have left, its completion carries the last offset and the erased count, and its port counts both.
-/
def Obligations.SlotsRunTheirCourse : Prop :=
  ∀ (s : State),
    (∀ e map, Begins s e 0x0A → entryBad e [0] true [(8, 1), (12, 25)] false = none → s.descCheck e = none → mapBad map (e.p 24 2) = none →
      Gives (.slotDesc e map) s (fun t =>
        let l : Slot := { entry := e, num := e.p 12 4, ctx := e.ctx, map := map }
        (t.carrier (e.p 8 1)).top = some (e.p 12 4) ∧ (t.carrier (e.p 8 1)).slots.getLast? = some l ∧
        t.ctx e.ctx = { s.ctx e.ctx with trigs := (s.ctx e.ctx).trigs ++ [{ slot := true, entry := e, carrier := e.p 8 1, slotNum := e.p 12 4 }] } ∧
        ∀ c, c ≠ e.ctx → t.ctx c = s.ctx c)) ∧
    (∀ e l, Begins s e 0x0B → entryBad e [0] false [(8, 1), (12, 4)] false = none → e.p 8 1 ≤ 3 →
      let c := e.p 8 1
      let m := e.p 12 4
      let z := if (s.carrier c).slots.any (fun l => l.num == m && !l.closed) then (s.marked e).closeSlot c m else s.marked e
      ((z.carrier c).slots.reverse.find? (fun l => l.num == m && (z.carrier c).recent l) = some l →
        exec (.slotClose e) s = .next ((z.complete e .ok l.present l.erased).modCarrier c Carrier.tidy)) ∧
      ((z.carrier c).slots.reverse.find? (fun l => l.num == m && (z.carrier c).recent l) = none →
        exec (.slotClose e) s = .next (z.complete e .state 0 0))) ∧
    (∀ c l, (s.carrier c).slots.find? (fun l => !l.buf && !l.done) = some l → ((s.carrier c).before l.num).any (fun p => !p.ended) = false → l.closed = false →
      Gives (.s0BufferAssign c) s (fun t =>
        let b := s.s0Base c l.num
        (∀ sym re, sym < 14 → re < 3276 → t.engRead (eraAddr b sym re) 4 = [0xFF#8, 0xFF#8, 0xFF#8, 0xFF#8]) ∧
        (∀ a, (a < b + 0x59A000 ∨ b + 0x59A000 + eraBytes ≤ a) → t.memByte a = s.memByte a) ∧ (∀ a, t.lpByte a = s.lpByte a) ∧
        t.gs (slotSem c l.num) = leading (symCounts l.ents) ∧ (∀ g, g ≠ slotSem c l.num → t.gs g = s.gs g) ∧ SameRegs s t (fun _ => False))) ∧
    (∀ c l f n r, (s.carrier c).slots.find? (fun l => !l.done && !l.egress.isEmpty) = some l → l.egress = (f, n) :: r →
      let a := (s.s3Buf c l.num).1 + 64 * f
      (s.blocked a (64 * n) = none → exec (.egressWrite c) s = .next (((s.egressOut l.entry a f n).egressBad a (64 * n) l.ctx).modSlot c l.num
        (fun l => { l with egress := r, high := max l.high (64 * (f + n)) }))) ∧
      (∀ k, s.blocked a (64 * n) = some k → exec (.egressWrite c) s = .next (s.modSlot c l.num (fun l => { l with egress := [], stop := k.num })))) ∧
    (∀ c l, (s.carrier c).slots.find? (fun l => !l.done) = some l → l.closed = true → l.ended = true → l.egress = [] →
      let z := s.complete l.entry (codeOf l.stop) l.high l.erased l.flags l.gennum
      Gives (.slotCompletion c) s (fun t => t.host = z.host ∧ t.queues = z.queues ∧ t.reg .fhp c 0xBC = satNat 32 (z.reg .fhp c 0xBC + 1) ∧
        (l.high ≠ 0 → t.reg64 .fhp c 0xC8 = satNat 64 (z.reg64 .fhp c 0xC8 + l.high)) ∧ SameMemory s t ∧
        ∀ x ∈ (t.carrier c).slots, x.num = l.num → x.done = true))

/-- R113 to R124, R128, R132, R135: a drift-clock read leaves the array its new age, ratio and L, or REFBAD; a reference step
and a statistics fit arm new values for every array of the run; a window closes once it is full; self-calibration leaves an
array its trims; CAL_RUN and REFRESH_START start what they ask for. R109, R126, R131: a pair's new values reach the inactive
forme only if they pass LOW, HIGH, STEP and OFFSET in that order; else the pair keeps its active values there; the outcome is
recorded, LOW makes the array due, and the active forme stays as it is. -/
def Obligations.CalibrationProceedsAndIsChecked : Prop :=
  (∀ (s : State) (c : Nat),
      (∀ a s0 s1 tw1 tw2, (s.arr (akey c a)).readDue = true → s.cluOn c = true →
        Gives (.driftClockRead c a s0 s1 tw1 tw2) s (fun t =>
          let r := s.arr (akey c a)
          let q := t.arr (akey c a)
          q.ref0 = s0 ∧ q.ref1 = s1 ∧ q.twinfail = (!twinOk tw1 && !twinOk tw2) ∧ SameMemory s t ∧
          ((s0 - s1 + (s1 - s0)) * 200 > s0 + s1 → q.refbad = true ∧ q.lq = r.lq ∧ q.age = r.age ∧ q.ratio = r.ratio) ∧
          ((s0 - s1 + (s1 - s0)) * 200 ≤ s0 + s1 → s.sensorFault = true → q.agevalid = false ∧ q.lq = r.lq ∧ q.age = r.age ∧ q.ratio = r.ratio) ∧
          ((s0 - s1 + (s1 - s0)) * 200 ≤ s0 + s1 → s.sensorFault = false →
            q.refbad = false ∧ q.agevalid = true ∧ (q.lq, q.age, q.ratio) = driftOf r s0 s1 s.thm.temp s.free))) ∧
      ((s.ctx c).cal.run = 1 → (s.runArrays c).any (fun k => (s.arr k).readDue) = false →
        exec (.referenceStep c) s = .next ((if s.sensorFault then s else (s.runArrays c).foldl State.refStepArr s).modCtx c
          (fun x => { x with cal := { x.cal with run := 2 } }))) ∧
      ((s.ctx c).cal.run = 3 → (s.runArrays c).all (s.winDone c) = true →
        Gives (.statWindowClose c) s (fun t => (t.ctx c).cal.run = 4 ∧ (∀ k ∈ s.runArrays c, (t.arr k).readDue = true) ∧ SameMemory s t ∧ SameRegs s t (fun _ => False))) ∧
      ((s.ctx c).cal.run = 4 → (s.runArrays c).any (fun k => (s.arr k).readDue) = false →
        exec (.statFit c) s = .next (((s.runArrays c).foldl State.fitArr s).modCtx c (fun x => { x with cal := { x.cal with run := 5 } }))) ∧
      (∀ a trims tw1 tw2, s.scalDue (akey c a) = true → s.cluOn c = true →
        let z := s.takeTrims (akey c a) trims
        let bad := (failedTrims (z.arr (akey c a))).length
        (∀ q, q < 264 → FMap.get {} (z.arr (akey c a)).trims q = trimOf (nth (0, 0) trims q)) ∧
        exec (.converterSelfCal c a trims tw1 tw2) s = .next ((((z.trimFails (akey c a)).twin (akey c a) tw1 tw2)).scalCount (akey c a) (264 - bad) bad)) ∧
      (∀ a tw1 tw2, (s.arr (akey c a)).twinDue = true → (s.arr (akey c a)).st ≠ 2 → s.cluOn c = true →
        exec (.twinCheck c a tw1 tw2) s = .next ((((s.modArr (akey c a) (fun r => { r with twinDue := false })).twin (akey c a) tw1 tw2).testCount 14 (akey c a)
          (twinPass tw1 tw2)).settleTests)) ∧
      (∀ e, Begins s e 0x0C → entryBad e [2] false [(8, 1), (16, 8)] false = none → e.p 8 1 ≤ 1 → (bit (e.p 8 1) 0 = false → e.ctx ≠ 255) → e.p 16 8 ≠ 0 →
        (∀ k, k < 64 → bit (e.p 16 8) k = true → s.cluFenced k = false) → (e.ctx ≠ 255 → (s.ctx e.ctx).ex = true) →
        let z := s.marked e
        let scal := if bit (e.p 8 1) 0 then s.scalArrays (e.p 16 8) else []
        let own := (s.inService e.ctx).filter (fun k => bit (e.p 16 8) (k / 128))
        (scal ≠ [] → exec (.calRun e) s = .next (z.withJobs (s.jobs ++ [{ e := e, kind := 2, ctx := e.ctx, n := scal }]))) ∧
        (scal = [] → e.ctx = 255 → exec (.calRun e) s = .next (z.ctxDone e .ok 0 0)) ∧
        (scal = [] → e.ctx ≠ 255 → own = [] → exec (.calRun e) s = .next (z.ctxDone e (z.okCode e.ctx) 0 0)) ∧
        (scal = [] → e.ctx ≠ 255 → own ≠ [] → exec (.calRun e) s = .next ((z.withJobs (s.jobs ++ [{ e := e, kind := 1, ctx := e.ctx }])).calTrigger e.ctx 0 (e.p 16 8)))) ∧
      (∀ a, s.refreshDue c = some a → bit (s.reg .cal c 0x50) 2 = true → s.cluOn c = true → (∀ b, b < 68 → (s.arr (akey c b)).refreshing = false) →
        let r := s.arr (akey c a)
        (r.progcyc ≥ 100000 → exec (.refreshStart c) s = .next ((s.fence (uArr c a) 7).report
          { kind := 0x0D, ctx := r.ctx, invoc := (s.ctx r.ctx).invoc, unit := uArr c a })) ∧
        (∀ b sl, r.progcyc < 100000 → s.refreshTarget c = some b → (s.backingSlice r.ctx r.gen r.logical).2 = some sl →
          exec (.refreshStart c) s = .next ((s.backingSlice r.ctx r.gen r.logical).1.refreshInto (akey c a) (akey c b) sl)))) ∧
  (∀ (r : Arr) (method : Nat) (news : Nat → Coef ⊕ Nat) (q : Nat), q < 260 → r.active ≤ 1 →
      let a := armForme r method news
      let old := r.coef r.active q
      a.armed = true ∧ a.active = r.active ∧ a.coef r.active q = old ∧ (r.due = true → a.due = true) ∧
      (∀ n, news q = .inl n →
        (n.gain * 5 < 4 * 16384 → a.coef (1 - r.active) q = old ∧ outcomeOf a q = 2 ∧ a.due = true) ∧
        (¬ n.gain * 5 < 4 * 16384 → n.gain * 4 > 5 * 16384 → a.coef (1 - r.active) q = old ∧ outcomeOf a q = 3) ∧
        (¬ n.gain * 5 < 4 * 16384 → ¬ n.gain * 4 > 5 * 16384 → ((n.gain : Int) - old.gain).natAbs * 20 > old.gain →
          a.coef (1 - r.active) q = old ∧ outcomeOf a q = 4) ∧
        (¬ n.gain * 5 < 4 * 16384 → ¬ n.gain * 4 > 5 * 16384 → ((n.gain : Int) - old.gain).natAbs * 20 ≤ old.gain →
          (n.off.natAbs > 32 → a.coef (1 - r.active) q = old ∧ outcomeOf a q = 5) ∧
          (n.off.natAbs ≤ 32 → a.coef (1 - r.active) q = n ∧ outcomeOf a q = 1))))

/-- R61, R62, R328 to R352, R361, R362, R364: a context command that finds nothing to refuse changes what its page gives it and
queues the records whose writing completes it: CTX_CREATE, CTX_LOAD (a further letter, a DORMANT context's letter, a first
image), CTX_PROGRAM (INPLACE, SHADOW), CTX_SWITCH, CTX_SAVE, CTX_RESTORE, CTX_DESTROY. -/
def Obligations.ContextCommandsBegin : Prop :=
  ∀ (s : State) (e : Entry),
    let c := e.ctx
    let x := s.ctx c
    let z := s.marked e
    let lp := e.p 20 1 == 1
    (Begins s e 0x02 → entryBad e [1, 2] true [(8, 3), (16, 8)] (decide (e.p 10 1 > 1)) = none → e.p 8 1 ≤ 1 → e.p 9 1 ≤ 2 → x.ex = false →
      s.jobs.any (fun j => j.kind == 11 && j.ctx == c) = false → s.ctxList.length < 32 →
      Gives (.ctxCreate e) s (fun t => t.epochCtr = (s.epochCtr + 1) % 2 ^ 32 ∧ t.jobs = s.jobs ++ [{ e := e, kind := 11, ctx := c }] ∧
        t.ctxs = s.ctxs ∧ SameMemory s t ∧ SameRegs s t (fun _ => False))) ∧
    (∀ image bad, Begins s e 0x03 → entryBad e [1, 2] true [(8, 15)] (decide (e.p 21 1 > 3)) = none → x.cmd = none → e.p 20 1 ≤ 1 → e.p 22 1 ≤ 1 →
      e.p 8 8 % 64 = 0 → z.lpBadExtent lp (e.p 8 8) (e.p 16 4) = none →
      let g := e.p 22 1
      let img := z.imageFrom lp (e.p 8 8) (e.p 16 4) image
      let y := z.imageRead lp (e.p 8 8) (e.p 16 4)
      z.loadCheck c g (e.p 16 4) img (lp && (z.badIn (2 ^ 63 + e.p 8 8) (e.p 16 4)).isSome) = none →
      (x.state = 1 → exec (.ctxLoad e image bad) s = .next (y.loadStaged e g img lp (e.p 8 8) (bit (e.p 21 1) 0))) ∧
      (x.state = 2 → weightDigest img = (x.letter g).digest → x.prog ≠ [] →
        exec (.ctxLoad e image bad) s = .next (y.loadReattach e g img lp (e.p 8 8) bad)) ∧
      (∀ f, x.state ≠ 1 → x.state ≠ 2 → y.fitLoad c img (bit (e.p 21 1) 0) (bit (e.p 21 1) 1) x.red = .inr f →
        exec (.ctxLoad e image bad) s = .next (y.loadFirst e g img (loadedLetter (x.letter g) img lp (e.p 8 8) 1 (bit (e.p 21 1) 0)) f)) ∧
      (∀ q, x.state ≠ 1 → x.state ≠ 2 → y.fitLoad c img (bit (e.p 21 1) 0) (bit (e.p 21 1) 1) x.red = .inl q →
        exec (.ctxLoad e image bad) s = .next (y.ctxDone e .nospace q.1 q.2))) ∧
    (∀ image b, Begins s e 0x04 → entryBad e [1, 2] true [(8, 2)] false = none → x.cmd = none → e.p 8 1 ≤ 1 → e.p 9 1 ≤ 1 →
      let l := x.letter (e.p 8 1)
      x.ex = true → x.state = 1 → l.st = 1 → l.backing = some b →
      let img := z.imageFrom b.1 b.2 l.image.length image
      let y := z.imageRead b.1 b.2 l.image.length
      (b.1 && (z.badIn (2 ^ 63 + b.2) l.image.length).isSome) = false → sha384 (img.take (img.length - 48)) = imgTrailer l.image →
      (e.p 9 1 = 1 → exec (.ctxProgram e image) s = .next (y.programInplace e (e.p 8 1))) ∧
      (e.p 9 1 = 0 → y.partShort c = 0 → (y.placeAll l.image x.red l.borrow false (some x.spill)).2.2 = 0 →
        exec (.ctxProgram e image) s = .next (y.programShadow e (e.p 8 1) (y.placeAll l.image x.red l.borrow false (some x.spill)).1))) ∧
    (Begins s e 0x05 → entryBad e [1, 2] true [(8, 1)] false = none → x.cmd = none → e.p 8 1 ≤ 1 → x.ex = true → x.state = 1 →
      (x.letter (e.p 8 1)).st = 2 →
      exec (.ctxSwitch e) s = .next (((z.modCtx c (fun x => { x with cmd := some e, switchDue := some (e.p 8 1) })).withJobs
        (s.jobs ++ [{ e := e, kind := 5, ctx := c }])).boundary c)) ∧
    (Begins s e 0x06 → entryBad e [2] true [(8, 13)] false = none → x.cmd = none → e.p 20 1 ≤ 1 → x.ex = true → x.state = 1 →
      let im := z.ctxSaveImage c
      z.lpBadExtent lp (e.p 8 8) (e.p 16 4) = none → im.length ≤ e.p 16 4 →
      exec (.ctxSave e) s = .next ((if lp then z.lpWrite (e.p 8 8) im else z.cmdWrite e (e.p 8 8) im).ctxDone e
        ((if lp then z.lpWrite (e.p 8 8) im else z.cmdWrite e (e.p 8 8) im).okCode c) im.length (fieldLe im (im.length - 48) 8))) ∧
    (∀ data bad, Begins s e 0x07 → entryBad e [2] true [(8, 13)] false = none → x.cmd = none → e.p 20 1 ≤ 1 → x.ex = true → x.state = 2 →
      z.lpBadExtent lp (e.p 8 8) (e.p 16 4) = none →
      let im := z.imageFrom lp (e.p 8 8) (e.p 16 4) data
      let y := z.imageRead lp (e.p 8 8) (e.p 16 4)
      fieldLe im 0 4 = 0x31565343 → fieldLe im 4 2 = 1 → zeroAt im 20 44 = true → (lp && (z.badIn (2 ^ 63 + e.p 8 8) (e.p 16 4)).isSome) = false →
      112 ≤ im.length → sha384 (im.take (im.length - 48)) = sliceB im (im.length - 48) 48 → fieldLe im 6 1 = c → fieldLe im 8 4 = x.epoch →
      (∀ p ∈ savedImages im, y.readbackDigest c p.1 p.2 = (x.letter p.1).digest ∧ (y.letterArrays c p.1).any (fun k => bad.contains k) = false) →
      let w := ((savedImages im).foldl (fun s p => s.reattach c p.1 p.2 none []) (y.modCtx c (fun x => { x with cmd := some e }))).cfgAdvance
      exec (.ctxRestore e data bad) s = .next (w.colQueue { steps := w.ctxSteps c (w.ctxClus c) false, k := 14, job := some e, ctx := c, args := [x.epoch, 0] })) ∧
    (Begins s e 0x08 → entryBad e [1, 2] true [] false = none → x.cmd = none → x.ex = true →
      let y := (z.runAnswer c).modCtx c (fun y => { y with cmd := some e, was := y.state, state := 3, cal := { y.cal with run := 0, again := false } })
      exec (.ctxDestroy e) s = .next ((y.withJobs (y.jobs ++ [{ e := e, kind := 3, ctx := c }])).destroyStep c))

/-- R117, R346, R348, R355, R356, R363: an array whose rows and pairs can be replaced and whose baseline is in range is
programmed, with gain 1.0 and offset 0 in both formes; another's programming fails. A digest round names every array of the
ACTIVE letter, each is read back once, and those that differ are reported at its end. A repowered context's rows are loaded
again, or it goes DORMANT. -/
def Obligations.ArraysAreProgrammedAndReadBack : Prop :=
  ∀ (s : State) (c : Nat),
    (∀ a badRows badPairs s0 s1 tw1 tw2,
      let k := akey c a
      let r := s.arr k
      let pairs := r.colmap ++ trimPairs r ++ badPairs.filter (fun q => !(trimPairs r).contains q)
      let fits := pairs.length ≤ 2 - ((failedTrims r).filter (fun q => q ≥ 262)).length ∧ 186368 ≤ s0 + s1 ∧ s0 + s1 ≤ 190463
      r.st = 2 → r.begun = true → s.cluOn c = true →
      (∀ rows, replaceRows badRows r.rowmap = some rows → fits →
        let u := s.programmedOk k rows pairs s0 s1 tw1 tw2
        let q := u.arr k
        exec (.arrayProgrammed c a badRows badPairs s0 s1 tw1 tw2) s = .next (u.progCheck r.ctx) ∧
        q.st = (if r.forArr.isSome then 2 else 3) ∧ q.rowmap = rows ∧ q.colmap = pairs ∧ q.weights = r.weights ∧ q.layer = r.layer ∧
        q.recD = ((s0 + s1 : Nat) : Int) - 188416 ∧ (∀ f p, q.coef f p = { gain := 0x4000, off := 0 }) ∧ q.due = false ∧
        q.twinfail = (!twinOk tw1 && !twinOk tw2) ∧ SameMemory s u) ∧
      ((replaceRows badRows r.rowmap = none ∨ ¬ fits) →
        exec (.arrayProgrammed c a badRows badPairs s0 s1 tw1 tw2) s = .next (s.programmedBad k))) ∧
    (∀ g, (s.ctx c).active = some g → (s.ctx c).state = 1 → (s.ctx c).digper ≠ 0 → (s.ctx c).digper ≤ (s.ctx c).digDone →
      ((s.ctx c).letter g).backing.isSome = true → (s.ctx c).digLeft = [] →
      Gives (.digestRound c) s (fun t => t.ctx c = { s.ctx c with digLeft := s.inService c, digBad := [], digDone := 0 } ∧
        (∀ j, j ≠ c → t.ctx j = s.ctx j) ∧ SameMemory s t ∧ SameRegs s t (fun _ => False))) ∧
    (∀ a s0 s1 dev,
      let k := akey c a
      let x := (s.arr k).ctx
      let z := (s.driftRead k s0 s1).evalTriggers k
      let same := readbackSame (z.arr k) dev
      let bad := if same then (z.ctx x).digBad else (z.ctx x).digBad ++ [k]
      (s.ctx x).digLeft.contains k = true → s.cluOn c = true →
      ((∃ j ∈ (z.ctx x).digLeft, j ≠ k) → Gives (.verifiedReadback c a s0 s1 dev) s (fun t =>
        (t.ctx x).digLeft = (z.ctx x).digLeft.filter (fun i => i != k) ∧ (t.ctx x).digBad = bad ∧ t.reports = z.reports)) ∧
      ((∀ j ∈ (z.ctx x).digLeft, j = k) → Gives (.verifiedReadback c a s0 s1 dev) s (fun t =>
        (t.ctx x).digLeft = [] ∧ (t.ctx x).digBad = [] ∧
        t.reports = z.reports ++ bad.map (fun i => { kind := 0x0A, ctx := x, invoc := (z.ctx x).invoc, unit := uArr (i / 128) (i % 128) })))) ∧
    ((s.ctx c).ex = true → (s.ctx c).restoreHold = true → (∀ k ∈ s.ctxArrays c, (s.unit (uArr (k / 128) (k % 128))).state ≠ 2) →
      let need := [0, 1].filter (fun g => decide (((s.ctx c).letter g).st ≥ 2))
      let z := s.modCtx c (fun x => { x with restoreHold := false })
      (need.any (fun g => ((s.ctx c).letter g).backing.isNone) = true →
        exec (.domainRepowerRestore c) s = .next ((z.modCtx c (fun x => { x with state := 2 })).record c (z.ctxClus c))) ∧
      (∀ g, need.any (fun g => ((s.ctx c).letter g).backing.isNone) = false → (s.ctx c).active = some g →
        exec (.domainRepowerRestore c) s = .next ((need.foldl (fun s g => s.loadRows c g) z).loadProfiles c g)))

/-- R401, R404, R405, R422, R423, R273, R284 to R288: a due array test applies its vector and is judged on one group, or is
skipped without a backing image; a cluster test waits for its test tiles or preempts their invocations; TEST_RUN marks what it
names; a march test starts its instances RUNNING and ends PASS or FAIL; PERIOD and MAINT take a legal value. -/
def Obligations.TestsRun : Prop :=
  ∀ (s : State) (c : Nat),
    (∀ a dev,
      let k := akey c a
      let r := s.arr k
      let b := s.backingSlice r.ctx r.gen r.logical
      r.st = 3 → s.cluOn c = true →
      (r.testDue = true → b.2 = none → exec (.arrayTest c a dev) s = .next (b.1.testSkip k)) ∧
      (∀ sl, r.testDue = true → b.2 = some sl →
        let subs := testSubs r (s.ctx r.ctx).seed r.testI k
        let out := b.1.applyTest k subs dev r.testI
        let g := r.testT % r.layer.groups
        let first := 8 * (r.testT % (r.layer.outs / 8))
        exec (.arrayTest c a dev) s = .next ((if (s.partner c).isNone then out.1.bump .tst 0 0x68 1 else out.1).testVerdict k
          (testDiff r.layer.g ((nth [] out.2.vals g).drop first) (refOutputs r.layer sl subs g first)))) ∧
      (r.testDue = false → r.cmpDue = true → exec (.arrayTest c a dev) s = .next (s.compareVector k dev))) ∧
    ((s.clu c).testDue = true → s.cluFenced c = false → s.cluOn c = true → ∀ pass,
      (s.testOwners c = [] → exec (.clusterTest c pass) s = .next (((s.testTiles c).foldl (fun s t => s.testTileLeft (tkey c t)) s).clusterVerdict c pass)) ∧
      (s.testLate c ≠ [] → (s.testTiles c).all (s.tileQuiet c) = false → exec (.clusterTestPreempt c pass) s = .next
        ((s.testOwners c).foldl (fun s x => s.modCtx x (fun y => y.modInv (fun v => { v with heldTest := true }))) s)) ∧
      (s.testLate c ≠ [] → (s.testTiles c).all (s.tileQuiet c) = true → exec (.clusterTestPreempt c pass) s = .next
        (((s.testTiles c).foldl (fun s t => s.saveTestTile c t) ((s.testOwners c).foldl State.preempt s)).clusterVerdict c pass))) ∧
    (∀ e, Begins s e 0x0D → entryBad e [2, 3] false [(8, 1), (16, 8)] false = none → e.p 8 1 ≤ 2 → e.p 16 8 ≠ 0 →
      (∀ k, k < 64 → bit (e.p 16 8) k = true → s.cluFenced k = false) → (e.ctx ≠ 255 → (s.ctx e.ctx).ex = true) →
      let ks := (s.marked e).testPick (e.p 8 1) (e.p 16 8) e.ctx
      let z := ks.foldl (State.testMark (e.p 8 1)) (s.marked e)
      exec (.testRun e) s = .next ((z.withJobs (z.jobs ++ [{ e := e, kind := if e.p 8 1 = 0 then 12 else 13 + e.p 8 1, ctx := e.ctx, n := ks }])).settleTests)) ∧
    (∀ e, Begins s e 0x0E → entryBad e [2, 3] false [(8, 2), (16, 8)] false = none →
      let z := s.marked e
      let m := e.p 8 1
      let us := (List.range (if m = 1 then 4 else 64)).filter (fun u => bit (e.p 16 8) u)
      m ≤ 3 → e.p 9 1 ≤ 1 → e.p 16 8 ≠ 0 → (m = 1 → e.p 16 8 < 16) → (∀ u ∈ us, if m = 1 then s.domOn (36 + u) = true else s.cluOn u = true) →
      (e.p 9 1 = 0 → m ≠ 1 → ∀ u ∈ us, s.reg .spd u 0x40 % 2 = 1) →
      (e.p 9 1 = 0 → m = 1 → ∀ u ∈ us, ∀ a ∈ s.otherAreas 8, a.1 + a.2 ≤ 24 * u ∨ 24 * (u + 1) ≤ a.1) → (∀ u ∈ us, z.marchBusy m u = false) →
      let y := us.foldl (State.marchStart m (e.p 9 1)) z
      exec (.marchRun e) s = .next (y.withJobs (y.jobs ++ [{ e := e, kind := 19, n := us.map (fun u => 256 * e.p 9 1 + 64 * m + u) }]))) ∧
    (∀ m u bad alg, m ≤ 3 → u < (if m = 1 then 4 else 64) → s.marchAlg m u = some alg →
      let r := s.marchRows m u alg bad
      exec (.marchTestDone m u bad) s = .next
        (((r.1.marchVerdict m u alg r.2.1 r.2.2).sliceBack m u alg r.2.2).marchSettle (m * 64 + u) r.2.1 r.2.2)) ∧
    (∀ value : Word, s.regBad (rOff .tst 0 0x44) value.toNat = none → s.locked 2 = false →
      Gives (.periodWrite value) s (fun t => t.reg .tst 0 0x44 = value.toNat ∧ (∀ x, (s.ctx x).ex = true → (t.ctx x).newPeriod = some value.toNat) ∧ SameMemory s t)) ∧
    (∀ value : Word, c ≤ 63 → s.regBad (rOff .spd c 0x40) value.toNat = none → (bit value.toNat 0 = true → s.ready = true → (s.unit (uClu c)).state ≠ 0) →
      Gives (.maintWrite c value) s (fun t => t.reg .spd c 0x40 = value.toNat ∧ SameMemory s t))

/-- R399, R400, R407 to R411, R419: the fault manager takes the earliest report: one without a unit is only an event; a kind
with a reason of its own fences its unit at once; a kind that does not count is only an event in the unit's history; a counted
kind is PERMANENT, stopping its invocation, when the repeat of a CRITICAL context fails again, else TRANSIENT, with a fence by
the lifetime limit or by three events in the window. -/
def Obligations.FaultReportsAreJudged : Prop :=
  ∀ (s : State) (r : Report) (rest : List Report) (rep0 rep1 : Bool), s.reports = r :: rest →
    let z := s.withReports rest
    (r.unit = 0xFFFF → Gives (.faultEvent rep0 rep1) s (fun t => t.reports = rest ∧
      t.events = ({ kind := r.kind, cls := 0, ctx := r.ctx, invoc := r.invoc, tile := r.tile, unit := 0xFFFF, detail := r.detail } :: s.events).take 64 ∧
      t.reg64 .flt 0 0x48 = satNat 64 (s.reg64 .flt 0 0x48 + 1) ∧ t.units = s.units ∧ SameMemory s t)) ∧
    (∀ why, r.unit ≠ 0xFFFF → immediate r.kind = some why → exec (.faultEvent rep0 rep1) s = .next
      ((((z.eventIn r r.unit 3).fenceNow r.unit why).histWrite r.unit).settleTests)) ∧
    (r.unit ≠ 0xFFFF → immediate r.kind = none → kindCounts r.kind = false → exec (.faultEvent rep0 rep1) s = .next ((z.eventIn r r.unit 0).histWrite r.unit)) ∧
    (r.unit ≠ 0xFFFF → kindCounts r.kind = true → r.kind ≠ 5 →
      (z.repeats r = true → rep0 = true → exec (.faultEvent rep0 rep1) s = .next ((((z.bump .tst 0 0x70 1).eventIn r r.unit 2).permanent r r.unit).settleTests)) ∧
      (z.repeats r = true → rep0 = false → exec (.faultEvent rep0 rep1) s = .next ((((z.bump .tst 0 0x70 1).eventIn r r.unit 1).judge r r.unit).settleTests)) ∧
      (z.repeats r = false → exec (.faultEvent rep0 rep1) s = .next (((z.eventIn r r.unit 1).judge r r.unit).settleTests))) ∧
    (∀ u, let w := (s.recordEvent r u).bump .flt 0 0x94 1
      let n := ((s.unit u).evs.filter (s.inWindow r.ctx r.invoc)).length
      ((w.unit u).total ≥ w.reg .flt 0 0x40 → s.judge r u = (w.fenceNow u 4).histWrite u) ∧
      ((w.unit u).total < w.reg .flt 0 0x40 → n ≥ 2 → s.judge r u = (w.fenceNow u 3).histWrite u) ∧
      ((w.unit u).total < w.reg .flt 0 0x40 → n < 2 → s.judge r u = w.histWrite u))

/-- R412, R414 to R416, R418: UNIT_FENCE fences its unit with reason HOST at once, or when its context's invocation ends;
UNIT_UNFENCE makes a fenced unit RETURNING; a returning cluster or array is judged by its checks; SLACK releases and empties a
frozen log. -/
def Obligations.UnitsLeaveAndReturn : Prop :=
  ∀ (s : State),
    (∀ e u, Begins s e 0x16 → entryBad e [2] false [(8, 1), (12, 3)] false = none → namedUnit e = some u → u / 8192 ≤ 1 →
      let z := s.marked e
      let y := z.fenceNow u 1
      ((y.unit u).due = none → exec (.unitFence e) s = .next (y.complete e .ok (y.fenceReg u) 0)) ∧
      (∀ d, (y.unit u).due = some d → exec (.unitFence e) s = .next (y.withJobs (y.jobs ++ [{ e := e, kind := 7, a := u }])))) ∧
    (∀ e u, Begins s e 0x16 → entryBad e [2] false [(8, 1), (12, 3)] false = none → namedUnit e = some u → u / 8192 = 3 → s.domOn (46 + u / 128 % 64) = true →
      let l := (s.marked e).laneFence (u / 128 % 64) (u % 128)
      exec (.unitFence e) s = .next (l.1.complete e (if l.2 then .degraded else .ok) (l.1.fenceReg u) 0)) ∧
    (∀ e u, Begins s e 0x17 → entryBad e [2] false [(8, 1), (12, 3)] false = none → namedUnit e = some u → (s.unit u).state = 1 →
      ((u / 8192 = 0 ∧ (s.unit u).reason ≠ 7) ∨ u / 8192 = 1 ∨ u / 8192 = 2) →
      Gives (.unitUnfence e) s (fun t => (t.unit u).state = 2 ∧ (t.unit u).reason = (s.unit u).reason ∧ (∀ j, j ≠ u → t.unit j = s.unit j) ∧
        t.jobs = s.jobs ++ [{ e := e, kind := 16, a := u }] ∧ (u / 8192 = 1 → t.reg .spd (u / 128 % 64) 0x40 = 1) ∧ SameMemory s t)) ∧
    (∀ (unit : Half) w1 w2 w3, let u := unit.toNat
      (s.unit u).state = 2 →
      (u / 8192 = 1 → s.cluOn (u / 128 % 64) = true → exec (.unitReturn unit w1 w2 w3) s = .next (s.clusterReturn (u / 128 % 64) w1)) ∧
      (u / 8192 = 0 → s.cluOn (u / 128) = true → s.cluFenced (u / 128) = false →
        exec (.unitReturn unit w1 w2 w3) s = .next (s.arrayReturn (akey (u / 128) (u % 128)) w1 w2 w3))) ∧
    (∀ value : Word, s.regBad (rOff .flt 0 0x84) value.toNat = none → bit value.toNat 31 = true → (s.ctx (bits value.toNat 4 0)).frozen = true →
      Gives (.slack value) s (fun t => let c := bits value.toNat 4 0
        (t.ctx c).log = [] ∧ (t.ctx c).frozen = false ∧ (t.ctx c).faulted = false ∧ (t.ctx c).lost = false ∧
        (∀ j, j ≠ c → t.ctx j = s.ctx j) ∧ SameMemory s t ∧ SameRegs s t (fun _ => False)))

/-- R226, R227, R525: CMP16 takes the lowest compositor that waits to be replaced; once its store is copied new invocations run
on CMP16; with nothing left issuing on it the compositor reloads, or is FENCED there; a passing reload returns its streams, a
failing one fences it with reason RELOAD; CMP16 is idle again once nothing it carried runs. -/
def Obligations.CompositorsAreReplaced : Prop :=
  ∀ (s : State) (k : Nat),
    ((s.cmp 16).carry = 0 → (s.cmp 16).phase = 0 → (s.cmp 16).fwDue = false → s.fenced (uCmp 16) = false → (List.range 16).find? s.waitsReplace = some k → k < 16 →
      Gives .cmpReplaceStart s (fun t => (t.cmp k).phase = 1 ∧ (t.cmp 16).carry = k + 1 ∧ (∀ j, j ≠ k → j ≠ 16 → t.cmp j = s.cmp j) ∧
        SameMemory s t ∧ SameRegs s t (fun _ => False))) ∧
    ((s.cmp 16).carry = k + 1 → (s.cmp k).phase = 1 →
      Gives .cmpCopyDone s (fun t => (t.cmp k).phase = 2 ∧ (∀ j, j ≠ k → t.cmp j = s.cmp j) ∧ SameMemory s t ∧ SameRegs s t (fun _ => False))) ∧
    (s.reloads = some k →
      ((s.unit (uCmp k)).due = none → Gives .cmpReload s (fun t => (t.cmp k).phase = 3 ∧ (∀ j, j ≠ k → t.cmp j = s.cmp j) ∧ t.units = s.units ∧
        SameMemory s t ∧ SameRegs s t (fun _ => False))) ∧
      (∀ why, (s.unit (uCmp k)).due = some why → exec .cmpReload s = .next
        ((((((s.modCmp k (fun x => { x with phase := 5, fwDue := false })).markFenced (uCmp k) why).fenceAnswer (uCmp k) .ok).cmpFenceDue)).fwCheck))) ∧
    (([16] ++ List.range 16).find? (fun k => (s.cmp k).phase == 3) = some k →
      exec (.cmpReloadDone true) s = .next (s.reloadPassed k) ∧ exec (.cmpReloadDone false) s = .next (s.reloadFailed k)) ∧
    ((s.cmp 16).carry = k + 1 → k < 16 → (s.cmp k).phase = 4 →
      s.ctxs.any (fun p => match p.2.inv with | some v => v.streams.any (fun st => st.carried) | none => false) = false →
      Gives .cmpCarryEnd s (fun t => (t.cmp k).phase = 0 ∧ (t.cmp 16).carry = 0 ∧ (∀ j, j ≠ k → j ≠ 16 → t.cmp j = s.cmp j) ∧
        SameMemory s t ∧ SameRegs s t (fun _ => False)))

/-- R36, R39, R269 to R272, R291 to R294: a host read of BAR2 answers the byte that each offset stands for and stores nothing; a
byte written through BAR2, the rotate alias, the set alias, the clear alias or the aperture changes exactly the byte its offset
stands for, as that window says; with SPD.CTRL.MAINT = 0 the set and clear aliases change nothing and the request counts. -/
def Obligations.MemoryWindowsReachTheirBytes : Prop :=
  ∀ (s : State) (o : Nat) (b : Byte),
    let x := o % 0x10000000
    let c := x / 0x400000
    let rot := 0x10000000 + (x / 64 * 64 + (x % 64 + s.reg .spd c 0x44 % 64) % 64)
    let lp := s.reg64 .hif 0 0x50 + (o - 0x80000000)
    (∀ n, (∀ a, s.underMarch a = false) → Gives (.bar2Access (.read o n)) s (fun t => SameMemory s t ∧ t.host.unsup = false ∧
      t.host.reply = (List.range n).map (fun i => match s.bar2Byte (o + i) with | .mem a _ => s.memByte a | .lp a => s.lpByte a | .none => 0#8))) ∧
    (o / 0x10000000 = 1 → s.cluOn c = true → Gives (.bar2Access (.write o [some b])) s (fun t =>
      t.memByte o = b ∧ (∀ a, a ≠ o → t.memByte a = s.memByte a) ∧ ∀ a, t.lpByte a = s.lpByte a)) ∧
    (o < galEnd → s.domOn (36 + sliceOf o) = true → s.fenced (uSlice (sliceOf o)) = false → Gives (.bar2Access (.write o [some b])) s (fun t =>
      t.memByte o = b ∧ (∀ a, a ≠ o → t.memByte a = s.memByte a) ∧ ∀ a, t.lpByte a = s.lpByte a)) ∧
    (Gives (.bar2Access (.write o [none])) s (fun t => SameMemory s t)) ∧
    (o / 0x10000000 = 2 → s.cluOn c = true →
      Gives (.rotateAliasAccess (.write o [some b])) s (fun t => t.memByte rot = b ∧ (∀ a, a ≠ rot → t.memByte a = s.memByte a) ∧ ∀ a, t.lpByte a = s.lpByte a) ∧
      (s.underMarch rot = false → Gives (.rotateAliasAccess (.read o 1)) s (fun t => t.host.reply = [s.memByte rot] ∧ SameMemory s t))) ∧
    (o / 0x10000000 = 3 → s.cluOn c = true → s.reg .spd c 0x40 % 2 = 1 → Gives (.setAliasWrite (.write o [some b])) s (fun t =>
      t.memByte (0x10000000 + x) = s.memByte (0x10000000 + x) ||| b ∧ (∀ a, a ≠ 0x10000000 + x → t.memByte a = s.memByte a) ∧ ∀ a, t.lpByte a = s.lpByte a)) ∧
    (o / 0x10000000 = 4 → s.cluOn c = true → s.reg .spd c 0x40 % 2 = 1 → Gives (.clearAliasWrite (.write o [some b])) s (fun t =>
      t.memByte (0x10000000 + x) = s.memByte (0x10000000 + x) &&& ~~~b ∧ (∀ a, a ≠ 0x10000000 + x → t.memByte a = s.memByte a) ∧ ∀ a, t.lpByte a = s.lpByte a)) ∧
    (o / 0x10000000 = 3 → s.cluOn c = true → s.reg .spd c 0x40 % 2 = 0 → Gives (.setAliasWrite (.write o [some b])) s (fun t =>
      SameMemory s t ∧ t.reg .hif 0 0x58 = satNat 32 (s.reg .hif 0 0x58 + 1))) ∧
    (0x80000000 ≤ o → o < 0xC0000000 → s.lpReady = true → s.domOn 48 = true → s.domOn 49 = true → lp < s.lpCap →
      Gives (.apertureAccess (.write o [some b])) s (fun t => t.lpByte lp = b ∧ (∀ a, a ≠ lp → t.lpByte a = s.lpByte a) ∧ ∀ a, t.memByte a = s.memByte a) ∧
      Gives (.apertureAccess (.read o 1)) s (fun t => t.host.reply = [s.lpByte lp] ∧ SameMemory s t))

/-- R290 to R292, R295: a trained channel shows its density, READY and INITDONE; training fails on both channels when a channel
has no device or another density; the patrol advances over the channel's blocks, counts corrections and those of link ECC, and
reports an uncorrectable block; MR4 sets the rate. -/
def Obligations.ExternalMemoryIsMaintained : Prop :=
  ∀ (s : State) (c d link : Nat), c ≤ 1 → s.domOn (48 + c) = true →
    (d ≤ 3 → bit (s.reg .lpx c 0x44) 9 = false → 6 ≤ s.sec.stage →
      ((d ≠ 0 ∧ (FMap.get 0 s.lpx (5 - c) = 1 → bits (s.reg .lpx (1 - c) 0x44) 7 4 = d)) →
        Gives (.lpxTrainingDone c d) s (fun t => t.reg .lpx c 0x44 = s.reg .lpx c 0x40 % 4 + d * 16 + 0x300 ∧ SameMemory s t ∧
          SameRegs s t (fun off => off = rOff .lpx c 0x44))) ∧
      (d = 0 → Gives (.lpxTrainingDone c d) s (fun t => t.reg .lpx 0 0x44 = s.reg .lpx 0 0x40 % 4 ∧ t.reg .lpx 1 0x44 = s.reg .lpx 1 0x40 % 4 ∧ SameMemory s t ∧
          SameRegs s t (fun off => off = rOff .lpx 0 0x44 ∨ off = rOff .lpx 1 0x44)))) ∧
    (bits (s.reg .lpx c 0x40) 15 8 ≠ 0 → s.lpReady = true →
      let i := FMap.get 0 s.lpx (2 * c)
      let a := chanBlock c i
      let nxt := fun (t : State) => FMap.get 0 t.lpx (2 * c) = (if (i + 1) * 128 ≥ s.lpCap then 0 else i + 1)
      (FMap.get false s.lpBad (a / 64) = false →
        Gives (.lpxPatrolScrub c ⟨0, link⟩) s (fun t => nxt t ∧ t.reg .lpx c 0x60 = satNat 32 (s.reg .lpx c 0x60 + link) ∧ SameMemory s t ∧ SameRegs s t (fun off => off = rOff .lpx c 0x60)) ∧
        Gives (.lpxPatrolScrub c ⟨1, link⟩) s (fun t => nxt t ∧ t.reg .lpx c 0x60 = satNat 32 (s.reg .lpx c 0x60 + link) ∧ t.reg .lpx c 0x48 = satNat 32 (s.reg .lpx c 0x48 + 1) ∧ t.reg64 .lpx c 0x50 = a % 2 ^ 64 ∧ SameMemory s t)) ∧
      Gives (.lpxPatrolScrub c ⟨2, link⟩) s (fun t => nxt t ∧ t.reg .lpx c 0x60 = satNat 32 (s.reg .lpx c 0x60 + link) ∧ FMap.get false t.lpBad (a / 64) = true ∧ SameMemory s t ∧
        t.reports = s.reports ++ [{ kind := 0x14, detail := a % 65536 }])) ∧
    (∀ rate, Gives (.lpxMr4Poll c rate) s (fun t => FMap.get 0 t.lpx (2 * c + 1) = rate ∧ SameMemory s t ∧ SameRegs s t (fun _ => False)))

/-- R434 to R436, R439, R443: a Colophon write's next step starts when the supply check passes, with the energy of its pages
shown, or waits and counts once in COL.DENYCNT; a step that ends leaves its bytes, counts its page operations and goes on to the
next step, and the last one ends the write; a command's write whose step has waited too long leaves the queue and completes with
E_POWER, a password change with PWFAIL. -/
def Obligations.ColophonWritesProceed : Prop :=
  ∀ (s : State) (w : ColWrite) (r : List ColWrite), s.col.queue = w :: r →
    (∀ st more, w.active = none → w.steps = st :: more →
      let b := s.stepBytes st
      (s.supplyOk b.2.2.2 = true → Gives .colophonStepStart s (fun t =>
        t.col = { s.col with queue := { w with active := some (b.1, b.2.1, b.2.2.1), denied := false } :: r } ∧
        t.reg .hld 0 0x58 = satNat 32 (s.reg .hld 0 0x58 + 1) ∧ t.reg .hld 0 0x5C = min (4 * b.2.2.2) 65535 + 65536 ∧
        SameMemory s t ∧ SameRegs s t (fun off => off = rOff .hld 0 0x58 ∨ off = rOff .hld 0 0x5C))) ∧
      (s.supplyOk b.2.2.2 = false → Gives .colophonStepStart s (fun t =>
        t.col = { s.col with queue := { w with denied := true } :: r } ∧ t.reg .hld 0 0x5C = min (4 * b.2.2.2) 65535 ∧
        t.reg .col 0 0x74 = (if w.denied then s.reg .col 0 0x74 else satNat 32 (s.reg .col 0 0x74 + 1)) ∧
        SameMemory s t ∧ SameRegs s t (fun off => off = rOff .hld 0 0x5C ∨ off = rOff .col 0 0x74)))) ∧
    (∀ a bs pg st more, w.active = some (a, bs, pg) → w.steps = st :: more → (st.home < 64 ∨ 96 ≤ st.home) →
      (more ≠ [] → Gives .colophonStepEnd s (fun t =>
        t.col = { s.col with mem := colPut s.col.mem a bs, queue := { w with steps := more, active := none, denied := false } :: r } ∧
        t.reg64 .col 0 0x68 = (if pg = 0 then s.reg64 .col 0 0x68 else satNat 64 (s.reg64 .col 0 0x68 + pg)) ∧ SameMemory s t)) ∧
      (more = [] → ∃ z : State, z.col = { s.col with mem := colPut s.col.mem a bs, queue := r } ∧
        z.reg .col 0 0x70 = satNat 32 (s.reg .col 0 0x70 + 1) ∧ SameMemory s z ∧
        exec .colophonStepEnd s = .next (match w.job with | none => z.ownDone w | some e => z.cmdDone w e))) ∧
    (∀ x l, takeJob s.col.queue = some (x, l) →
      let z := s.withCol { s.col with queue := l }
      (∀ e, x.job = some e → exec .colophonWriteTimeout s = .next (z.cmdDenied x e) ∧ (x.k = 17 ∨ x.k = 18 → z.cmdDenied x e = z.complete e .power 0 0)) ∧
      (x.job = none → Gives .colophonWriteTimeout s (fun t => t.col = { s.col with queue := l, pwBusy := false, pwFail := true } ∧
        SameMemory s t ∧ SameRegs s t (fun _ => False))))

/-- R31, R446: a completed power-on hour counts and asks for DEVICE in place of the write of an hour that waits; DEV_COMMIT asks
for SETTINGS, every retained word as it is now, and then DEVICE. -/
def Obligations.SettingsAndHoursAreWritten : Prop :=
  ∀ (s : State),
    (s.powered = true → s.col.mounted = true → Gives .powerOnHour s (fun t =>
      let h := s.withCol { s.col with hours := satNat 32 (s.col.hours + 1) }
      t.col = { s.col with hours := satNat 32 (s.col.hours + 1), queue := s.col.queue.filter (fun w => !(w.k == 21 && w.active.isNone)) ++ [{ steps := [deviceStep h], k := 21 }] } ∧
      SameMemory s t ∧ SameRegs s t (fun _ => False))) ∧
    (∀ e, Begins s e 1 → entryBad e [2] false [] false = none → Gives (.devCommit e) s (fun t =>
      t.col = { s.col with queue := s.col.queue ++ [{ steps := [{ home := 0, recs := [(0, rwkWords.flatMap (fun o => leBytes 4 (s.rd o)))] }, deviceStep s], k := 18, job := some e }] } ∧ SameMemory s t ∧ SameRegs s t (fun _ => False)))

/-- R442, R444, R445: COL_READ hands over the bytes asked for and COL_WRITE asks for its page write, once the checks pass; a
range out of bounds, a locked region, a wrong password (one more attempt, the eighth locks the region) and pages 228 to 255 are
turned away; PWCTL with GO and the right old password asks for the PASSWORD home with the new one in its place. -/
def Obligations.ColophonAccessIsChecked : Prop :=
  ∀ (s : State) (e : Entry),
    let z := s.marked e
    let p := e.p 8 2
    let f := e.p 10 2
    let n := e.p 12 4
    let r := regionOf p
    let good := fun (wr : Bool) => entryBad e (if wr then [2] else [2, 3]) false [(8, 24)] false = none ∧ 1 ≤ n ∧ n ≤ 1024 ∧ p ≤ 255 ∧ f ≤ 1023 ∧
      p + (f + n - 1) / 1024 ≤ 255 ∧ regionOf p = regionOf (p + (f + n - 1) / 1024)
    let pw := fun (wr : Bool) => nth 0 s.col.pw (2 * r + b2n wr)
    let once := z.withCol { s.col with tries := setNth s.col.tries r 0 }
    (∀ x, Begins s e 0x0F → z.colCheck e false = (x, none) →
      exec (.colRead e) s = .next ((x.cmdWrite e (e.p 16 8) (x.colBytes (1024 * p + f) n)).complete e .ok n 0)) ∧
    (∀ x data, Begins s e 0x10 → z.colCheck e true = (x, none) → exec (.colWrite e data) s = .next
      (x.colQueue { steps := [{ home := 128, recs := [(1024 * p + f, sliceB data 0 n)] }], k := 17, job := some e, args := [n] })) ∧
    (∀ x c, Begins s e 0x0F → z.colCheck e false = (x, some c) → exec (.colRead e) s = .next (x.complete e c 0 0)) ∧
    (∀ x c data, Begins s e 0x10 → z.colCheck e true = (x, some c) → exec (.colWrite e data) s = .next (x.complete e c 0 0)) ∧
    (∀ wr, entryBad e (if wr then [2] else [2, 3]) false [(8, 24)] false = none → (n = 0 ∨ n > 1024 ∨ p > 255 ∨ f > 1023) → z.colCheck e wr = (z, some .range)) ∧
    (∀ wr, good wr → nth false s.col.locked r = true → z.colCheck e wr = (z, some .lock)) ∧
    (∀ wr, good wr → nth false s.col.locked r = false → s.locked 6 = false →
      (pw wr ≠ 0 → pw wr ≠ e.p 24 8 → z.colCheck e wr = (z.withCol { s.col with tries := setNth s.col.tries r (nth 0 s.col.tries r + 1), locked := if nth 0 s.col.tries r + 1 ≥ 8 then setNth s.col.locked r true else s.col.locked }, some .lock)) ∧
      ((pw wr = 0 ∨ pw wr = e.p 24 8) → p < 224 → s.busyPages = [] → p + (f + n + 1023) / 1024 ≤ 224 → z.colCheck e wr = (once, none)) ∧
      ((pw wr = 0 ∨ pw wr = e.p 24 8) → 228 ≤ p → z.colCheck e wr = (once, some .lock))) ∧
    (∀ value : Word, let r := bits value.toNat 1 0
      let i := 2 * r + b2n (bit value.toNat 2)
      s.regBad (rOff .col 0 0x50) value.toNat = none → bit value.toNat 31 = true → nth false s.col.locked r = false →
      (nth 0 s.col.pw (2 * r + 1) = 0 ∨ nth 0 s.col.pw (2 * r + 1) = s.col.pwOld) → s.col.pwBusy = false →
      Gives (.passwordChange value) s (fun t => t.col = { s.col with pwBusy := true, pwFail := false, tries := setNth s.col.tries r 0, queue := s.col.queue ++ [{ steps := [{ home := 37, recs := [(0, (setNth s.col.pw i s.col.pwNew).flatMap (fun p => leBytes 8 p))] }], k := 19, args := [i, s.col.pwNew] }] } ∧ SameMemory s t ∧ SameRegs s t (fun _ => False)))

/-- R449 to R452, R457: a measurement ends with CAP (10 mA times the rise over 1 V; the rounding is the model's free value, log
69) and ABSENT, FAULT or CHARGING; the node READY, its fault and EUSABLE follow its voltage; REMEASURE with GO measures again
while no Colophon write waits; a fall of VDD_AON leaves the bytes of a step in progress new, or without enough energy new up to
a point and 0xFF beyond. -/
def Obligations.HoldupEnergyIsManaged : Prop :=
  ∀ (s : State) (mv : Nat), s.powered = true →
    let kept := fun (t : State) => SameMemory s t ∧ SameRegs s t (fun _ => False) ∧ t.col = s.col
    (∀ micros reached, s.hld.measuring = true → Gives (.holdupMeasureDone micros reached) s (fun t =>
      t.hld.measuring = false ∧ (t.hld.cap = satNat 16 (micros / 100) ∨ (micros % 100 ≠ 0 ∧ t.hld.cap = satNat 16 (micros / 100 + 1))) ∧
      t.hld.vtarget = vTarget t.hld.cap ∧ (micros > 540000 ∨ reached = false → t.hld.st = 3 ∧ t.hld.why = 1) ∧
      (reached = true → micros < 25000 → t.hld.st = 2) ∧ (reached = true → 25000 ≤ micros → micros ≤ 540000 → t.hld.st = 0) ∧ kept t)) ∧
    (s.hld.measuring = false →
      let follows := fun (t : State) => t.hld.vhold = mv ∧ (mv ≤ 2000 → t.hld.eusable = 0) ∧
        (mv > 2000 → let e := s.hld.cap * 475 * (mv * mv - 4000000)
          t.hld.eusable = satNat 16 (e / 1000000000) ∨ (e % 1000000000 ≠ 0 ∧ t.hld.eusable = satNat 16 (e / 1000000000 + 1)))
      Gives (.eusableUpdate mv) s (fun t => follows t ∧ t.hld.st = s.hld.st ∧ kept t) ∧
      (s.hld.st = 0 → 98 * s.hld.vtarget ≤ mv * 100 → Gives (.holdupReady mv) s (fun t => follows t ∧ t.hld.st = 1 ∧ kept t)) ∧
      (s.hld.st = 1 → mv * 10 < 9 * s.hld.vtarget → s.hld.mainGood = true → s.busyPages = [] →
        Gives (.holdupDroop mv) s (fun t => follows t ∧ t.hld.st = 3 ∧ t.hld.why = 2 ∧ kept t))) ∧
    (∀ value : Word, s.regBad (rOff .hld 0 0x60) value.toNat = none → bit value.toNat 0 = true →
      (s.col.queue = [] → s.hld.measuring = false → Gives (.remeasure value) s (fun t => t.hld = { s.hld with measuring := true } ∧ kept t)) ∧
      (s.col.queue ≠ [] → exec (.remeasure value) s = .next (s.rejectOff (rOff .hld 0 0x60) .busy))) ∧
    (∀ written, Gives (.vddAonFall written) s (fun t => t.powered = false ∧ t.host.writes = s.host.writes ∧ t.sec.flash = s.sec.flash ∧
      (s.busyPages = [] → s.col.queue = [] → t.col.mem = s.col.mem) ∧
      (∀ w r a bs pg, s.col.queue = w :: r → w.active = some (a, bs, pg) →
        let e := if pg = 0 then 4 else 60 * pg
        (4 * e ≤ s.eusable → t.col.mem = colPut s.col.mem a bs) ∧
        (s.eusable < 4 * e → t.col.mem = colPut s.col.mem a (bs.take written ++ List.replicate (bs.length - written) 0xFF#8)))))

/-- R4, R6, R488, R489, R512, R542, R543: an asserted PERST_N and a supply that droops put every register that is not retained,
every context, operation and command back to power-up and leave retained words, the Colophon, the holdup controller and the
flash; the release, and the supplies' recovery, sample ROLE and begin stage 1, which ROLE 0b11 stops; a shutdown with cause TEMP
restarts at stage 2 with the role and the locks kept; a PERST_N asserted during it waits. -/
def Obligations.ResetsKeepWhatIsRetained : Prop :=
  ∀ (s : State),
    let gone := fun (locks : Bool) (t : State) => (∀ off, t.rd off = if survives locks off then s.rd off else (wordReset off).toNat) ∧
      t.ctxs = [] ∧ t.ops = [] ∧ t.jobs = [] ∧ t.queues = [] ∧ t.reports = [] ∧ t.col.mem = s.col.mem ∧ t.col.hours = s.col.hours ∧
      t.hld = s.hld ∧ t.hkc = s.hkc ∧ t.sec.flash = s.sec.flash ∧ t.host.writes = s.host.writes
    let starts := fun (role : Nat) (t : State) => t.sec.stage = 1 ∧ t.sec.role = role % 4 ∧ (role % 4 ≠ 3 → t.sec.fail = s.sec.fail) ∧
      (role % 4 = 3 → t.sec.fail = true ∧ t.sec.bcode = Code.rsvd.num ∧ (t.page 0).errCode = Code.rsvd.num ∧ (t.page 0).errOff = 0) ∧
      (role % 4 = 0 ∨ role % 4 = 3 → t.domOn 46 = false ∧ t.domOn 47 = false)
    (s.powered = false → Gives .powerUp s (fun t => t.powered = true ∧ t.col.isolated = false ∧ SameRegs s t (fun _ => False))) ∧
    (s.perst = false → s.powered = true → s.thm.shutdown ≠ 1 → Gives .perstNAssert s (fun t => t.perst = true ∧ t.sec.cause = 1 ∧ t.thm.tripN = true ∧ gone false t)) ∧
    (s.perst = false → s.powered = true → s.thm.shutdown = 1 → exec .perstNAssert s = .next (s.withPerst true)) ∧
    (∀ role, s.powered = true → s.perst = true → s.thm.shutdown = 0 → s.railOk = true → Gives (.perstNRelease role) s (fun t => t.perst = false ∧ starts role t)) ∧
    (s.powered = true → s.perst = false → s.railOk = true → s.thm.shutdown = 0 → Gives .railDroop s (fun t => t.railOk = false ∧ t.sec.cause = 0 ∧ gone false t)) ∧
    (∀ role, s.powered = true → s.railOk = false → s.perst = false → Gives (.railRecovery role) s (fun t => t.railOk = true ∧ t.sec.cause = 0 ∧ starts role t)) ∧
    (s.powered = true → s.thm.shutdown = 1 → 10 ≤ s.thm.cool → s.perst = false → Gives .thermalRestart s (fun t =>
      t.thm.shutdown = 0 ∧ t.thm.tripN = true ∧ t.sec.stage = 2 ∧ t.sec.role = s.sec.role ∧ t.sec.cause = 2 ∧ t.reg .sec 0 0x40 = s.reg .sec 0 0x40))

/-- R508 to R510, R519, R520: the stage in progress ends and the next begins; stage 3 stops for want of a FACTORY record; stage
5 boots the active slot's image if it verifies, then the other STAGED slot's, and enters RECOVERY when neither does. -/
def Obligations.BootStagesFollow : Prop :=
  ∀ (s : State), s.powered = true → s.perst = false → s.railOk = true → s.thm.shutdown = 0 → s.sec.fail = false →
    let goes := fun (n : Nat) => Gives .bootStageComplete s (fun t => t.sec.stage = n ∧ t.sec.fail = false)
    (s.sec.stage = 1 → Gives .bootStageComplete s (fun t => t.sec.stage = 2 ∧ t.hld.mainGood = true ∧ (s.hld.st ≠ 1 → t.hld.measuring = true))) ∧
    (s.sec.stage = 2 → s.scalRunning = false → goes 3) ∧
    (s.sec.stage = 3 → s.busyPages = [] → s.payload 36 0 = none → Gives .bootStageComplete s (fun t => t.sec.stage = 3 ∧ t.sec.fail = true ∧ t.sec.bcode = Code.digest.num)) ∧
    (s.sec.stage = 3 → s.busyPages = [] → s.payload 36 0 ≠ none → Gives .bootStageComplete s (fun t => t.sec.stage = 4)) ∧
    (s.sec.stage = 4 → Gives .bootStageComplete s (fun t => t.sec.stage = 5)) ∧
    (s.sec.stage = 5 →
      let d := s.fwDir.1
      let a := s.trySlot d.active
      (a.2.2 = none → Gives .bootStageComplete s (fun t => t.sec.stage = 6 ∧ t.sec.booted = d.active ∧ t.sec.fallback = false ∧ t.sec.meas = fwMeas a.2.1)) ∧
      (∀ c, a.2.2 = some c → bit d.staged (1 - d.active) = true → (a.1.trySlot (1 - d.active)).2.2 = none →
        Gives .bootStageComplete s (fun t => t.sec.stage = 6 ∧ t.sec.booted = 1 - d.active ∧ t.sec.meas = fwMeas (a.1.trySlot (1 - d.active)).2.1)) ∧
      (∀ c, a.2.2 = some c → bit d.staged (1 - d.active) = false → Gives .bootStageComplete s (fun t =>
        t.sec.fail = true ∧ t.sec.recovery = true ∧ t.sec.bcode = c.num))) ∧
    (s.sec.stage = 6 → goes 7) ∧
    (s.sec.stage = 7 → (∀ ch, ch ≤ 1 → FMap.get 0 s.lpx (4 + ch) ≠ 0 ∨ s.domOn (48 + ch) = false) → Gives .bootStageComplete s (fun t => t.sec.stage = 8 ∧ t.mem = [])) ∧
    (s.sec.stage = 8 → s.arrays.any (fun p => p.2.readDue) = false → goes 9) ∧
    (s.sec.stage = 9 → Gives .bootStageComplete s (fun t => t.sec.stage = 10))

/-- R554 to R556: a Hot Reset or a link-down returns HIF and the queues to power-up, keeps the commands in flight without their
answers, and changes no other register and no memory; a trained link has one of the widths and speeds of R554 (which is the
model's free value, log 69); L1 and D3hot are entered, and D3hot stops fetching on every queue. -/
def Obligations.TheHostLinkComesAndGoes : Prop :=
  ∀ (s : State),
    Gives .hotReset s (fun t => SameMemory s t ∧ t.ctxs = s.ctxs ∧ t.ops = s.ops ∧ t.host.writes = s.host.writes ∧ t.host.linkUp = false ∧
      t.queues = FMap.mapVals {} (fun _ q => { inflight := q.inflight.map (fun x => { x with lost := true }) }) s.queues ∧
      (∀ off, (∀ i, pageAt (off / 4096) ≠ some (.hif, i) ∧ pageAt (off / 4096) ≠ some (.que, i)) → t.rd off = s.rd off)) ∧
    (s.powered = true → s.perst = false → s.thm.shutdown = 0 → s.domOn 45 = true → s.host.linkUp = false → Gives .pcieLinkUp s (fun t =>
      t.host.linkUp = true ∧ 3 ≤ bits t.host.link 3 0 ∧ bits t.host.link 3 0 ≤ 5 ∧ [1, 2, 4, 8].contains (bits t.host.link 8 4) = true ∧ SameMemory s t ∧ SameRegs s t (fun _ => False))) ∧
    (s.host.linkUp = true → Gives .aspmL1Entry s (fun t => t.host = { s.host with l1 := true } ∧ SameMemory s t ∧ SameRegs s t (fun _ => False))) ∧
    (s.host.linkUp = true → Gives .d3hotEntry s (fun t => t.host = { s.host with d3hot := true } ∧ (∀ q, q < 4 → t.reg .que q 0x68 = 0) ∧
      SameMemory s t ∧ SameRegs s t (fun off => ∃ q, off = rOff .que q 0x68)))

/-- R479 to R485: a good reading of the diode sets TEMP, its peak and the state with R481's thresholds (105 °C and 100 °C, 95 °C
and 90 °C), and the published reading follows a change of state or of 1 °C; the first bad reading of a kind changes nothing but
the count of them, the second makes the diode faulty and enters SENSOR FAULT; when the grace time ends in THROTTLE, enforcement
begins and counts. -/
def Obligations.TheDieTemperatureIsSupervised : Prop :=
  ∀ (s : State), s.powered = true →
    (∀ q : Int, -240 ≤ q → q ≤ 640 → s.thm.flt = 0 → Gives (.diodeReading (.temp q)) s (fun t =>
      t.thm.temp = q ∧ t.thm.valid = true ∧ t.thm.bad = 0 ∧ t.thm.peak = (if s.thm.peakSet then max s.thm.peak q else q) ∧
      (420 ≤ q → t.thm.st = 2) ∧ (400 ≤ q → s.thm.st = 2 → t.thm.st = 2) ∧ (380 ≤ q → q < 400 → t.thm.st = 1) ∧
      (400 ≤ q → q < 420 → s.thm.st ≠ 2 → t.thm.st = 1) ∧ (360 ≤ q → q < 380 → s.thm.st = 1 ∨ s.thm.st = 2 → t.thm.st = 1) ∧
      (360 ≤ q → q < 380 → s.thm.st = 0 → t.thm.st = 0) ∧ (q < 360 → t.thm.st = 0) ∧
      t.thm.pub = (if t.thm.st ≠ s.thm.st ∨ 4 ≤ (q - s.thm.pub).natAbs then q else s.thm.pub) ∧ SameMemory s t)) ∧
    (∀ d, diodeFault d ≠ 0 →
      (s.thm.bad ≠ diodeFault d → Gives (.diodeReading d) s (fun t => t.thm.bad = diodeFault d ∧ t.thm.st = s.thm.st ∧ t.thm.flt = s.thm.flt ∧
        t.thm.temp = s.thm.temp ∧ SameMemory s t ∧ SameRegs s t (fun _ => False))) ∧
      (s.thm.bad = diodeFault d → s.thm.st ≠ 3 → Gives (.diodeReading d) s (fun t => t.thm.flt = diodeFault d ∧ t.thm.valid = false ∧ t.thm.st = 3 ∧
        t.thm.enforced = true ∧ t.reg .thm 0 0x60 = satNat 32 (s.reg .thm 0 0x60 + 1) ∧ SameMemory s t))) ∧
    (s.thm.st = 2 → s.thm.grace = true → Gives .graceExpiry s (fun t => t.thm = { s.thm with grace := false, enforced := true } ∧
      t.reg .thm 0 0x64 = satNat 32 (s.reg .thm 0 0x64 + 1) ∧ SameMemory s t ∧ SameRegs s t (fun off => off = rOff .thm 0 0x64)))

/-- R485, R486, R488, R490, R502: the comparator's trip, and SENSOR FAULT that has lasted with a faulty diode, shut the device
down: THERMTRIP_N low, every switched domain off, the contexts gone, a THERMLOG entry asked for, the locks kept; PEAKCLR takes
the present reading as the peak; TRIP, once locked, only goes down. -/
def Obligations.TheDeviceShutsDownWhenTooHot : Prop :=
  ∀ (s : State),
    let down := fun (cause : Nat) (t : State) => t.thm.shutdown = cause ∧ t.thm.tripN = false ∧ (∀ d, d < 50 → t.domOn d = false) ∧ t.ctxs = [] ∧
      t.col.mem = s.col.mem ∧ t.hld = s.hld ∧ t.reg .sec 0 0x40 = s.reg .sec 0 0x40 ∧ t.reg .thm 0 0x44 = s.reg .thm 0 0x44 ∧
      t.col.queue = colKept s.col.queue ++ [{ steps := [thermStep t] }]
    (s.powered = true → s.thm.shutdown = 0 → Gives .thermalTrip s (down 1)) ∧
    (s.powered = true → s.thm.shutdown = 0 → s.thm.st = 3 → s.thm.flt ≠ 0 → Gives .sensorFaultTimeout s (down 2)) ∧
    (∀ value : Word, s.regBad (rOff .thm 0 0x54) value.toNat = none → bit value.toNat 0 = true →
      Gives (.peakclr value) s (fun t => t.thm = { s.thm with peak := s.thm.temp, peakSet := s.thm.valid } ∧ SameMemory s t ∧ SameRegs s t (fun _ => False))) ∧
    (∀ value : Word, s.regBad (rOff .thm 0 0x44) value.toNat = none →
      ((bit (s.reg .thm 0 0x44) 31 = false ∨ (bit value.toNat 31 = true ∧ bits value.toNat 6 0 ≤ bits (s.reg .thm 0 0x44) 6 0)) →
        Gives (.tripWrite value) s (fun t => t.reg .thm 0 0x44 = value.toNat ∧ t.thm = s.thm ∧ SameMemory s t ∧ SameRegs s t (fun off => off = rOff .thm 0 0x44))) ∧
      (bit (s.reg .thm 0 0x44) 31 = true → (bit value.toNat 31 = false ∨ bits (s.reg .thm 0 0x44) 6 0 < bits value.toNat 6 0) →
        exec (.tripWrite value) s = .next (s.rejectOff (rOff .thm 0 0x44) .lock)))

/-- R492: an accepted write of QFREQ stops each quadrant whose frequency changes, and with nothing in flight it goes on at the
frequency that QFREQ then holds. R496, R507: a peer whose ALIVE falls closes the pair's crossings on both sides, one closure
counted, and the words that had not crossed and what is presented meanwhile count; with both ALIVE high again the pair is open.
-/
def Obligations.QuadrantsRelockAndCrossingsClose : Prop :=
  (∀ (s : State),
      (∀ value : Word, s.regBad (rOff .pwr 0 0x50) value.toNat = none → Gives (.qfreqWrite value) s (fun t =>
        (∀ n, n < 4 → t.quad n = (if bits value.toNat (8 * n + 7) (8 * n) = s.quad n then s.quad n else s.quad n % 256 + 256)) ∧
        t.reg .pwr 0 0x50 = value.toNat ∧ SameMemory s t ∧ SameRegs s t (fun off => off = rOff .pwr 0 0x50))) ∧
      (∀ n, n ≤ 3 → s.relocking n = true → s.quadBusy n = false → Gives (.qfreqRelock n) s (fun t =>
        t.quad n = bits (s.reg .pwr 0 0x50) (8 * n + 7) (8 * n) ∧ (∀ j, j ≠ n → t.quad j = s.quad j) ∧ SameMemory s t ∧ SameRegs s t (fun _ => False)))) ∧
  (∀ (s : State) (a b : Nat), crossed a b = true →
      (∀ lost dropped, Gives (.crossingClose a b lost dropped) s (fun t =>
        (t.xngAt a b).closed = true ∧ (t.xngAt b a).closed = true ∧ (t.xngAt a b).lost = satNat 32 ((s.xngAt a b).lost + lost.lost) ∧ (t.xngAt a b).merged = satNat 32 ((s.xngAt a b).merged + lost.merged) ∧
        (t.xngAt a b).dropw = satNat 32 ((s.xngAt a b).dropw + dropped) ∧ (t.xngAt b a).lost = (s.xngAt b a).lost ∧
        (t.xngAt a b).closes = (if (s.xngAt a b).closed then (s.xngAt a b).closes else satNat 32 ((s.xngAt a b).closes + 1)) ∧
        (t.xngAt b a).closes = (if (s.xngAt b a).closed then (s.xngAt b a).closes else satNat 32 ((s.xngAt b a).closes + 1)) ∧
        SameMemory s t ∧ SameRegs s t (fun _ => False))) ∧
      Gives (.crossingReopen a b) s (fun t => (t.xngAt a b).closed = false ∧ (t.xngAt b a).closed = false ∧
        (t.xngAt a b).lost = (s.xngAt a b).lost ∧ (t.xngAt a b).closes = (s.xngAt a b).closes ∧ SameMemory s t ∧ SameRegs s t (fun _ => False)))

/-- R498 to R501: an accepted request changes GATE or DCTL, and requests then take effect: a domain that is OFF and requested
on, or ON and requested off, starts its sequence once those it depends on allow it; a domain whose work has retired goes OFF and
counts, and one whose crossings have reopened is ON. A request that R5 or R499 forbids is rejected with E_STATE. -/
def Obligations.PowerRequestsTakeEffect : Prop :=
  ∀ (s : State),
    (∀ d, d < 50 → s.thm.shutdown = 0 → s.perst = false → s.railOk = true →
      (s.requested d = true → s.staysOff d = false → (s.dom d).st = 0 → (d < 32 → (s.dom (32 + d / 8)).st = 2) → (36 ≤ d → d ≤ 39 → (s.dom 40).st = 2) →
        (s.powerEval.dom d).st = 1) ∧
      (s.requested d = false → (s.dom d).st = 2 → (d < 32 ∨ 36 ≤ d ∧ d ≤ 39 ∨ 41 ≤ d) → (s.powerEval.dom d).st = 3)) ∧
    (∀ offset (value : Word) t i, pageAt (offset / 4096) = some (t, i) → offset % 4096 = 8 → offset ≠ rOff .pwr 0 0x5C → value.toNat ≤ 3 →
      let z := s.modPage (offset / 4096) (fun h => { h with gate := value.toNat })
      (∀ d, domOf t i = some d → firstBad (s.requestBad z d (bit value.toNat 0)) = none → exec (.powerRequestWrite offset value) s = .next z.powerEval) ∧
      (∀ d, domOf t i = some d → s.staysOff d = true → bit value.toNat 0 = true → exec (.powerRequestWrite offset value) s = .next (s.reject (offset / 4096) .state 8)) ∧
      (∀ d, domOf t i = some d → s.requested d = true → z.requested d = false → s.keepsOn d = true →
        exec (.powerRequestWrite offset value) s = .next (s.reject (offset / 4096) .state 8))) ∧
    (∀ value : Word, s.regBad (rOff .pwr 0 0x5C) value.toNat = none →
      let d := bits (s.reg .pwr 0 0x58) 5 0
      let z := s.modDom d (fun x => { x with req := bit value.toNat 0 })
      firstBad (s.requestBad z d (bit value.toNat 0)) = none → exec (.powerRequestWrite (rOff .pwr 0 0x5C) value) s = .next z.powerEval) ∧
    (∀ d, d ≤ 49 → (s.dom d).st = 3 → s.domBusy d = false →
      exec (.domainOffDone d) s = .next (((s.domLost d).modDom d (fun x => { x with st := 0, offs := min 65535 (x.offs + 1) })).powerEval)) ∧
    (∀ d, d ≤ 49 → (s.dom d).st = 1 → ∃ z : State, exec (.domainOnDone d) s = .next z.powerEval ∧ (z.dom d).st = 2 ∧ ∀ j, j ≠ d → z.dom j = s.dom j)

/-- R459, R460, R463, R464, R467 to R471, R473, R474: the sequencer starts its next entry on a free converter, A before B, with
SETTLE for the outputs after a change; at a wrap the staged writes apply and LOOPCNT advances; an output goes to its data
register, with OVR where an unread one stood, or into the entry's statistics; self-calibration takes factors within their
limits; the twin check fails beyond 24 LSB. -/
def Obligations.TheSequencerRunsItsTable : Prop :=
  ∀ (s : State),
    let h := s.hkc
    let prev := if h.pos = 0 then s.hkcLen - 1 else h.pos - 1
    (∀ c, h.running = true → h.pos < s.hkcLen → s.scalRunning = false → h.twinDue = false →
      (enDelay (s.hkcEntry prev) = 0 ∨ h.lastE ≠ prev ∨ (h.a.busy ≠ some prev ∧ h.b.busy ≠ some prev)) →
      ((enConv (s.hkcEntry h.pos) ≠ 1 ∧ h.a.busy = none ∧ c = 0) ∨ (enConv (s.hkcEntry h.pos) = 1 ∧ h.b.busy = none ∧ c = 1) ∨
        (2 ≤ enConv (s.hkcEntry h.pos) ∧ h.a.busy ≠ none ∧ h.b.busy = none ∧ c = 1)) →
      Gives .hkcEntryStart s (fun t => let x := t.hkc.conv c
        x.busy = some h.pos ∧ x.left = enRepeat (s.hkcEntry h.pos) ∧ x.last = some (enSettings (s.hkcEntry h.pos)) ∧
        x.since = (if (h.conv c).last = some (enSettings (s.hkcEntry h.pos)) then 3 else 0) ∧ t.hkc.conv (1 - c) = h.conv (1 - c) ∧
        t.hkc.pos = h.pos + 1 ∧ t.hkc.lastE = h.pos ∧ SameMemory s t ∧ SameRegs s t (fun _ => False))) ∧
    (h.running = true → s.hkcLen ≠ 0 → s.hkcLen ≤ h.pos → Gives .hkcWrap s (fun t => t.hkc.pos = 0 ∧ t.hkc.staged = [] ∧ t.hkc.loops = h.loops + 1 ∧
      t.hkc.twinDue = (h.twinDue || (bit (s.reg .hkc 0 0x40) 1 && decide ((h.loops + 1) % s.reg .hkc 0 0x48 = 0))) ∧
      t.reg .hkc 0 0x50 = satNat 32 (s.reg .hkc 0 0x50 + 1) ∧ SameMemory s t ∧ SameRegs s t (fun off => off = rOff .hkc 0 0x50))) ∧
    (∀ c i st raw past, c ≤ 1 → (h.conv c).busy = some i → i < 32 → (h.conv c).last = some st →
      let settle := decide ((h.conv c).since < settleN st.2.2.1)
      let code := hkcCode (nth (0, 0x8000) (h.conv c).factors st.2.1) raw past
      let word := s.hkcWord c st code settle
      let data := s.reg .hkc 0 (0x100 + 4 * i)
      let dest := enDest (s.hkcEntry i)
      Gives (.hkcOutput c raw past) s (fun t => let x := t.hkc.conv c
        x.since = (h.conv c).since + 1 ∧ x.left = (h.conv c).left - 1 ∧ x.busy = (if (h.conv c).left ≤ 1 ∨ h.running = false then none else some i) ∧
        (dest = 0 → t.reg .hkc 0 (0x100 + 4 * i) = (word + 2 ^ 16 + (b2n (bit data 16) <<< 18)) % 2 ^ 32 ∧ t.hkc.stats = h.stats) ∧
        (dest = 1 → t.hkc.stats = (if settle then h.stats else FMap.upd {} h.stats i (fun x => hkcEnter x code)) ∧ SameRegs s t (fun _ => False)) ∧
        (dest = 2 → bit (s.reg .hkc 0 0x78) i = false → bit data 16 = false → t.reg .hkc 0 (0x100 + 4 * i) = (word + 2 ^ 16) % 2 ^ 32 ∧ t.hkc.stats = h.stats) ∧
        (dest = 2 → bit (s.reg .hkc 0 0x78) i = false → bit data 16 = true → t.reg .hkc 0 (0x100 + 4 * i) = (data ||| 2 ^ 18) % 2 ^ 32 ∧
          t.reg .hkc 0 0x78 = (s.reg .hkc 0 0x78 ||| 2 ^ i) % 2 ^ 32 ∧ t.hkc.stats = (if settle then h.stats else FMap.upd {} h.stats i (fun x => hkcEnter x code))) ∧
        SameMemory s t)) ∧
    (∀ factors, s.scalRunning = true → h.a.busy = none → h.b.busy = none → Gives (.hkcSelfCal factors) s (fun t =>
      t.reg .hkc 0 0x98 = (2 + (failMask (factors.take 3) <<< 2) + (failMask (factors.drop 3) <<< 5)) % 2 ^ 32 ∧ t.hkc.a.last = none ∧ t.hkc.b.last = none ∧
      t.hkc.a.factors = (List.range 3).map (fun g => if factorOk (nth (0, 0) (factors.take 3) g) then nth (0, 0) (factors.take 3) g else nth (0, 0x8000) h.a.factors g) ∧
      t.hkc.b.factors = (List.range 3).map (fun g => if factorOk (nth (0, 0) (factors.drop 3) g) then nth (0, 0) (factors.drop 3) g else nth (0, 0x8000) h.b.factors g) ∧
      SameMemory s t ∧ SameRegs s t (fun off => off = rOff .hkc 0 0x98))) ∧
    (∀ a b : Int, h.twinDue = true → s.scalRunning = false → h.a.busy = none → h.b.busy = none → (a - b).natAbs ≤ 32767 →
      Gives (.hkcTwinCheck a b) s (fun t => t.hkc.twinDue = false ∧ t.hkc.a.last = none ∧ t.hkc.b.last = none ∧
        t.reg .hkc 0 0x58 = toBits 16 (a - b) + (if (a - b).natAbs ≤ 24 then 0 else 2 ^ 16) + 2 ^ 17 ∧
        t.reg .hkc 0 0x5C = (if (a - b).natAbs ≤ 24 then s.reg .hkc 0 0x5C else satNat 32 (s.reg .hkc 0 0x5C + 1)) ∧ SameMemory s t ∧
        SameRegs s t (fun off => off = rOff .hkc 0 0x58 ∨ off = rOff .hkc 0 0x5C)))

/-- R464, R465, R469 to R473, R478: an urgent request takes a free converter, A before B, or is dropped, counted and completed
with E_BUSY, and its result is its last output with VALID; SEQLEN and ENTRY writes are read back at once and are in force at
once while the sequencer is stopped, else from the next wrap; RUN starts the table at entry 0; a 4-byte read of a data register
consumes it; SCALGO, STATCAP and STATACT. -/
def Obligations.HousekeepingIsCommanded : Prop :=
  ∀ (s : State),
    let h := s.hkc
    let st := fun (e : Entry) => (e.p 8 1, (if e.p 9 1 = 1 then 0 else if e.p 9 1 = 2 then 1 else 2), e.p 10 1, (if e.p 10 1 = 0 then 0 else 4))
    (∀ e, Begins s e 0x11 → entryBad e [2, 3] false [(8, 3)] false = none → e.p 8 1 ≤ 47 → e.p 9 1 ∈ [1, 2, 4] → e.p 10 1 ≤ 2 → bit (s.reg .hkc 0 0x98) 1 = true →
      (∀ c, (h.a.busy = none ∧ c = 0) ∨ (h.a.busy ≠ none ∧ h.b.busy = none ∧ c = 1) → Gives (.hkcUrgent e) s (fun t =>
        t.hkc.urgent = some (e, c) ∧ (t.hkc.conv c).busy = some 32 ∧ (t.hkc.conv c).last = some (st e) ∧ t.hkc.conv (1 - c) = h.conv (1 - c) ∧
        SameMemory s t ∧ SameRegs s t (fun _ => False))) ∧
      (h.a.busy ≠ none → h.b.busy ≠ none → exec (.hkcUrgent e) s = .next (((s.marked e).bump .hkc 0 0x54 1).complete e .busy 0 0))) ∧
    (∀ e c raw past, h.urgent = some (e, c) → c ≤ 1 → let x := h.conv c
      let q := x.last.getD (0, 0, 0, 0)
      ∃ z : State, exec (.hkcUrgentResult raw past) s = .next (z.complete e .ok (s.hkcWord c q (hkcCode (nth (0, 0x8000) x.factors q.2.1) raw past) false + 2 ^ 16) 0) ∧
        z.hkc.urgent = none ∧ (z.hkc.conv c).busy = none ∧ z.hkc.stats = h.stats ∧ SameRegs s z (fun _ => False)) ∧
    (∀ value : Word, s.locked 3 = false →
      (s.regBad (rOff .hkc 0 0x44) value.toNat = none → Gives (.hkcStagedWrite 0x44 value) s (fun t => t.reg .hkc 0 0x44 = value.toNat ∧
        (h.running = true → t.hkcLen = s.hkcLen) ∧ (h.running = false → h.staged = [] → t.hkcLen = value.toNat) ∧ SameMemory s t)) ∧
      (∀ i, i < 32 → (Gives (.hkcStagedWrite (0x200 + 8 * i) value) s (fun t => (t.page 0x52).staging = some (0x200 + 8 * i, value.toNat) ∧ SameMemory s t ∧ SameRegs s t (fun _ => False))) ∧
        (∀ low, (s.page 0x52).staging = some (0x200 + 8 * i, low) → hkcEntryBad (low + value.toNat * 2 ^ 32) = none → low < 2 ^ 32 →
          Gives (.hkcStagedWrite (0x204 + 8 * i) value) s (fun t => t.reg64 .hkc 0 (0x200 + 8 * i) = low + value.toNat * 2 ^ 32 ∧ (t.page 0x52).staging = none ∧
            (h.running = true → t.hkcEntry i = s.hkcEntry i) ∧ (h.running = false → h.staged = [] → t.hkcEntry i = low + value.toNat * 2 ^ 32) ∧ SameMemory s t))) ∧
      (s.regBad (rOff .hkc 0 0x40) value.toNat = none → Gives (.hkcCtrlRun value) s (fun t => t.reg .hkc 0 0x40 = value.toNat ∧ t.hkc.running = bit value.toNat 0 ∧
        (h.running = false → bit value.toNat 0 = true → t.hkc.pos = 0) ∧ (h.running = true → bit value.toNat 0 = true → t.hkc.pos = h.pos) ∧ SameMemory s t))) ∧
    (∀ i size, i ≤ 31 → let data := s.reg .hkc 0 (0x100 + 4 * i)
      (size = 4 → Gives (.hkcDataRead i size) s (fun t => t.host.reply = leBytes 4 data ∧
        bit (t.reg .hkc 0 (0x100 + 4 * i)) 16 = false ∧ (bit data 16 = false → t.reg .hkc 0 (0x100 + 4 * i) = data) ∧
        (bit data 16 = true → t.reg .hkc 0 (0x100 + 4 * i) = data - 2 ^ 16 + (if bit data 17 then 0 else 2 ^ 17) - (if bit data 18 then 2 ^ 18 else 0)) ∧
        SameMemory s t ∧ SameRegs s t (fun off => off = rOff .hkc 0 (0x100 + 4 * i)))) ∧
      (size < 4 → Gives (.hkcDataRead i size) s (fun t => t.host.reply = (leBytes 4 data).take size ∧ SameMemory s t ∧ SameRegs s t (fun _ => False)))) ∧
    (∀ value : Word,
      (s.regBad (rOff .hkc 0 0x60) value.toNat = none → bit value.toNat 0 = true → s.scalRunning = false → Gives (.scalgo value) s (fun t =>
        t.reg .hkc 0 0x98 = s.reg .hkc 0 0x98 ||| 1 ∧ t.hkc = h ∧ SameMemory s t ∧ SameRegs s t (fun off => off = rOff .hkc 0 0x98))) ∧
      (s.regBad (rOff .hkc 0 0x60) value.toNat = none → bit value.toNat 0 = true → s.scalRunning = true → exec (.scalgo value) s = .next (s.rejectOff (rOff .hkc 0 0x60) .busy)) ∧
      (s.regBad (rOff .hkc 0 0x64) value.toNat = none → bit value.toNat 31 = true → let x := FMap.get {} h.stats (bits value.toNat 4 0)
        Gives (.statcap value) s (fun t => t.reg64 .hkc 0 0x68 = toBits 64 x.sum % 2 ^ 64 ∧ t.reg .hkc 0 0x70 = (x.n + (b2n x.orSeen <<< 28)) % 2 ^ 32 ∧
          (x.n = 0 → t.reg .hkc 0 0x74 = 0x80007FFF) ∧ (x.n ≠ 0 → t.reg .hkc 0 0x74 = (toBits 16 x.mn + (toBits 16 x.mx <<< 16)) % 2 ^ 32) ∧
          FMap.get {} t.hkc.stats (bits value.toNat 4 0) = (if bit value.toNat 8 then {} else x) ∧ SameMemory s t)) ∧
      Gives (.statactClear value) s (fun t => t.reg .hkc 0 0x78 = s.reg .hkc 0 0x78 - (s.reg .hkc 0 0x78 &&& value.toNat) ∧ t.hkc = h ∧ SameMemory s t ∧
        SameRegs s t (fun off => off = rOff .hkc 0 0x78)))

/-- R366 to R375: a link that is enabled and powered trains at full width on eight healthy lanes or more, at half width on four
to seven; ENUM gives a worker its position, which it acknowledges and passes on, or answers with END at the end of the chain;
END sets a manager's count; a worker without its upstream link loses its position; a failed lane moves to the spare, or the link
resets. -/
def Obligations.ChainsAreEnumerated : Prop :=
  ∀ (s : State) (p : Nat), p ≤ 1 →
    let up := fun (q : Nat) => s.dsyUp q = true
    (∀ d u, (8 ≤ u.length → (trained d u).st = 2) ∧ (4 ≤ u.length → u.length < 8 → (trained d u).st = 3) ∧ (u.length < 4 → (trained d u).st = 1)) ∧
    (∀ peer, s.sec.role ≠ 0 → 5 ≤ s.sec.stage → bit (s.reg .dsy p 0x40) 0 = true → s.domOn (46 + p) = true → s.dsyUp p = false →
      exec (.daisyLinkUp p peer) s = .next (((s.train p 0x1FF).modDsy p (fun d => { d with peer := peer % 16 })).enumUp p) ∧
      (p = 0 → (s.dsyAt 0).failed = [] → Gives (.daisyLinkUp 0 peer) s (fun t =>
        t.dsyAt 0 = { s.dsyAt 0 with st := 2, lanes := 0xFF, spareFor := 0xF, spare := some 8, peer := peer % 16 } ∧ t.chain = s.chain ∧ SameMemory s t ∧ SameRegs s t (fun _ => False)))) ∧
    (up 0 → s.sec.role = 1 → ∀ pos, Gives (.enumReceived 0 pos) s (fun t => t.chain = { s.chain with ring := true } ∧ SameMemory s t ∧ SameRegs s t (fun _ => False))) ∧
    (up 0 → s.sec.role = 2 → s.chain.valid = false → ∀ pos, 1 ≤ pos → pos ≤ 15 → Gives (.enumReceived 0 pos) s (fun t =>
      t.chain = { s.chain with valid := true, pos := pos, frames := s.chain.frames ++ [(0, 2, pos), if s.dsyUp 1 then (1, 0, pos + 1) else (0, 1, pos)] } ∧
      SameMemory s t ∧ SameRegs s t (fun _ => False))) ∧
    (∀ pos, pos ≤ 15 → up 1 →
      (s.sec.role = 1 → Gives (.endReceived pos) s (fun t => t.chain.count = pos + 1 ∧
        t.chain.censusWait = (s.chain.censusWait || (decide (s.chain.count ≠ pos + 1) && bit (s.reg .dsy 1 0x40) 2)) ∧ SameMemory s t ∧ SameRegs s t (fun _ => False))) ∧
      (s.sec.role = 2 → Gives (.endReceived pos) s (fun t => t.chain = { s.chain with frames := s.chain.frames ++ [(0, 1, pos)] } ∧ SameMemory s t ∧ SameRegs s t (fun _ => False)))) ∧
    (s.sec.role = 2 → s.dsyUp 0 = false → Gives .positionLoss s (fun t => t.chain = { s.chain with valid := false, pos := 0 } ∧ SameMemory s t ∧ SameRegs s t (fun _ => False))) ∧
    (up p → Gives (.daisyNak p) s (fun t => t.reg .dsy p 0x4C = satNat 32 (s.reg .dsy p 0x4C + 1) ∧ SameMemory s t ∧ SameRegs s t (fun off => off = rOff .dsy p 0x4C))) ∧
    (∀ l, l ≤ 8 → up p → (s.dsyAt p).failed.contains l = false → bit (s.dsyAt p).lanes l = true →
      (∀ sp, (s.dsyAt p).spare = some sp → sp ≠ l → Gives (.laneFail p l) s (fun t => (t.dsyAt p).failed = (s.dsyAt p).failed ++ [l] ∧
        (t.dsyAt p).lanes = (s.dsyAt p).lanes - 2 ^ l + 2 ^ sp ∧ (t.dsyAt p).spare = none ∧ (t.dsyAt p).st = (s.dsyAt p).st ∧
        t.reports = s.reports ++ [{ kind := 0x10, unit := uLane p l }] ∧ t.reg .dsy p 0x48 = satNat 32 (s.reg .dsy p 0x48 + 1))) ∧
      ((s.dsyAt p).spare = none → Gives (.laneFail p l) s (fun t => (t.dsyAt p).failed = (s.dsyAt p).failed ++ [l] ∧ (t.dsyAt p).st = 1 ∧
        t.reports = s.reports ++ [{ kind := 0x10, unit := uLane p l }] ∧ t.reg .dsy p 0x50 = satNat 32 (s.reg .dsy p 0x50 + 1)))) ∧
    (∀ healthy, (s.dsyAt p).st ≠ 0 → exec (.daisyLinkReset p healthy) s = .next (((if s.dsyUp p then s.dsyReset p else s).train p healthy).enumUp p)) ∧
    (∀ value : Word, s.regBad (rOff .dsy p 0x40) value.toNat = none → bit value.toNat 1 = false → bit value.toNat 2 = false →
      (bit (s.reg .dsy p 0x40) 0 = true → bit value.toNat 0 = false → Gives (.dsyCfgWrite p value) s (fun t => t.reg .dsy p 0x40 = value.toNat ∧ (t.dsyAt p).st = 0)) ∧
      (bit (s.reg .dsy p 0x40) 0 = false → bit value.toNat 0 = true → Gives (.dsyCfgWrite p value) s (fun t => t.reg .dsy p 0x40 = value.toNat ∧ (t.dsyAt p).st = 1)))

/-- R378 to R385: a collective message that DSY1 receives goes to this device's buffer by its tag or on upstream; a tunnelled
write reaches host memory, and a tunnelled read is asked of the host; an accepted PUSHCTL with GO starts a push, each block is
stored where MASK names the device and passed on where it names a higher one, and the push ends DONE, or FAILED with its code
and position. -/
def Obligations.MessagesAndImagesMoveAlongTheChain : Prop :=
  ∀ (s : State),
    (∀ msg, s.sec.role ≠ 0 → s.dsyUp 1 = true → let tag := fieldLe msg 0 1
      let mine := s.sec.role = 1 ∨ bit (s.reg .dsy 1 (0xA0 + 4 * (tag / 32))) (tag % 32) = true
      (mine → s.chain.xrx.length < 256 → Gives (.collMessageReceived msg) s (fun t => t.chain = { s.chain with xrx := s.chain.xrx ++ [msg] } ∧
        t.reg .dsy 1 0x58 = satNat 32 (s.reg .dsy 1 0x58 + 1) ∧ SameMemory s t ∧ SameRegs s t (fun off => off = rOff .dsy 1 0x58))) ∧
      (mine → 256 ≤ s.chain.xrx.length → exec (.collMessageReceived msg) s = .next s) ∧
      (¬ mine → s.dsyUp 0 = true → Gives (.collMessageReceived msg) s (fun t => t.chain = { s.chain with xtx := s.chain.xtx ++ [msg] } ∧
        t.reg .dsy 1 0x5C = satNat 32 (s.reg .dsy 1 0x5C + 1) ∧ SameMemory s t ∧ SameRegs s t (fun off => off = rOff .dsy 1 0x5C)))) ∧
    (∀ pos a d n, s.sec.role = 1 → s.dsyUp 1 = true → 1 ≤ pos → pos < s.chain.count → s.host.linkUp = true →
      Gives (.tunnelRequest pos (.write a d)) s (fun t => t.host.writes = s.host.writes ++ [(a, d)] ∧ t.chain = s.chain ∧ SameMemory s t) ∧
      Gives (.tunnelRequest pos (.read a n)) s (fun t => t.chain = { s.chain with tunnels := s.chain.tunnels ++ [(pos, .read a n)] } ∧ t.host = s.host ∧ SameMemory s t)) ∧
    (∀ e, s.tunnels = true → s.dsyUp 0 = false → (s.queue e.queue).inflight.any (fun x => x.started && x.e == e) = true →
      ∃ z : State, exec (.tunnelTimeout e) s = .next (z.complete e .link 0 0) ∧ z.jobs = s.jobs.filter (fun j => j.e != e)) ∧
    (∀ value : Word, let len := s.reg .dsy 1 0x80
      s.regBad (rOff .dsy 1 0x84) value.toNat = none → s.sec.role = 1 → s.pushState ≠ 1 → bit value.toNat 31 = true → bits value.toNat 15 0 ≠ 0 → len ≠ 0 → len % 64 = 0 →
      s.reg64 .dsy 1 0x70 % 64 = 0 → s.reg64 .dsy 1 0x78 % 64 = 0 → bits value.toNat 15 0 < 2 ^ s.chain.count → (bit value.toNat 16 = true → s.reg64 .dsy 1 0x70 + len ≤ s.lpCap) →
      Gives (.pushGo value) s (fun t => t.reg .dsy 1 0x88 = 1 ∧ t.reg .dsy 1 0x8C = 0 ∧ t.reg .dsy 1 0x84 = value.toNat % 2 ^ 31 ∧ t.chain = { s.chain with push := s.chain.push + 1 } ∧ SameMemory s t)) ∧
    (∀ hdr data, s.sec.role = 2 → s.dsyUp 0 = true → s.chain.valid = true → sha384 data = hdr.digest → data.length = hdr.len → data.length ≤ 65536 →
      (bit hdr.mask.toNat s.chain.pos = true → hdr.index = 0 → s.pushRefuse hdr.dest hdr.total ≠ none → exec (.pushBlock hdr data) s = .next s) ∧
      (bit hdr.mask.toNat s.chain.pos = true → (hdr.index ≠ 0 ∨ s.pushRefuse hdr.dest hdr.total = none) → Gives (.pushBlock hdr data) s (fun t =>
        (∀ i, i < data.length → t.lpByte (hdr.dest + 65536 * hdr.index + i) = nth 0#8 data i) ∧
        (∀ a, a < hdr.dest + 65536 * hdr.index ∨ hdr.dest + 65536 * hdr.index + data.length ≤ a → t.lpByte a = s.lpByte a) ∧ (∀ a, t.memByte a = s.memByte a) ∧
        t.chain.blocks = (if hdr.mask.toNat >>> (s.chain.pos + 1) ≠ 0 ∧ s.dsyUp 1 = true then s.chain.blocks ++ [hdr] else s.chain.blocks))) ∧
      (bit hdr.mask.toNat s.chain.pos = false → Gives (.pushBlock hdr data) s (fun t => SameMemory s t ∧
        t.chain.blocks = (if hdr.mask.toNat >>> (s.chain.pos + 1) ≠ 0 ∧ s.dsyUp 1 = true then s.chain.blocks ++ [hdr] else s.chain.blocks)))) ∧
    (∀ hdr data, s.sec.role = 1 → s.pushState = 1 → s.reg .dsy 1 0x8C < s.pushBlocks → bit (s.reg .dsy 1 0x84) 0 = false → bit (s.reg .dsy 1 0x84) 16 = false →
      let i := s.reg .dsy 1 0x8C
      let n := min 65536 (s.reg .dsy 1 0x80 - 65536 * i)
      Gives (.pushBlock hdr data) s (fun t => t.reg .dsy 1 0x8C = i + 1 ∧ SameMemory s t ∧
        (bits (s.reg .dsy 1 0x84) 15 1 ≠ 0 → t.chain.blocks = s.chain.blocks ++ [{ push := s.chain.push, index := i, count := s.pushBlocks, mask := BitVec.ofNat 16 (s.reg .dsy 1 0x84), dest := s.reg64 .dsy 1 0x78, len := n, total := s.reg .dsy 1 0x80, digest := sha384 (sliceB data 0 n) }]))) ∧
    (s.sec.role = 1 → s.pushState = 1 → s.reg .dsy 1 0x8C = s.pushBlocks → Gives .pushDone s (fun t => t.reg .dsy 1 0x88 = 2 ∧ SameMemory s t ∧ SameRegs s t (fun off => off = rOff .dsy 1 0x88))) ∧
    (∀ (c : Code) pos, c ∈ [Code.digest, .range, .state, .link] → s.sec.role = 1 → s.pushState = 1 → pos < 16 → Gives (.pushFail c.num pos) s (fun t =>
      t.reg .dsy 1 0x88 = 3 + c.num * 256 + pos * 65536 ∧ SameMemory s t ∧ SameRegs s t (fun off => off = rOff .dsy 1 0x88)))

/-- R354, R386 to R390: epoch and digest are published together, answering the queries and passing on the token that waited; a
digest query is answered at once when nothing is pending; a manager starts a census when one is asked for and none is in flight,
a worker adds its entry to the token, and the census ends with its maps, completing each request that it served; ALIGN takes a
higher epoch through the Colophon. -/
def Obligations.ConfigurationsAreCompared : Prop :=
  ∀ (s : State),
    Gives .configDigestPublish s (fun t => t.cfg = { s.cfg with pub := s.cfg.epoch, pending := false, digest := s.cfgDigest } ∧
      (s.jobs.any (fun j => j.kind == 18) = false → t.col = { s.col with lastDigest := s.cfgDigest } ∧ t.queues = s.queues ∧
        (s.chain.held = none → t.chain = s.chain) ∧ (s.chain.held ≠ none → t.chain.held = none))) ∧
    (∀ e, Begins s e 0x12 → entryBad e [1, 2, 3] false [(8, 1), (16, 8)] false = none →
      (e.p 8 1 = 0 → s.cfgPending = true → exec (.digestQuery e) s = .next ((s.marked e).withJobs (s.jobs ++ [{ e := e, kind := 18 }]))) ∧
      (e.p 8 1 = 0 ∧ s.cfgPending = false ∨ e.p 8 1 = 3 → exec (.digestQuery e) s = .next ((s.marked e).queryDone e)) ∧
      ((e.p 8 1 = 1 ∨ e.p 8 1 = 2) → e.ctx ≠ 255 → (s.ctx e.ctx).ex = true → exec (.digestQuery e) s = .next ((s.marked e).queryDone e))) ∧
    (∀ e, Begins s e 0x13 → entryBad e [2] false [(16, 8)] false = none →
      (s.sec.role = 1 → s.chain.census = false → Gives (.census e) s (fun t => t.chain = { s.chain with censusReqs := s.chain.censusReqs ++ [e], censusWait := true } ∧ SameMemory s t ∧ SameRegs s t (fun _ => False))) ∧
      (s.sec.role = 1 → s.chain.census = true → Gives (.census e) s (fun t => t.chain = { s.chain with censusNext := s.chain.censusNext ++ [e] } ∧ SameMemory s t ∧ SameRegs s t (fun _ => False))) ∧
      (s.sec.role ≠ 1 → exec (.census e) s = .next ((s.marked e).complete e .state 0 0))) ∧
    (s.sec.role = 1 → s.chain.census = false → s.chain.censusWait = true → Gives .censusStart s (fun t =>
      t.chain = { s.chain with census := true, censusWait := false, token := if s.dsyUp 1 then some [s.censusEntry (s.reg .dsy 1 0x90 + 1)] else none } ∧ SameMemory s t ∧ SameRegs s t (fun _ => False))) ∧
    (∀ x xs, s.sec.role = 2 → s.dsyUp 0 = true → s.chain.valid = true →
      (s.cfgPending = true → Gives (.censusToken (x :: xs)) s (fun t => t.chain = { s.chain with held := some (x :: xs) } ∧ SameMemory s t)) ∧
      (s.cfgPending = false → Gives (.censusToken (x :: xs)) s (fun t => t.chain = { s.chain with held := none, token := some (x :: xs ++ [s.censusEntry (fieldLe x 56 4)]) } ∧ SameMemory s t))) ∧
    (∀ entries inTime, s.sec.role = 1 → s.chain.census = true → (inTime = true → s.cfgPending = false) → Gives (.censusFinish entries inTime) s (fun t =>
      t.chain = { s.chain with census := false, censusReqs := s.chain.censusNext, censusNext := [], censusWait := s.chain.censusWait || !s.chain.censusNext.isEmpty } ∧
      (s.chain.censusReqs = [] → t.reg .dsy 1 0x90 = satNat 32 (s.reg .dsy 1 0x90 + 1)) ∧ SameMemory s t)) ∧
    (∀ value : Word, s.regBad (rOff .cfg 0 0x44) value.toNat = none → s.locked 1 = false →
      (value.toNat < s.cfg.epoch → exec (.align value) s = .next (s.rejectOff (rOff .cfg 0 0x44) .value)) ∧
      (value.toNat = s.cfg.epoch → exec (.align value) s = .next s) ∧
      (s.cfg.epoch < value.toNat → s.supplyOk 60 = true → Gives (.align value) s (fun t => t.cfg = s.cfg ∧ SameMemory s t ∧ SameRegs s t (fun _ => False) ∧
        t.col.queue = s.col.queue ++ [{ steps := [deviceStep (s.withCfg { s.cfg with epoch := value.toNat })], k := 16, args := [value.toNat] }])))

/-- R34 to R37, R44, R45, R49, R50: a register write on an unmapped page is discarded and recorded; ERR clears what is written
as 1; a write to a 32-bit register is turned away whole by its power, its fields, its lock or its block's state, in that order,
and stored otherwise; a 64-bit register's low word is staged and its high word commits both; a read of its low word latches its
high half; an access of another size is turned away, or reads the bytes as they stand. -/
def Obligations.RegisterAccessesAreChecked : Prop :=
  ∀ (s : State) (off : Nat), off < 0x2000000 → s.forwards off = false →
    let o := off % 4096
    let own : List (PType × Nat) := [(.que, 0x4C), (.que, 0x54), (.que, 0x68), (.hif, 0x48), (.cmp, 0x4C), (.arr, 0x4C), (.acc, 0x50), (.fhp, 0x40), (.fhp, 0x64), (.spd, 0x40), (.dsy, 0x40), (.dsy, 0x84),
      (.col, 0x50), (.hld, 0x60), (.hkc, 0x40), (.hkc, 0x44), (.hkc, 0x60), (.hkc, 0x64), (.hkc, 0x78), (.thm, 0x44), (.thm, 0x54), (.pwr, 0x50), (.pwr, 0x5C), (.flt, 0x84), (.tst, 0x44), (.sec, 0x40), (.sec, 0x44), (.sec, 0x54), (.cfg, 0x44)]
    (pageAt (off / 4096) = none →
      (∀ v, off % 4 = 0 → exec (.registerWrite off v) s = .next (s.reject 0 .range o)) ∧
      exec (.bar0Unmapped true off) s = .next (s.reject 0 .range o) ∧
      Gives (.bar0Unmapped false off) s (fun t => t.host.reply = leBytes 4 0 ∧ t.page 0 = { s.page 0 with errCode := Code.range.num, errOff := o, errCnt := satNat 32 ((s.page 0).errCnt + 1) } ∧ SameMemory s t ∧ SameRegs s t (fun _ => False))) ∧
    (∀ t i, pageAt (off / 4096) = some (t, i) →
      (∀ v : Word, o = 0x10 → Gives (.registerWrite off v) s (fun u => SameMemory s u ∧ SameRegs s u (fun _ => False) ∧
        u.page (off / 4096) = { s.page (off / 4096) with errCode := (s.page (off / 4096)).errCode - ((s.page (off / 4096)).errCode &&& bits v.toNat 31 24), errOff := (s.page (off / 4096)).errOff - ((s.page (off / 4096)).errOff &&& bits v.toNat 11 0) })) ∧
      (∀ v, off % 4 = 0 → o < 0x40 → o ≠ 8 → o ≠ 0x10 → exec (.registerWrite off v) s = .next s) ∧
      (∀ r b (v : Word), off % 4 = 0 → 0x40 ≤ o → findReg t o = some (r, b) → r.wide = false → r.acc ≠ .ro → (t, o) ∉ own → t ≠ .gal → ¬ (t = .dsy ∧ i = 0 ∧ 0xA0 ≤ o) →
        let rules := s.plainRules t i o v.toNat
        (∀ c, s.regBad off v.toNat = some c → exec (.registerWrite off v) s = .next (s.reject (off / 4096) c o)) ∧
        (s.regBad off v.toNat = none → rules.1 = true → exec (.registerWrite off v) s = .next (s.reject (off / 4096) .lock o)) ∧
        (∀ c, s.regBad off v.toNat = none → rules.1 = false → firstBad rules.2 = some c → exec (.registerWrite off v) s = .next (s.reject (off / 4096) c o)) ∧
        (s.regBad off v.toNat = none → rules.1 = false → firstBad rules.2 = none → exec (.registerWrite off v) s = .next (s.regPut off v.toNat) ∧
          (r.acc ≠ .wo → (s.regPut off v.toNat).rd off = v.toNat))) ∧
      (∀ v : Word, wideAt off = some off → s.regBad off 0 ≠ some .power → Gives (.lowWordWrite off v) s (fun u =>
        u.page (off / 4096) = { s.page (off / 4096) with staging := some (o, v.toNat) } ∧ SameMemory s u ∧ SameRegs s u (fun _ => False))) ∧
      (∀ (v : Word) low, wideAt (off + 4) = some off → s.regBad off 0 ≠ some .power → (off + 4) / 4096 = off / 4096 → (s.page (off / 4096)).staging = some (o, low) →
        exec (.highWordWrite (off + 4) v) s = .next ((s.modPage (off / 4096) (fun p => { p with staging := none })).wideWrite off (low + v.toNat * 2 ^ 32) (off + 4))) ∧
      (off % 4 = 0 → 0x40 ≤ o → s.pageOn t i = true → ¬ (t = .acc ∧ o = 0x58) → ¬ (t = .hkc ∧ 0x100 ≤ o ∧ o < 0x180) →
        (wideAt off = none → Gives (.lowWordRead off) s (fun u => u.host.reply = leBytes 4 (s.word off) ∧ u.pages = s.pages ∧ SameMemory s u ∧ SameRegs s u (fun _ => False))) ∧
        (wideAt off = some off → Gives (.lowWordRead off) s (fun u => u.host.reply = leBytes 4 (s.word off) ∧ SameMemory s u ∧ SameRegs s u (fun _ => False) ∧
          u.page (off / 4096) = { s.page (off / 4096) with snapHi := s.word (off + 4), latches := ((s.page (off / 4096)).latches + 1) % 65536 })) ∧
        (∀ lo, wideAt off = some lo → off ≠ lo → Gives (.lowWordRead off) s (fun u => u.host.reply = leBytes 4 (s.page (off / 4096)).snapHi ∧ u.pages = s.pages ∧ SameMemory s u ∧ SameRegs s u (fun _ => False)))) ∧
      (∀ size, properAccess off size = false → size ≤ 8 →
        exec (.bar0OddAccess true off size) s = .next (s.reject (off / 4096) .align o) ∧
        Gives (.bar0OddAccess false off size) s (fun u => u.host.reply = s.rawBytes off size ∧ u.pages = s.pages ∧ SameMemory s u ∧ SameRegs s u (fun _ => False))) ∧
      (∀ size w, 8 < size → Gives (.bar0OddAccess w off size) s (fun u => u.host.unsup = true ∧ u.reg .hif 0 0x60 = satNat 32 (s.reg .hif 0 0x60 + 1) ∧ SameMemory s u ∧ SameRegs s u (fun k => k = rOff .hif 0 0x60))))

/-- R54 to R57, R64, R107: a tail below 2^n is taken; enabling a queue starts its first pass with its indices at 0; the next
queue's entry at SQ_HEAD is fetched, and one whose opcode is no command is completed with E_OPCODE; a status record that is due
goes to STATADDR between two copies of its number; ARR.CNTCLR clears the selected array's counters. -/
def Obligations.QueuesAndRecordsServeTheHost : Prop :=
  ∀ (s : State),
    (∀ q, q ≤ 3 → ∀ value : Word,
      (s.regBad (rOff .que q 0x4C) value.toNat = none → value.toNat < 2 ^ s.reg .que q 0x48 → Gives (.sqDoorbell q value) s (fun t => t.reg .que q 0x4C = value.toNat ∧ SameMemory s t ∧ SameRegs s t (fun k => k = rOff .que q 0x4C))) ∧
      (s.regBad (rOff .que q 0x4C) value.toNat = none → 2 ^ s.reg .que q 0x48 ≤ value.toNat → exec (.sqDoorbell q value) s = .next (s.rejectOff (rOff .que q 0x4C) .range)) ∧
      (s.regBad (rOff .que q 0x54) value.toNat = none → Gives (.cqHeadWrite q value) s (fun t => t.reg .que q 0x54 = value.toNat ∧ SameMemory s t ∧ SameRegs s t (fun k => k = rOff .que q 0x54))) ∧
      (s.regBad (rOff .que q 0x68) value.toNat = none → (bit (s.reg .que q 0x68) 0 = true ∨ bit value.toNat 0 = false) → Gives (.queueEnable q value) s (fun t => t.reg .que q 0x68 = value.toNat ∧
        t.queue q = s.queue q ∧ SameMemory s t ∧ SameRegs s t (fun k => k = rOff .que q 0x68))) ∧
      (s.regBad (rOff .que q 0x68) value.toNat = none → bit (s.reg .que q 0x68) 0 = false → bit value.toNat 0 = true → Gives (.queueEnable q value) s (fun t => t.reg .que q 0x68 = value.toNat ∧
        t.reg .que q 0x4C = 0 ∧ t.reg .que q 0x50 = 0 ∧ t.reg .que q 0x54 = 0 ∧ t.reg .que q 0x64 = 0 ∧ t.queue q = { s.queue q with turn := 0, cseq := 0, phase := true } ∧ SameMemory s t ∧
        SameRegs s t (fun k => k = rOff .que q 0x68 ∨ k = rOff .que q 0x4C ∨ k = rOff .que q 0x50 ∨ k = rOff .que q 0x54 ∨ k = rOff .que q 0x64)))) ∧
    (∀ value : Word, s.regBad (rOff .hif 0 0x48) value.toNat = none → bit (s.reg .hif 0 0x48) 0 = false → bit value.toNat 0 = true → Gives (.statctrlWrite value) s (fun t =>
      t.reg .hif 0 0x48 = value.toNat ∧ t.reg .hif 0 0x4C = 0 ∧ t.host = { s.host with record := [], recordDue := true } ∧ SameMemory s t ∧ SameRegs s t (fun k => k = rOff .hif 0 0x48 ∨ k = rOff .hif 0 0x4C))) ∧
    (∀ q bytes, s.nextQueue = some q → let e : Entry := { queue := q, bytes := sliceB bytes 0 64 }
      (1 ≤ e.op → e.op ≤ 0x18 → Gives (.queueFetch bytes) s (fun t => (t.queue q).inflight = (s.queue q).inflight ++ [{ e := e, started := false }] ∧ (t.queue q).turn = 0 ∧
        (∀ j, j < 4 → j ≠ q → (t.queue j).inflight = (s.queue j).inflight ∧ (t.queue j).turn = (if s.queWaits j then (s.queue j).turn + 1 else 0)) ∧
        t.reg .que q 0x50 = (s.reg .que q 0x50 + 1) % 2 ^ s.reg .que q 0x48 % 2 ^ 32 ∧ SameMemory s t ∧ SameRegs s t (fun k => k = rOff .que q 0x50))) ∧
      (¬ (1 ≤ e.op ∧ e.op ≤ 0x18) → ∃ z : State, exec (.queueFetch bytes) s = .next (z.complete e .opcode 0 0) ∧ z.reg .que q 0x50 = (s.reg .que q 0x50 + 1) % 2 ^ s.reg .que q 0x48 % 2 ^ 32)) ∧
    (∀ l, l = (List.range 4).filter s.fetchable →
      (∀ q, l.find? (fun q => decide (16 ≤ (s.queue q).turn)) = some q → s.nextQueue = some q) ∧ (l.find? (fun q => decide (16 ≤ (s.queue q).turn)) = none → s.nextQueue = l.head?)) ∧
    (bit (s.reg .hif 0 0x48) 0 = true → s.domOn 45 = true → s.host.linkUp = true →
      ((s.host.recordDue = true ∨ s.host.record ≠ s.statusBody) → let n := (s.reg .hif 0 0x4C + 1) % 2 ^ 32
        Gives .statusRecordWrite s (fun t => t.reg .hif 0 0x4C = n ∧ t.host.writes = s.host.writes ++ [(s.reg64 .hif 0 0x40, leBytes 4 n ++ s.statusBody ++ leBytes 4 n)] ∧ t.host.record = s.statusBody ∧ t.host.recordDue = false ∧
          SameMemory s t ∧ SameRegs s t (fun k => k = rOff .hif 0 0x4C))) ∧
      (s.host.recordDue = false → s.host.record = s.statusBody → exec .statusRecordWrite s = .next s)) ∧
    (∀ c, c < 64 → ∀ value : Word, s.regBad (rOff .arr c 0x4C) value.toNat = none → bit value.toNat 0 = true → Gives (.arrCntclr c value) s (fun t => SameMemory s t ∧ SameRegs s t (fun _ => False) ∧
      t.arr (s.arrSel c) = { s.arr (s.arrSel c) with vec := 0, zeros := 0, coarse := 0, ovr := 0, ckfail := 0, ckmag := 0, ckhalf := 0, ckgroup := 0, inclamp := 0 } ∧ ∀ k, k ≠ s.arrSel c → t.arr k = s.arr k))

/-- R168, R376: a readback request is a reader of its tile, and the entry's 40 bits stand in RBDATA once the scoreboard has
released it; a read of RBDATA takes them; a manager's access in the remote window goes to the position that RWSEL names, or is
counted where that is out of reach; and a worker performs it as its own host's. -/
def Obligations.ReadbacksAndRemoteAccessesReturn : Prop :=
  ∀ (s : State),
    (∀ c, c < 64 → ∀ value : Word, s.pageOn .acc c = true → bits value.toNat 30 17 = 0 → bit value.toNat 31 = true →
      ((s.clu c).rb.pend.isSome = true → exec (.rbselGo c value) s = .next (s.rejectOff (rOff .acc c 0x50) .busy)) ∧
      ((s.clu c).rb.pend = none → Gives (.rbselGo c value) s (fun t => (t.clu c).rb.pend = some (bits value.toNat 8 0, bits value.toNat 16 9) ∧ (t.clu c).rb.op = s.nextOp ∧
        (t.clu c).rb.data = (s.clu c).rb.data ∧ t.nextOp = s.nextOp + 1 ∧ t.reg .acc c 0x50 = value.toNat % 2 ^ 31 ∧ SameMemory s t))) ∧
    (∀ c t0 en op, (s.clu c).rb.pend = some (t0, en) → s.getOp (s.clu c).rb.op = some op → op.free = true →
      let x := (s.tile (tkey c t0)).e en
      Gives (.readbackArrive c) s (fun t => (t.clu c).rb = { (s.clu c).rb with data := x, valid := true, dup := false, ovr := (s.clu c).rb.valid, tile := t0, entry := en, pend := none } ∧
        t.ops = removeOp op.id s.ops ∧ SameMemory s t)) ∧
    (∀ c size, c < 64 → size = 4 ∨ size = 8 → s.pageOn .acc c = true → Gives (.rbdataRead c size) s (fun t => t.host.reply = leBytes size (s.clu c).rb.word ∧
      (t.clu c).rb = (if (s.clu c).rb.valid then { (s.clu c).rb with valid := false, dup := true, ovr := false } else (s.clu c).rb) ∧
      (size = 4 → (t.page (rOff .acc c 0 / 4096)).snapHi = (s.clu c).rb.word / 2 ^ 32) ∧ SameMemory s t ∧ SameRegs s t (fun _ => False))) ∧
    (∀ w off size (value : DWord), 0x800000 ≤ off → off < 0x1000000 → size ≤ 8 → s.sec.role = 1 →
      let sel := s.reg .dsy 1 0x64
      let pos := bits sel 3 0
      (pos < s.chain.count → s.dsyUp 1 = true → Gives (.remoteWindowAccess w off size value) s (fun t =>
        t.chain = { s.chain with remote := s.chain.remote ++ [(pos, b2n w, bits sel 5 4 * 0x800000 + (off - 0x800000), size, if w then value.toNat else 0)] } ∧
        (w = false → t.host.reply = leBytes size value.toNat) ∧ SameMemory s t ∧ SameRegs s t (fun _ => False))) ∧
      ((s.chain.count ≤ pos ∨ s.dsyUp 1 = false) → Gives (.remoteWindowAccess w off size value) s (fun t => t.reg .dsy 1 0x68 = satNat 32 (s.reg .dsy 1 0x68 + 1) ∧
        (t.page (rOff .dsy 1 0 / 4096)).errCode = Code.link.num ∧ (t.page (rOff .dsy 1 0 / 4096)).errOff = off % 4096 ∧ t.chain = s.chain ∧ (w = false → t.host.reply = leBytes size 0) ∧
        SameMemory s t ∧ SameRegs s t (fun k => k = rOff .dsy 1 0x68)))) ∧
    (∀ w off size value, s.sec.role = 2 → s.dsyUp 0 = true → let u := s.hostAccess w off size value
      Gives (.remoteRegAccess w off size value) s (fun t => t.host = { u.host with reply := s.host.reply, poisoned := s.host.poisoned, unsup := s.host.unsup } ∧
        (w = false → t.chain = { u.chain with answer := u.host.reply }) ∧ (w = true → t.chain = u.chain) ∧ SameMemory u t ∧ SameRegs u t (fun _ => False)))

/-- R522 to R526: FW_STAGE's checks are made in their order, and a failed one leaves the flash as it is; an image that passes is
programmed and waits for its read-back, and then the directory takes it in the inactive slot; FW_ACTIVATE makes a verified slot
active, takes the device out of RECOVERY or has every unfenced compositor reload; RBCOMMIT raises SVNMIN through the Colophon.
Whether FW_ACTIVATE's directory write reads back is a free value. -/
def Obligations.FirmwareIsStagedAndActivated : Prop :=
  ∀ (s : State),
    (∀ e img, let n := e.p 16 4
      let ck := fun (k : Nat) => entryBad e [2] false [(8, 12)] false = none ∧ 17472 ≤ n ∧ n ≤ 8388608 ∧ n % 64 = 0 ∧ (1 ≤ k → e.p 8 8 % 64 = 0) ∧ (2 ≤ k → s.locked 5 = false) ∧ (3 ≤ k → s.sec.op = 0) ∧
        (4 ≤ k → fwHeader img = true ∧ fwLen img = n) ∧ (5 ≤ k → fwSigFails img = 0) ∧ (6 ≤ k → s.sec.svnMin ≤ fwSvn img)
      (entryBad e [2] false [(8, 12)] false = none → (n < 17472 ∨ 8388608 < n ∨ n % 64 ≠ 0) → s.stageCheck e img = some .value) ∧ (ck 0 → e.p 8 8 % 64 ≠ 0 → s.stageCheck e img = some .align) ∧
      (ck 1 → s.locked 5 = true → s.stageCheck e img = some .lock) ∧ (ck 2 → s.sec.op ≠ 0 → s.stageCheck e img = some .busy) ∧
      (ck 3 → (fwHeader img = false ∨ fwLen img ≠ n) → s.stageCheck e img = some .value) ∧ (ck 4 → fwSigFails img ≠ 0 → s.stageCheck e img = some .sig) ∧
      (ck 5 → fwSvn img < s.sec.svnMin → s.stageCheck e img = some .lock) ∧ (ck 6 → s.stageCheck e img = none)) ∧
    (∀ e image, Begins s e 0x14 → let img := sliceB image 0 (min (e.p 16 4) 8388608)
      (∀ c, s.stageCheck e img = some c → ∃ y : State, exec (.fwStage e image) s = .next (y.complete e c 0 0) ∧ y.sec = s.sec) ∧
      (s.stageCheck e img = none → fwPayload img = true → Gives (.fwStage e image) s (fun t => t.sec.op = 1 ∧ t.sec.fwJob = some (e, img) ∧ t.sec.flash = (s.programRegion img).sec.flash ∧ t.sec.active = s.sec.active ∧ SameMemory s t)) ∧
      (s.stageCheck e img = none → fwPayload img = false → ∃ y : State, exec (.fwStage e image) s = .next (y.complete e .digest 0 0) ∧ y.sec.op = s.sec.op ∧ y.sec.fwJob = s.sec.fwJob)) ∧
    (∀ e img, s.sec.fwJob = some (e, img) → let z := s.modSec (fun x => { x with op := 0, fwJob := none })
      let d := s.fwDir.1
      let o := 1 - d.active
      let d' : FwDir := if o = 0 then { d with rega := d.free, staged := d.staged ||| 1, svna := fwSvn img } else { d with regb := d.free, staged := d.staged ||| 2, svnb := fwSvn img }
      (∀ ok, exec (.fwStageDone false ok) s = .next (z.complete e .digest 0 0)) ∧
      exec (.fwStageDone true true) s = .next ((z.dirWrite d' true).complete e .ok o (fwSvn img)) ∧ exec (.fwStageDone true false) s = .next ((z.dirWrite d' false).complete e .digest 0 0)) ∧
    (∀ e, Begins s e 0x15 → let slot := e.p 8 1
      let img := s.fwImage (s.fwDir.1.region slot)
      (∀ c, s.activateCheck e = some c → ∃ y : State, exec (.fwActivate e) s = .next (y.complete e c 0 0) ∧ y.sec = s.sec) ∧
      (s.activateCheck e = none → ∃ (ok : Bool) (y : State), y.sec = (s.dirWrite { s.fwDir.1 with active := slot } ok).sec ∧
        (ok = false → exec (.fwActivate e) s = .next (y.complete e .digest 0 0)) ∧
        (ok = true → s.sec.recovery = true → Gives (.fwActivate e) s (fun t => t.sec.recovery = false ∧ t.sec.stage = 5 ∧ t.sec.fail = false ∧ t.sec.active = slot ∧ t.sec.svn = fwSvn img ∧ t.sec.meas = fwMeas img)) ∧
        (ok = true → s.sec.recovery = false → ∀ k, k < 17 → s.fenced (uCmp k) = false → Gives (.fwActivate e) s (fun t => t.sec.op = 2 ∧ t.sec.active = slot ∧ t.sec.svn = fwSvn img ∧ t.sec.meas = fwMeas img ∧
          (∀ j, j < 17 → (t.cmp j).fw = false ∧ (t.cmp j).fwDue = !s.fenced (uCmp j)) ∧ t.jobs = s.jobs ++ [{ e := e, kind := 17 }])))) ∧
    (∀ value : Word, s.regBad (rOff .sec 0 0x54) value.toNat = none → bit value.toNat 0 = true →
      (s.fwCount ≠ 17 ∨ s.sec.fallback = true ∨ s.sec.recovery = true → exec (.rbcommit value) s = .next (s.rejectOff (rOff .sec 0 0x54) .state)) ∧
      (s.fwCount = 17 → s.sec.fallback = false → s.sec.recovery = false → s.col.queue.any (fun w => w.k == 20) = true → exec (.rbcommit value) s = .next (s.rejectOff (rOff .sec 0 0x54) .busy)) ∧
      (s.fwCount = 17 → s.sec.fallback = false → s.sec.recovery = false → s.col.queue.any (fun w => w.k == 20) = false →
        (s.sec.svn ≤ s.sec.svnMin → exec (.rbcommit value) s = .next s) ∧
        (s.sec.svnMin < s.sec.svn → Gives (.rbcommit value) s (fun t => t.sec = s.sec ∧ SameMemory s t ∧ SameRegs s t (fun _ => False) ∧
          t.col = { s.col with queue := s.col.queue ++ [{ steps := [{ home := 38, recs := [(0, leBytes 4 s.sec.svn ++ leBytes 4 (s.reg .sec 0 0x6C) ++ leBytes 8 0)] }], k := 20, args := [s.sec.svn] }] }))))

/-- R527 to R529, R557 to R561: a set lock stays set and a clearing write is turned away; ATTEST is checked and waits its turn,
and its report goes to its destination before its completion; an instruction that is not listed, or a pin one without PERST_N,
is BYPASS; a probe of an array in use takes effect as SRC 0; MBIST marks its march running; the lock status is captured. -/
def Obligations.LocksAttestationAndTestPort : Prop :=
  ∀ (s : State),
    (∀ value : Word, s.regBad (rOff .sec 0 0x40) value.toNat = none → let old := s.reg .sec 0 0x40
      (old &&& value.toNat ≠ old → exec (.lockWrite value) s = .next (s.rejectOff (rOff .sec 0 0x40) .lock)) ∧
      (old &&& value.toNat = old → Gives (.lockWrite value) s (fun t => t.reg .sec 0 0x40 = value.toNat ∧ (∀ b, bit old b = true → bit (t.reg .sec 0 0x40) b = true) ∧
        t.tap = (if bit value.toNat 4 then { s.tap with probe := [] } else s.tap) ∧ SameMemory s t ∧ SameRegs s t (fun k => k = rOff .sec 0 0x40)))) ∧
    (∀ value : Word, s.regBad (rOff .sec 0 0x44) value.toNat = none → let keep := s.reg .sec 0 0x44 &&& s.reg .sec 0 0x40
      (keep &&& value.toNat ≠ keep → exec (.lockbootWrite value) s = .next (s.rejectOff (rOff .sec 0 0x44) .lock)) ∧
      (keep &&& value.toNat = keep → Gives (.lockbootWrite value) s (fun t => t.reg .sec 0 0x44 = value.toNat ∧ SameMemory s t ∧ SameRegs s t (fun k => k = rOff .sec 0 0x44)))) ∧
    (∀ e, Begins s e 0x18 → entryBad e [2, 3] false [(8, 44)] false = none →
      (e.p 48 4 < 17296 → exec (.attest e) s = .next ((s.marked e).complete e .range 0 0)) ∧
      (17296 ≤ e.p 48 4 → e.p 40 8 % 64 ≠ 0 → exec (.attest e) s = .next ((s.marked e).complete e .align 0 0)) ∧
      (17296 ≤ e.p 48 4 → e.p 40 8 % 64 = 0 → exec (.attest e) s = .next ((s.marked e).withJobs (s.jobs ++ [{ e := e, kind := 21 }])))) ∧
    (∀ j, s.jobs.find? (fun j => j.kind == 21) = some j →
      (s.cfgPending = true → exec .attestReportDone s = .next s) ∧
      (s.cfgPending = false → ∃ (z : State) (i : Nat), z.reg .sec 0 0xA4 = satNat 32 (s.reg .sec 0 0xA4 + 1) ∧ z.sec = s.sec ∧ z.cfg = s.cfg ∧ z.chain = s.chain ∧ z.host = s.host ∧ z.queues = s.queues ∧
        let body := z.reportBody (sliceB j.e.bytes 8 32)
        exec .attestReportDone s = .next ((z.cmdWrite j.e (j.e.p 40 8) (body ++ sliceB (Config.rsaSign i body) 0 384 ++ sliceB (Config.slhSign i body) 0 16224)).complete j.e .ok 17296 0))) ∧
    (∀ code : Byte, Gives (.tapInstruction code) s (fun t => SameMemory s t ∧ SameRegs s t (fun _ => False) ∧
      ((code.toNat ∈ [0x01, 0x02, 0x20, 0x21, 0x22] ∨ s.perst = true ∧ code.toNat ∈ [0x00, 0x03, 0x04]) → t.tap = { s.tap with ir := code.toNat }) ∧
      (¬ (code.toNat ∈ [0x01, 0x02, 0x20, 0x21, 0x22] ∨ s.perst = true ∧ code.toNat ∈ [0x00, 0x03, 0x04]) → t.tap = { s.tap with ir := 0xFF }))) ∧
    (s.tap.ir = 0x21 → ∀ value : Word, let v := value.toNat
      let tap := 4 * bits v 1 0 + bits v 3 2
      (s.locked 4 = true → exec (.arrayProbe value) s = .next s) ∧
      (s.locked 4 = false → s.probeOff v = false → Gives (.arrayProbe value) s (fun t => FMap.get 0 t.tap.probe tap = v ∧ (∀ k, k ≠ tap → FMap.get 0 t.tap.probe k = FMap.get 0 s.tap.probe k) ∧ SameMemory s t ∧ SameRegs s t (fun _ => False))) ∧
      (s.locked 4 = false → s.probeOff v = true → Gives (.arrayProbe value) s (fun t => FMap.get 0 t.tap.probe tap = v - (bits v 26 24 <<< 24) ∧ (∀ k, k ≠ tap → FMap.get 0 t.tap.probe k = FMap.get 0 s.tap.probe k) ∧ SameMemory s t ∧ SameRegs s t (fun _ => False)))) ∧
    (s.tap.ir = 0x20 → ∀ value : DWord, let v := value.toNat
      (s.locked 4 = true ∨ bits v 63 10 ≠ 0 → exec (.mbistAccess value) s = .next s) ∧
      (s.locked 4 = false → bits v 63 10 = 0 → bit v 9 = false → Gives (.mbistAccess value) s (fun t => t.tap = { s.tap with mbist := v } ∧ t.jobs = s.jobs ∧ SameMemory s t ∧ SameRegs s t (fun _ => False))) ∧
      (s.locked 4 = false → bits v 63 10 = 0 → bit v 9 = true → bit v 2 = true → bits v 1 0 ≠ 1 → s.cluOn (bits v 8 3) = true → s.marchBusy (bits v 1 0) (bits v 8 3) = false → Gives (.mbistAccess value) s (fun t =>
        t.tap.mbist = v ∧ t.jobs = s.jobs ++ [{ e := { queue := 0, bytes := [] }, kind := 20, n := [256 + 64 * bits v 1 0 + bits v 8 3] }] ∧ SameMemory s t))) ∧
    (s.tap.ir = 0x22 → Gives .scanLockStatus s (fun t => t.tap = { s.tap with scan := bits (s.reg .sec 0 0x40) 6 0 + (s.sec.stage <<< 8) + (b2n s.sec.recovery <<< 12) } ∧ SameMemory s t ∧ SameRegs s t (fun _ => False)))

/-- R37: a read of an unmapped BAR0 offset returns 0 and a write to one is discarded, both are recorded in DEV.ERR with E_RANGE
and counted, and the whole remote window is unmapped on a standalone device or a worker. -/
def Obligations.UnmappedAccessesAreRecorded : Prop :=
  ∀ (s : State) (off : Nat), off < 0x2000000 → s.forwards off = false →
    let noted := fun (t : State) => t.page 0 = { s.page 0 with errCode := Code.range.num, errOff := off % 4096, errCnt := satNat 32 ((s.page 0).errCnt + 1) } ∧ (∀ p, p ≠ 0 → t.page p = s.page p) ∧
      SameMemory s t ∧ SameRegs s t (fun _ => False)
    (pageAt (off / 4096) = none →
      (off % 4 = 0 → Gives (.lowWordRead off) s (fun t => t.host.reply = leBytes 4 0 ∧ noted t)) ∧
      (∀ value, off % 4 = 0 → Gives (.registerWrite off value) s (fun t => t.host = s.host ∧ noted t)) ∧
      Gives (.bar0Unmapped false off) s (fun t => t.host.reply = leBytes 4 0 ∧ noted t) ∧
      Gives (.bar0Unmapped true off) s (fun t => t.host = s.host ∧ noted t) ∧
      (∀ size, size ≤ 8 → properAccess off size = false → Gives (.bar0OddAccess false off size) s (fun t => t.host.reply = leBytes size 0 ∧ noted t) ∧
        Gives (.bar0OddAccess true off size) s (fun t => t.host = s.host ∧ noted t))) ∧
    (s.sec.role ≠ 1 → ∀ o, 0x800000 ≤ o → o < 0x1000000 → pageAt (o / 4096) = none ∧ s.forwards o = false)

/-- R66: a write to STATADDR while STATCTRL.EN = 1 is rejected with E_STATE, and an APBASE at or beyond the installed external
memory, or within 1 GiB of its end, with E_RANGE; a rejected write leaves every register as it is. -/
def Obligations.StatusAddressAndApertureAreGuarded : Prop :=
  ∀ (s z : State) (value : Word) (v : Nat),
    (s.takeLow (rOff .hif 0 0x44) value.toNat = (z, v) → s.regBad (rOff .hif 0 0x40) v = none → bit (s.reg .hif 0 0x48) 0 = true →
      Gives (.highWordWrite (rOff .hif 0 0x44) value) s (fun t => t = z.rejectOff (rOff .hif 0 0x44) .state ∧ SameMemory s t ∧ SameRegs s t (fun _ => False))) ∧
    (s.takeLow (rOff .hif 0 0x54) value.toNat = (z, v) → s.regBad (rOff .hif 0 0x50) v = none → (s.lpCap ≤ v ∨ s.lpCap < v + 2 ^ 30) →
      Gives (.highWordWrite (rOff .hif 0 0x54) value) s (fun t => t = z.rejectOff (rOff .hif 0 0x54) .range ∧ SameMemory s t ∧ SameRegs s t (fun _ => False)))

/-- R561: SCAN_LOCK_STATUS captures the locks, the boot stage and RECOVERY; while TAPVEND is set, MBIST_ACCESS and ARRAY_PROBE
load but act as BYPASS, and a write that sets it returns every tap's selection to SRC 0. -/
def Obligations.TheLockStatusIsCaptured : Prop :=
  ∀ (s : State),
    (s.tap.ir = 0x22 → Gives .scanLockStatus s (fun t => t.tap.scan = bits (s.reg .sec 0 0x40) 6 0 + s.sec.stage * 256 + (if s.sec.recovery then 4096 else 0) ∧ t.tap.ir = s.tap.ir ∧ t.tap.probe = s.tap.probe ∧ SameMemory s t ∧ SameRegs s t (fun _ => False))) ∧
    (s.locked 4 = true →
      Gives (.tapInstruction 0x20#8) s (fun t => t.tap.ir = 0x20) ∧ Gives (.tapInstruction 0x21#8) s (fun t => t.tap.ir = 0x21) ∧
      (∀ value, exec (.mbistAccess value) s = .next s) ∧ (∀ value, exec (.arrayProbe value) s = .next s)) ∧
    (∀ value : Word, s.regBad (rOff .sec 0 0x40) value.toNat = none → s.reg .sec 0 0x40 &&& value.toNat = s.reg .sec 0 0x40 → bit value.toNat 4 = true →
      Gives (.lockWrite value) s (fun t => ∀ tap, FMap.get 0 t.tap.probe tap = 0))

/-- A step with a command at the front of the queue is that command's effect on the state with the queue's rest; with an empty
queue the block idles (log 1); the command table gives no row bits, so no word puts a command at the front. -/
def Obligations.StepRunsTheFrontCommand : Prop :=
  ∀ (s : State),
    (∀ c r, s.pending = c :: r → step s = exec c { s with pending := r }) ∧
    (∀ c, step { s with pending := c :: s.pending } = exec c s) ∧
    (s.pending = [] → step s = .next s) ∧
    (∀ nbits w, decodeTableWord nbits w = none ∧ s.withFetchWord nbits w = s)

/-- No command adds to the queue of waiting commands or takes from it (the model's own queue: log 1). -/
def Obligations.ExecKeepsTheQueue : Prop :=
  ∀ (c : Instr) (s t : State), exec c s = .next t → t.pending = s.pending

/-- R14, R53, R169, R414, R417, R503, R505: after power-up with nothing committed every register word that is not written yet
reads the value its page gives it, the queues are empty, the galley and the LPDDR5X list no byte, and no context exists. -/
def Obligations.ResetHoldsThePowerUpValues : Prop :=
  State.reset.Legal ∧ State.reset.pending = [] ∧ State.reset.reg .thm 0 0x44 = 118 ∧ State.reset.reg .thm 0 0x40 = 25 + 20 * 2 ^ 16 ∧ State.reset.reg .pwr 0 0x50 = 0x50505050 ∧
    (∀ q, q < 4 → State.reset.reg .que q 0x4C = 0 ∧ State.reset.reg .que q 0x50 = 0 ∧ State.reset.reg .que q 0x68 = 0) ∧ (∀ c, c < 64 → State.reset.reg .acc c 0x50 = 0 ∧ State.reset.reg .acc c 0x40 = 0) ∧
    (∀ n, (State.reset.queue n).inflight = []) ∧ (∀ a, State.reset.memByte a = 0#8) ∧ (∀ a, State.reset.lpByte a = 0#8) ∧ (∀ c, (State.reset.ctx c).ex = false) ∧
    (∀ u, (State.reset.unit u).state = 0) ∧ State.reset.ops = [] ∧ State.reset.jobs = [] ∧ State.reset.thm.st = 0 ∧ State.reset.host.writes = []

/-- Every step from a legal state leads to a legal state: the register file, the memories and the boot flash keep their
canonical form, the boot stage stays between 1 and 10 (R514), the thermal and the holdup state stay among the four of R456 and
R481, and the event ring holds at most 64 events (R399). -/
def Obligations.StepKeepsLegal : Prop :=
  ∀ (s t : State), s.Legal → step s = .next t → t.Legal

/-- R53, R56, R58, R63, R555: a completion goes to CQ_BASE + 32·CQ_TAIL with the queue's next sequence number and the phase of
the present pass, CQ_TAIL moves on, and turns to 0 and the phase over after the last entry, and CPLCNT counts one; the
completion of a command that a Hot Reset or link-down has lost is discarded. ATTEST with a short buffer shows it. -/
def Obligations.CompletionsAreWritten : Prop :=
  ∀ (s : State) (e : Entry) (c : Code) (r0 r1 fl gn : Nat) (x : InFl), s.inFl e = some x →
    let q := e.queue
    let tail := s.reg .que q 0x64
    let n := 2 ^ s.reg .que q 0x60
    let t := s.complete e c r0 r1 fl gn
    let st := s.queue q
    (x.lost = true → t = s.modQueue q (fun y => { y with inflight := dropInFl e y.inflight })) ∧
    (x.lost = false →
      (s.host.linkUp = true → t.host.writes = s.host.writes ++ [(s.reg64 .que q 0x58 + 32 * tail, cplBytes e c fl gn r0 r1 ((st.cseq + 1) % 2 ^ 32) st.phase)]) ∧
      t.reg .que q 0x64 = (tail + 1) % n % 2 ^ 32 ∧ t.reg64 .que q 0x78 = satNat 64 (s.reg64 .que q 0x78 + 1) ∧
      t.queue q = { st with inflight := dropInFl e st.inflight, cseq := (st.cseq + 1) % 2 ^ 32, phase := if (tail + 1) % n = 0 then !st.phase else st.phase } ∧
      (∀ k, k ≠ q → t.queue k = s.queue k) ∧ SameMemory s t ∧ SameRegs s t (fun k => k = rOff .que q 0x64 ∨ k = rOff .que q 0x78 ∨ k = rOff .que q 0x7C)) ∧
    (∀ b d0 d1 f g, (cplBytes e c b d0 d1 f g true).length = 32) ∧
    (∀ z : State, Begins z e 0x18 → entryBad e [2, 3] false [(8, 44)] false = none → e.p 48 4 < 17296 → exec (.attest e) z = .next ((z.marked e).complete e .range 0 0))

/-- R59 to R61, R511: a queue's command whose entry fails the checks of R60 completes with the first failing check's code and
has no other effect: a queue that the command is not accepted on gives E_OPCODE, a context that is not one gives E_VALUE, and
reserved bits or unused parameter bytes give E_RSVD; before the boot has restored what it needs, it completes with E_STATE. -/
def Obligations.SubmissionEntriesAreChecked : Prop :=
  ∀ (s : State) (e : Entry) (image data : List Byte) (bad : List Nat),
    let table : List (Instr × Nat × List Nat × Bool × List (Nat × Nat) × Bool) := [(.devCommit e, 0x01, [2], false, [], false), (.ctxCreate e, 0x02, [1, 2], true, [(8, 3), (16, 8)], decide (e.p 10 1 > 1)),
      (.ctxLoad e image bad, 0x03, [1, 2], true, [(8, 15)], decide (e.p 21 1 > 3)),
      (.ctxProgram e image, 0x04, [1, 2], true, [(8, 2)], false), (.ctxSwitch e, 0x05, [1, 2], true, [(8, 1)], false), (.ctxSave e, 0x06, [2], true, [(8, 13)], false), (.ctxRestore e data bad, 0x07, [2], true, [(8, 13)], false), (.ctxDestroy e, 0x08, [1, 2], true, [], false),
      (.run e, 0x09, [0, 1], true, [(8, 20)], false), (.slotDesc e data, 0x0A, [0], true, [(8, 1), (12, 25)], false), (.slotClose e, 0x0B, [0], false, [(8, 1), (12, 4)], false), (.calRun e, 0x0C, [2], false, [(8, 1), (16, 8)], decide (e.p 8 1 > 1)),
      (.testRun e, 0x0D, [2, 3], false, [(8, 1), (16, 8)], false), (.marchRun e, 0x0E, [2, 3], false, [(8, 2), (16, 8)], false), (.hkcUrgent e, 0x11, [2, 3], false, [(8, 3)], false), (.digestQuery e, 0x12, [1, 2, 3], false, [(8, 1), (16, 8)], false),
      (.census e, 0x13, [2], false, [(16, 8)], false), (.unitFence e, 0x16, [2], false, [(8, 1), (12, 3)], false), (.unitUnfence e, 0x17, [2], false, [(8, 1), (12, 3)], false), (.attest e, 0x18, [2, 3], false, [(8, 44)], false)]
    (∀ row, row ∈ table → let op := row.2.1
      (∀ k, Begins s e op → entryBad e row.2.2.1 row.2.2.2.1 row.2.2.2.2.1 row.2.2.2.2.2 = some k → ∃ fl, exec row.1 s = .next ((s.marked e).complete e k 0 0 fl)) ∧
      (s.canStart e op = true → s.accepted e = false → exec row.1 s = .next ((s.marked e).complete e .state 0 0)) ∧
      (s.canStart e op = false → exec row.1 s = .next s)) ∧
    (∀ qs need used rsvd,
      (e.queue ∉ qs → entryBad e qs need used rsvd = some .opcode) ∧
      (e.queue ∈ qs → (31 < e.ctx ∧ e.ctx ≠ 255 ∨ need = true ∧ e.ctx = 255) → entryBad e qs need used rsvd = some .value) ∧
      (e.queue ∈ qs → ¬ (31 < e.ctx ∧ e.ctx ≠ 255 ∨ need = true ∧ e.ctx = 255) → (1 < e.flags ∨ rsvd = true) → entryBad e qs need used rsvd = some .rsvd) ∧
      (∀ i, 8 ≤ i → i < 64 → fieldLe e.bytes i 1 ≠ 0 → (∀ u, u ∈ used → i < u.1 ∨ u.1 + u.2 ≤ i) → entryBad e qs need used rsvd ≠ none))
end

