-- ==== Sys2Proof/Laws/Map.lean ====
section
/-!
SUPPORT. Sys2Proof/Laws/Map.lean: reading after writing a sparse table, and the canonical form of every table operation.
-/
namespace Sys2Proof.Machine

variable {α : Type}

/-! ### Reading after a write -/

theorem FMap.get_erase (d : α) (m : FMap α) (k a : Nat) :
    FMap.get d (FMap.erase m k) a = if a = k then d else FMap.get d m a := by
  induction m with
  | nil => simp [FMap.erase, FMap.get]
  | cons p r ih =>
    obtain ⟨k', v'⟩ := p
    rw [FMap.erase] at ih
    by_cases h : k' = k
    · subst h
      by_cases ha : a = k' <;> simp_all [FMap.erase, FMap.get]
    · by_cases ha : a = k'
      · subst ha
        simp [FMap.erase, FMap.get, h]
      · simp [FMap.erase, FMap.get, h, ha, ih]

theorem FMap.get_ins (d : α) (m : FMap α) (k : Nat) (v : α) (a : Nat) (hm : ∀ p ∈ m, p.1 ≠ k) :
    FMap.get d (FMap.ins m k v) a = if a = k then v else FMap.get d m a := by
  induction m with
  | nil => simp [FMap.ins, FMap.get]
  | cons p r ih =>
    obtain ⟨k', v'⟩ := p
    have hk : k' ≠ k := hm (k', v') (by simp)
    have hr := ih (fun q hq => hm q (by simp [hq]))
    by_cases hlt : k < k'
    · simp [FMap.ins, hlt, FMap.get]
    · by_cases ha : a = k'
      · simp [FMap.ins, hlt, FMap.get, ha, hk]
      · simp [FMap.ins, hlt, FMap.get, ha, hr]

/-- A key reads as what was last put at it; every other key is as it was. -/
theorem FMap.get_put [DecidableEq α] (d : α) (m : FMap α) (k : Nat) (v : α) (a : Nat) :
    FMap.get d (FMap.put d m k v) a = if a = k then v else FMap.get d m a := by
  unfold FMap.put
  split
  · next h => rw [FMap.get_erase, h]
  · rw [FMap.get_ins _ _ _ _ _ (by intro p hp; simpa [FMap.erase] using (List.mem_filter.mp hp).2), FMap.get_erase]
    split <;> rfl

@[simp] theorem FMap.get_put_same [DecidableEq α] (d : α) (m : FMap α) (k : Nat) (v : α) :
    FMap.get d (FMap.put d m k v) k = v := by simp [FMap.get_put]

theorem FMap.get_erase_other (e : α) (m : FMap α) (k a : Nat) (h : a ≠ k) : FMap.get e (FMap.erase m k) a = FMap.get e m a := by
  rw [FMap.get_erase, if_neg h]

/-- Another key is as it was, whatever an unlisted entry reads as there. -/
theorem FMap.get_put_other [DecidableEq α] (d e : α) (m : FMap α) (k : Nat) (v : α) {a : Nat} (h : a ≠ k) :
    FMap.get e (FMap.put d m k v) a = FMap.get e m a := by
  unfold FMap.put
  split
  · exact FMap.get_erase_other e m k a h
  · rw [FMap.get_ins _ _ _ _ _ (by intro p hp; simpa [FMap.erase] using (List.mem_filter.mp hp).2), if_neg h, FMap.get_erase_other e m k a h]

theorem FMap.get_upd [DecidableEq α] (d : α) (m : FMap α) (k : Nat) (f : α → α) (a : Nat) :
    FMap.get d (FMap.upd d m k f) a = if a = k then f (FMap.get d m k) else FMap.get d m a := by
  simp [FMap.upd, FMap.get_put]

/-! ### Canonical form -/

theorem FMap.wfFrom_weaken [DecidableEq α] (d : Nat → α) (lo : Option Nat) (k : Nat) (m : FMap α)
    (hlo : ∀ l, lo = some l → l ≤ k) (h : FMap.wfFrom d (some k) m = true) : FMap.wfFrom d lo m = true := by
  cases m with
  | nil => rfl
  | cons p r =>
    obtain ⟨k', v'⟩ := p
    simp only [FMap.wfFrom, Bool.and_eq_true, decide_eq_true_eq] at h ⊢
    refine ⟨⟨?_, h.1.2⟩, h.2⟩
    cases lo with
    | none => rfl
    | some l => exact decide_eq_true (lt_of_le_of_lt (hlo l rfl) h.1.1)

/-- Entries taken away leave the canonical form. -/
theorem FMap.wfFrom_filter [DecidableEq α] (d : Nat → α) (p : Nat × α → Bool) (m : FMap α) :
    ∀ lo, FMap.wfFrom d lo m = true → FMap.wfFrom d lo (m.filter p) = true := by
  induction m with
  | nil => intro lo h; exact h
  | cons q r ih =>
    intro lo h
    obtain ⟨k, v⟩ := q
    simp only [FMap.wfFrom, Bool.and_eq_true, decide_eq_true_eq] at h
    rw [List.filter_cons]
    split
    · simp only [FMap.wfFrom, Bool.and_eq_true, decide_eq_true_eq]
      exact ⟨h.1, ih _ h.2⟩
    · refine ih lo (FMap.wfFrom_weaken d lo k r ?_ h.2)
      intro l hl; subst hl
      exact le_of_lt (by simpa using h.1.1)

theorem FMap.wf_filter [DecidableEq α] (d : Nat → α) (p : Nat × α → Bool) (m : FMap α) (h : FMap.wf d m = true) :
    FMap.wf d (m.filter p) = true := FMap.wfFrom_filter d p m none h

theorem FMap.wfFrom_ins [DecidableEq α] (d : Nat → α) (k : Nat) (v : α) (hv : v ≠ d k) (m : FMap α) :
    ∀ lo, (∀ l, lo = some l → l < k) → (∀ p ∈ m, p.1 ≠ k) → FMap.wfFrom d lo m = true → FMap.wfFrom d lo (FMap.ins m k v) = true := by
  induction m with
  | nil =>
    intro lo hlo _ _
    cases lo with
    | none => simp [FMap.ins, FMap.wfFrom, hv]
    | some l => simp [FMap.ins, FMap.wfFrom, hv, hlo l rfl]
  | cons q r ih =>
    intro lo hlo hne h
    obtain ⟨k', v'⟩ := q
    simp only [FMap.wfFrom, Bool.and_eq_true, decide_eq_true_eq] at h
    have hk : k' ≠ k := hne (k', v') (by simp)
    by_cases hlt : k < k'
    · simp only [FMap.ins, hlt, if_true, FMap.wfFrom, Bool.and_eq_true, decide_eq_true_eq]
      refine ⟨⟨?_, hv⟩, ⟨?_, h.1.2⟩, h.2⟩
      · cases lo with
        | none => rfl
        | some l => exact decide_eq_true (hlo l rfl)
      · first | exact hlt | trivial
    · simp only [FMap.ins, hlt, if_false, FMap.wfFrom, Bool.and_eq_true, decide_eq_true_eq]
      refine ⟨h.1, ih _ ?_ (fun p hp => hne p (by simp [hp])) h.2⟩
      intro l hl; cases hl; omega

/-- A write keeps the canonical form. -/
theorem FMap.wf_put [DecidableEq α] (d : Nat → α) (m : FMap α) (k : Nat) (v : α) (h : FMap.wf d m = true) :
    FMap.wf d (FMap.put (d k) m k v) = true := by
  unfold FMap.put
  split
  · exact FMap.wf_filter d _ m h
  · next hv =>
    exact FMap.wfFrom_ins d k v hv _ none (by simp)
      (by intro p hp; simpa [FMap.erase] using (List.mem_filter.mp hp).2) (FMap.wf_filter d _ m h)

/-- Two tables in canonical form, the second wholly above the first, make one. -/
theorem FMap.wfFrom_append [DecidableEq α] (d : Nat → α) (k : Nat) (m₂ : FMap α) (h₂ : FMap.wf d m₂ = true)
    (hk₂ : ∀ p ∈ m₂, k ≤ p.1) (m₁ : FMap α) :
    ∀ lo, (∀ l, lo = some l → l < k) → (∀ p ∈ m₁, p.1 < k) → FMap.wfFrom d lo m₁ = true → FMap.wfFrom d lo (m₁ ++ m₂) = true := by
  induction m₁ with
  | nil =>
    intro lo hlo _ _
    cases m₂ with
    | nil => rfl
    | cons q r =>
      obtain ⟨k', v'⟩ := q
      have hk' : k ≤ k' := hk₂ (k', v') (by simp)
      simp only [FMap.wf, FMap.wfFrom, Bool.and_eq_true, decide_eq_true_eq] at h₂
      simp only [List.nil_append, FMap.wfFrom, Bool.and_eq_true, decide_eq_true_eq]
      refine ⟨⟨?_, h₂.1.2⟩, h₂.2⟩
      cases lo with
      | none => rfl
      | some l => exact decide_eq_true (lt_of_lt_of_le (hlo l rfl) hk')
  | cons q r ih =>
    intro lo hlo hk₁ h
    obtain ⟨k', v'⟩ := q
    simp only [FMap.wfFrom, Bool.and_eq_true, decide_eq_true_eq] at h
    simp only [List.cons_append, FMap.wfFrom, Bool.and_eq_true, decide_eq_true_eq]
    refine ⟨h.1, ih _ ?_ (fun p hp => hk₁ p (by simp [hp])) h.2⟩
    intro l hl; cases hl; exact hk₁ (k', v') (by simp)

/-- A run of equal entries that differ from the unlisted value is in canonical form. -/
theorem FMap.wf_run [DecidableEq α] (d b : α) (hb : b ≠ d) (a n : Nat) :
    FMap.wf (fun _ => d) ((List.range n).map (fun i => (a + i, b))) = true := by
  induction n with
  | zero => rfl
  | succ n ih =>
    rw [List.range_succ, List.map_append]
    refine FMap.wfFrom_append _ (a + n) _ ?_ ?_ _ none (by simp) ?_ ih
    · simp [FMap.wf, FMap.wfFrom, hb]
    · simp
    · intro p hp
      obtain ⟨i, hi, rfl⟩ := List.mem_map.mp hp
      have := List.mem_range.mp hi
      show a + i < a + n
      omega

theorem FMap.wf_nil [DecidableEq α] (d : Nat → α) : FMap.wf d ([] : FMap α) = true := rfl

/-! ### Byte strings over a table -/

theorem writeBytes_wf (d : Byte) (bs : List Byte) :
    ∀ (m : FMap Byte) a, FMap.wf (fun _ => d) m = true → FMap.wf (fun _ => d) (writeBytes d m a bs) = true := by
  induction bs with
  | nil => intro m a h; exact h
  | cons b r ih => intro m a h; exact ih _ _ (FMap.wf_put (fun _ => d) m a b h)

/-- A byte inside the written extent reads as written; every other byte is as it was. -/
theorem get_writeBytes (d : Byte) (bs : List Byte) :
    ∀ (m : FMap Byte) (a x : Nat), FMap.get d (writeBytes d m a bs) x
      = if a ≤ x ∧ x < a + bs.length then nth 0#8 bs (x - a) else FMap.get d m x := by
  induction bs with
  | nil => intro m a x; simp only [writeBytes, List.length_nil]; rw [if_neg]; omega
  | cons b r ih =>
    intro m a x
    rw [writeBytes, ih, FMap.get_put]
    by_cases hx : x = a
    · subst hx
      simp [nth]
    · by_cases h : a ≤ x ∧ x < a + (b :: r).length
      · have h1 : a + 1 ≤ x ∧ x < a + 1 + r.length := by simp at h; omega
        have h2 : x - a = (x - (a + 1)) + 1 := by omega
        simp only [h, h1, and_self, if_true]
        rw [h2, nth]
      · have h1 : ¬(a + 1 ≤ x ∧ x < a + 1 + r.length) := by simp at h; omega
        simp only [h, h1, if_false, hx]

theorem length_readBytes (d : Byte) (m : FMap Byte) (n : Nat) : ∀ a, (readBytes d m a n).length = n := by
  induction n with
  | zero => intro a; rfl
  | succ n ih => intro a; simp [readBytes, ih]

theorem length_leBytes (n : Nat) : ∀ v, (leBytes n v).length = n := by
  induction n with
  | zero => intro v; rfl
  | succ n ih => intro v; simp [leBytes, ih]

/-- The bytes of a value give it back, as far as they reach. -/
theorem leNat_leBytes (n : Nat) : ∀ v, leNat (leBytes n v) = v % 256 ^ n := by
  induction n with
  | zero => intro v; simp [leBytes, leNat, Nat.mod_one]
  | succ n ih =>
    intro v
    simp only [leBytes, leNat, ih, BitVec.toNat_ofNat]
    rw [show (256 : Nat) ^ (n + 1) = 256 * 256 ^ n by rw [Nat.pow_succ, Nat.mul_comm], Nat.mod_mul]

theorem nth_eq_getElem {α : Type} (d : α) : ∀ (l : List α) (i : Nat) (h : i < l.length), nth d l i = l[i]
  | _ :: _, 0, _ => rfl
  | _ :: r, i + 1, h => nth_eq_getElem d r i (by simpa using h)

theorem nth_map_range {α : Type} (d : α) (f : Nat → α) (n i : Nat) (h : i < n) : nth d ((List.range n).map f) i = f i := by
  rw [nth_eq_getElem d _ i (by simpa using h)]
  simp

/-- What one step of a fold leaves as it was, the fold leaves as it was. -/
theorem foldl_keep {α β γ : Type} (g : β → γ) (f : β → α → β) (h : ∀ b a, g (f b a) = g b) (l : List α) : ∀ b, g (l.foldl f b) = g b := by
  induction l with
  | nil => intro b; rfl
  | cons a r ih => intro b; exact (ih (f b a)).trans (h b a)

end Sys2Proof.Machine
end

