-- ==== Sys2Proof/Laws/State.lean ====
section
/-!
SUPPORT. Sys2Proof/Laws/State.lean: what each basic update of the state leaves as it was, one lemma per part, and what
a part reads as after it was written.
-/
namespace Sys2Proof.Machine

variable (s : State)

/-! ### One normal form: `mod` and register updates by name are their `set` and `wr` -/

@[simp] theorem State.modArr_eq (k : Nat) (f : Arr → Arr) : s.modArr k f = s.setArr k (f (s.arr k)) := rfl
@[simp] theorem State.modTile_eq (k : Nat) (f : Tile → Tile) : s.modTile k f = s.setTile k (f (s.tile k)) := rfl
@[simp] theorem State.modClu_eq (k : Nat) (f : Clu → Clu) : s.modClu k f = s.setClu k (f (s.clu k)) := rfl
@[simp] theorem State.modCtx_eq (k : Nat) (f : Ctx → Ctx) : s.modCtx k f = s.setCtx k (f (s.ctx k)) := rfl
@[simp] theorem State.setReg_eq (t : PType) (i o v : Nat) : s.setReg t i o v = s.wr (rOff t i o) v := rfl
@[simp] theorem State.setReg64_eq (t : PType) (i o v : Nat) : s.setReg64 t i o v = s.wr64 (rOff t i o) v := rfl
@[simp] theorem State.reg_eq (t : PType) (i o : Nat) : s.reg t i o = s.rd (rOff t i o) := rfl
@[simp] theorem State.reg64_eq (t : PType) (i o : Nat) : s.reg64 t i o = s.rd64 (rOff t i o) := rfl

/-! ### What a part reads as after it was written -/

@[simp] theorem State.arr_setArr (j k : Nat) (x : Arr) : (s.setArr j x).arr k = if k = j then x else s.arr k := by
  unfold State.arr State.setArr
  by_cases h : k = j
  · subst h; simp
  · simp [FMap.get_put_other, h]
@[simp] theorem State.tile_setTile (j k : Nat) (x : Tile) : (s.setTile j x).tile k = if k = j then x else s.tile k := FMap.get_put _ _ _ _ _
@[simp] theorem State.clu_setClu (j k : Nat) (x : Clu) : (s.setClu j x).clu k = if k = j then x else s.clu k := FMap.get_put _ _ _ _ _
@[simp] theorem State.ctx_setCtx (j k : Nat) (x : Ctx) : (s.setCtx j x).ctx k = if k = j then x else s.ctx k := FMap.get_put _ _ _ _ _
@[simp] theorem State.cmp_modCmp (j k : Nat) (f : Cmp → Cmp) : (s.modCmp j f).cmp k = if k = j then f (s.cmp j) else s.cmp k := FMap.get_put _ _ _ _ _
@[simp] theorem State.queue_modQueue (j k : Nat) (f : QueueSt → QueueSt) : (s.modQueue j f).queue k = if k = j then f (s.queue j) else s.queue k := FMap.get_put _ _ _ _ _
@[simp] theorem State.page_modPage (j k : Nat) (f : PageHdr → PageHdr) : (s.modPage j f).page k = if k = j then f (s.page j) else s.page k := FMap.get_put _ _ _ _ _
@[simp] theorem State.unit_modUnit (j k : Nat) (f : UnitRec → UnitRec) : (s.modUnit j f).unit k = if k = j then f (s.unit j) else s.unit k := FMap.get_put _ _ _ _ _
@[simp] theorem State.dom_modDom (j k : Nat) (f : Dom → Dom) : (s.modDom j f).dom k = if k = j then f (s.dom j) else s.dom k := FMap.get_put _ _ _ _ _
@[simp] theorem State.gs_setGs (j k v : Nat) : (s.setGs j v).gs k = if k = j then v else s.gs k := FMap.get_put _ _ _ _ _

@[simp] theorem State.free_withFree (x : Nat) : (s.withFree x).free = x := rfl
@[simp] theorem State.perst_withPerst (x : Bool) : (s.withPerst x).perst = x := rfl
@[simp] theorem State.railOk_withRailOk (x : Bool) : (s.withRailOk x).railOk = x := rfl
@[simp] theorem State.host_withHost (x : HostSt) : (s.withHost x).host = x := rfl
@[simp] theorem State.lpBad_withLpBad (x : FMap Bool) : (s.withLpBad x).lpBad = x := rfl
@[simp] theorem State.ops_withOps (x : List Op) : (s.withOps x).ops = x := rfl
@[simp] theorem State.nextOp_withNextOp (x : Nat) : (s.withNextOp x).nextOp = x := rfl
@[simp] theorem State.reports_withReports (x : List Report) : (s.withReports x).reports = x := rfl
@[simp] theorem State.invAll_withInvAll (x : Nat) : (s.withInvAll x).invAll = x := rfl
@[simp] theorem State.epochCtr_withEpochCtr (x : Nat) : (s.withEpochCtr x).epochCtr = x := rfl
@[simp] theorem State.jobs_withJobs (x : List Job) : (s.withJobs x).jobs = x := rfl
@[simp] theorem State.carriers_withCarriers (x : FMap Carrier) : (s.withCarriers x).carriers = x := rfl
@[simp] theorem State.fhp_withFhp (x : FMap Fhp) : (s.withFhp x).fhp = x := rfl
@[simp] theorem State.col_withCol (x : ColSt) : (s.withCol x).col = x := rfl
@[simp] theorem State.hkc_withHkc (x : HkcSt) : (s.withHkc x).hkc = x := rfl
@[simp] theorem State.xng_withXng (x : FMap Xng) : (s.withXng x).xng = x := rfl
@[simp] theorem State.qfreq_withQfreq (x : FMap Nat) : (s.withQfreq x).qfreq = x := rfl
@[simp] theorem State.lpx_withLpx (x : FMap Nat) : (s.withLpx x).lpx = x := rfl
@[simp] theorem State.dsy_withDsy (x : FMap Dsy) : (s.withDsy x).dsy = x := rfl
@[simp] theorem State.chain_withChain (x : ChainSt) : (s.withChain x).chain = x := rfl
@[simp] theorem State.cfg_withCfg (x : CfgSt) : (s.withCfg x).cfg = x := rfl
@[simp] theorem State.tap_withTap (x : TapSt) : (s.withTap x).tap = x := rfl

/-- A register word holds the low 32 bits of what was written. -/
@[simp] theorem State.rd_wr (o v k : Nat) : (s.wr o v).rd k = if k = o then v % 2 ^ 32 else s.rd k := by
  unfold State.rd State.wr
  by_cases h : k = o
  · subst h; simp
  · simp [FMap.get_put_other, h]

/-- A register pair holds the low 64 bits of what was written, and every other word stays. -/
theorem State.rd_wr64 (o v k : Nat) :
    (s.wr64 o v).rd k = if k = o + 4 then v / 2 ^ 32 % 2 ^ 32 else if k = o then v % 2 ^ 32 else s.rd k := by
  show ((s.wr o v).wr (o + 4) (v / 2 ^ 32)).rd k = _
  rw [State.rd_wr, State.rd_wr]

@[simp] theorem State.rd64_wr64 (o v : Nat) : (s.wr64 o v).rd64 o = v % 2 ^ 64 := by
  unfold State.rd64
  rw [State.rd_wr64, State.rd_wr64, if_neg (by omega), if_pos rfl, if_pos rfl]
  omega

theorem State.rd64_lt (o : Nat) : s.rd64 o < 2 ^ 64 := by
  unfold State.rd64 State.rd
  have h1 := (FMap.get (wordReset o) s.regs o).isLt
  have h2 := (FMap.get (wordReset (o + 4)) s.regs (o + 4)).isLt
  omega

/-- A counter after `n` more events (R105). -/
@[simp] theorem State.rd_bump_same (t : PType) (i o n : Nat) :
    (s.bump t i o n).rd (rOff t i o) = if n = 0 then s.rd (rOff t i o) else satNat 32 (s.rd (rOff t i o) + n) := by
  unfold State.bump
  split
  · rfl
  · simp only [State.setReg_eq, State.rd_wr, if_true, State.reg_eq]
    exact Nat.mod_eq_of_lt (by unfold satNat; omega)

theorem State.rd_bump_other (t : PType) (i o n k : Nat) (h : k ≠ rOff t i o) : (s.bump t i o n).rd k = s.rd k := by
  unfold State.bump
  split
  · rfl
  · simp [h]

@[simp] theorem State.rd64_bump64_same (t : PType) (i o n : Nat) :
    (s.bump64 t i o n).rd64 (rOff t i o) = if n = 0 then s.rd64 (rOff t i o) else satNat 64 (s.rd64 (rOff t i o) + n) := by
  unfold State.bump64
  split
  · rfl
  · simp only [State.setReg64_eq, State.rd64_wr64, State.reg64_eq]
    exact Nat.mod_eq_of_lt (by unfold satNat; omega)

theorem State.rd_bump64_other (t : PType) (i o n k : Nat) (h : k ≠ rOff t i o) (h' : k ≠ rOff t i o + 4) :
    (s.bump64 t i o n).rd k = s.rd k := by
  unfold State.bump64
  split
  · rfl
  · rw [State.setReg64_eq, State.rd_wr64, if_neg h', if_neg h]

/-! ### What each update leaves as it was -/

@[simp] theorem State.setArr_pending (j : Nat) (x : Arr) : (s.setArr j x).pending = s.pending := rfl
@[simp] theorem State.setArr_free (j : Nat) (x : Arr) : (s.setArr j x).free = s.free := rfl
@[simp] theorem State.setArr_perst (j : Nat) (x : Arr) : (s.setArr j x).perst = s.perst := rfl
@[simp] theorem State.setArr_powered (j : Nat) (x : Arr) : (s.setArr j x).powered = s.powered := rfl
@[simp] theorem State.setArr_railOk (j : Nat) (x : Arr) : (s.setArr j x).railOk = s.railOk := rfl
@[simp] theorem State.setArr_regs (j : Nat) (x : Arr) : (s.setArr j x).regs = s.regs := rfl
@[simp] theorem State.setArr_pages (j : Nat) (x : Arr) : (s.setArr j x).pages = s.pages := rfl
@[simp] theorem State.setArr_queues (j : Nat) (x : Arr) : (s.setArr j x).queues = s.queues := rfl
@[simp] theorem State.setArr_host (j : Nat) (x : Arr) : (s.setArr j x).host = s.host := rfl
@[simp] theorem State.setArr_mem (j : Nat) (x : Arr) : (s.setArr j x).mem = s.mem := rfl
@[simp] theorem State.setArr_parBad (j : Nat) (x : Arr) : (s.setArr j x).parBad = s.parBad := rfl
@[simp] theorem State.setArr_lpmem (j : Nat) (x : Arr) : (s.setArr j x).lpmem = s.lpmem := rfl
@[simp] theorem State.setArr_lpBad (j : Nat) (x : Arr) : (s.setArr j x).lpBad = s.lpBad := rfl
@[simp] theorem State.setArr_tiles (j : Nat) (x : Arr) : (s.setArr j x).tiles = s.tiles := rfl
@[simp] theorem State.setArr_clus (j : Nat) (x : Arr) : (s.setArr j x).clus = s.clus := rfl
@[simp] theorem State.setArr_ctxs (j : Nat) (x : Arr) : (s.setArr j x).ctxs = s.ctxs := rfl
@[simp] theorem State.setArr_cmps (j : Nat) (x : Arr) : (s.setArr j x).cmps = s.cmps := rfl
@[simp] theorem State.setArr_ops (j : Nat) (x : Arr) : (s.setArr j x).ops = s.ops := rfl
@[simp] theorem State.setArr_nextOp (j : Nat) (x : Arr) : (s.setArr j x).nextOp = s.nextOp := rfl
@[simp] theorem State.setArr_gsem (j : Nat) (x : Arr) : (s.setArr j x).gsem = s.gsem := rfl
@[simp] theorem State.setArr_units (j : Nat) (x : Arr) : (s.setArr j x).units = s.units := rfl
@[simp] theorem State.setArr_reports (j : Nat) (x : Arr) : (s.setArr j x).reports = s.reports := rfl
@[simp] theorem State.setArr_events (j : Nat) (x : Arr) : (s.setArr j x).events = s.events := rfl
@[simp] theorem State.setArr_invAll (j : Nat) (x : Arr) : (s.setArr j x).invAll = s.invAll := rfl
@[simp] theorem State.setArr_epochCtr (j : Nat) (x : Arr) : (s.setArr j x).epochCtr = s.epochCtr := rfl
@[simp] theorem State.setArr_jobs (j : Nat) (x : Arr) : (s.setArr j x).jobs = s.jobs := rfl
@[simp] theorem State.setArr_carriers (j : Nat) (x : Arr) : (s.setArr j x).carriers = s.carriers := rfl
@[simp] theorem State.setArr_fhp (j : Nat) (x : Arr) : (s.setArr j x).fhp = s.fhp := rfl
@[simp] theorem State.setArr_col (j : Nat) (x : Arr) : (s.setArr j x).col = s.col := rfl
@[simp] theorem State.setArr_hld (j : Nat) (x : Arr) : (s.setArr j x).hld = s.hld := rfl
@[simp] theorem State.setArr_hkc (j : Nat) (x : Arr) : (s.setArr j x).hkc = s.hkc := rfl
@[simp] theorem State.setArr_thm (j : Nat) (x : Arr) : (s.setArr j x).thm = s.thm := rfl
@[simp] theorem State.setArr_doms (j : Nat) (x : Arr) : (s.setArr j x).doms = s.doms := rfl
@[simp] theorem State.setArr_xng (j : Nat) (x : Arr) : (s.setArr j x).xng = s.xng := rfl
@[simp] theorem State.setArr_qfreq (j : Nat) (x : Arr) : (s.setArr j x).qfreq = s.qfreq := rfl
@[simp] theorem State.setArr_lpx (j : Nat) (x : Arr) : (s.setArr j x).lpx = s.lpx := rfl
@[simp] theorem State.setArr_dsy (j : Nat) (x : Arr) : (s.setArr j x).dsy = s.dsy := rfl
@[simp] theorem State.setArr_chain (j : Nat) (x : Arr) : (s.setArr j x).chain = s.chain := rfl
@[simp] theorem State.setArr_cfg (j : Nat) (x : Arr) : (s.setArr j x).cfg = s.cfg := rfl
@[simp] theorem State.setArr_sec (j : Nat) (x : Arr) : (s.setArr j x).sec = s.sec := rfl
@[simp] theorem State.setArr_tap (j : Nat) (x : Arr) : (s.setArr j x).tap = s.tap := rfl
@[simp] theorem State.tile_setArr (j : Nat) (x : Arr) (k : Nat) : (s.setArr j x).tile k = s.tile k := rfl
@[simp] theorem State.clu_setArr (j : Nat) (x : Arr) (k : Nat) : (s.setArr j x).clu k = s.clu k := rfl
@[simp] theorem State.ctx_setArr (j : Nat) (x : Arr) (k : Nat) : (s.setArr j x).ctx k = s.ctx k := rfl
@[simp] theorem State.cmp_setArr (j : Nat) (x : Arr) (k : Nat) : (s.setArr j x).cmp k = s.cmp k := rfl
@[simp] theorem State.queue_setArr (j : Nat) (x : Arr) (k : Nat) : (s.setArr j x).queue k = s.queue k := rfl
@[simp] theorem State.page_setArr (j : Nat) (x : Arr) (k : Nat) : (s.setArr j x).page k = s.page k := rfl
@[simp] theorem State.unit_setArr (j : Nat) (x : Arr) (k : Nat) : (s.setArr j x).unit k = s.unit k := rfl
@[simp] theorem State.dom_setArr (j : Nat) (x : Arr) (k : Nat) : (s.setArr j x).dom k = s.dom k := rfl
@[simp] theorem State.gs_setArr (j : Nat) (x : Arr) (k : Nat) : (s.setArr j x).gs k = s.gs k := rfl
@[simp] theorem State.rd_setArr (j : Nat) (x : Arr) (k : Nat) : (s.setArr j x).rd k = s.rd k := rfl
@[simp] theorem State.memByte_setArr (j : Nat) (x : Arr) (k : Nat) : (s.setArr j x).memByte k = s.memByte k := rfl
@[simp] theorem State.lpByte_setArr (j : Nat) (x : Arr) (k : Nat) : (s.setArr j x).lpByte k = s.lpByte k := rfl

@[simp] theorem State.setTile_pending (j : Nat) (x : Tile) : (s.setTile j x).pending = s.pending := rfl
@[simp] theorem State.setTile_free (j : Nat) (x : Tile) : (s.setTile j x).free = s.free := rfl
@[simp] theorem State.setTile_perst (j : Nat) (x : Tile) : (s.setTile j x).perst = s.perst := rfl
@[simp] theorem State.setTile_powered (j : Nat) (x : Tile) : (s.setTile j x).powered = s.powered := rfl
@[simp] theorem State.setTile_railOk (j : Nat) (x : Tile) : (s.setTile j x).railOk = s.railOk := rfl
@[simp] theorem State.setTile_regs (j : Nat) (x : Tile) : (s.setTile j x).regs = s.regs := rfl
@[simp] theorem State.setTile_pages (j : Nat) (x : Tile) : (s.setTile j x).pages = s.pages := rfl
@[simp] theorem State.setTile_queues (j : Nat) (x : Tile) : (s.setTile j x).queues = s.queues := rfl
@[simp] theorem State.setTile_host (j : Nat) (x : Tile) : (s.setTile j x).host = s.host := rfl
@[simp] theorem State.setTile_mem (j : Nat) (x : Tile) : (s.setTile j x).mem = s.mem := rfl
@[simp] theorem State.setTile_parBad (j : Nat) (x : Tile) : (s.setTile j x).parBad = s.parBad := rfl
@[simp] theorem State.setTile_lpmem (j : Nat) (x : Tile) : (s.setTile j x).lpmem = s.lpmem := rfl
@[simp] theorem State.setTile_lpBad (j : Nat) (x : Tile) : (s.setTile j x).lpBad = s.lpBad := rfl
@[simp] theorem State.setTile_arrays (j : Nat) (x : Tile) : (s.setTile j x).arrays = s.arrays := rfl
@[simp] theorem State.setTile_clus (j : Nat) (x : Tile) : (s.setTile j x).clus = s.clus := rfl
@[simp] theorem State.setTile_ctxs (j : Nat) (x : Tile) : (s.setTile j x).ctxs = s.ctxs := rfl
@[simp] theorem State.setTile_cmps (j : Nat) (x : Tile) : (s.setTile j x).cmps = s.cmps := rfl
@[simp] theorem State.setTile_ops (j : Nat) (x : Tile) : (s.setTile j x).ops = s.ops := rfl
@[simp] theorem State.setTile_nextOp (j : Nat) (x : Tile) : (s.setTile j x).nextOp = s.nextOp := rfl
@[simp] theorem State.setTile_gsem (j : Nat) (x : Tile) : (s.setTile j x).gsem = s.gsem := rfl
@[simp] theorem State.setTile_units (j : Nat) (x : Tile) : (s.setTile j x).units = s.units := rfl
@[simp] theorem State.setTile_reports (j : Nat) (x : Tile) : (s.setTile j x).reports = s.reports := rfl
@[simp] theorem State.setTile_events (j : Nat) (x : Tile) : (s.setTile j x).events = s.events := rfl
@[simp] theorem State.setTile_invAll (j : Nat) (x : Tile) : (s.setTile j x).invAll = s.invAll := rfl
@[simp] theorem State.setTile_epochCtr (j : Nat) (x : Tile) : (s.setTile j x).epochCtr = s.epochCtr := rfl
@[simp] theorem State.setTile_jobs (j : Nat) (x : Tile) : (s.setTile j x).jobs = s.jobs := rfl
@[simp] theorem State.setTile_carriers (j : Nat) (x : Tile) : (s.setTile j x).carriers = s.carriers := rfl
@[simp] theorem State.setTile_fhp (j : Nat) (x : Tile) : (s.setTile j x).fhp = s.fhp := rfl
@[simp] theorem State.setTile_col (j : Nat) (x : Tile) : (s.setTile j x).col = s.col := rfl
@[simp] theorem State.setTile_hld (j : Nat) (x : Tile) : (s.setTile j x).hld = s.hld := rfl
@[simp] theorem State.setTile_hkc (j : Nat) (x : Tile) : (s.setTile j x).hkc = s.hkc := rfl
@[simp] theorem State.setTile_thm (j : Nat) (x : Tile) : (s.setTile j x).thm = s.thm := rfl
@[simp] theorem State.setTile_doms (j : Nat) (x : Tile) : (s.setTile j x).doms = s.doms := rfl
@[simp] theorem State.setTile_xng (j : Nat) (x : Tile) : (s.setTile j x).xng = s.xng := rfl
@[simp] theorem State.setTile_qfreq (j : Nat) (x : Tile) : (s.setTile j x).qfreq = s.qfreq := rfl
@[simp] theorem State.setTile_lpx (j : Nat) (x : Tile) : (s.setTile j x).lpx = s.lpx := rfl
@[simp] theorem State.setTile_dsy (j : Nat) (x : Tile) : (s.setTile j x).dsy = s.dsy := rfl
@[simp] theorem State.setTile_chain (j : Nat) (x : Tile) : (s.setTile j x).chain = s.chain := rfl
@[simp] theorem State.setTile_cfg (j : Nat) (x : Tile) : (s.setTile j x).cfg = s.cfg := rfl
@[simp] theorem State.setTile_sec (j : Nat) (x : Tile) : (s.setTile j x).sec = s.sec := rfl
@[simp] theorem State.setTile_tap (j : Nat) (x : Tile) : (s.setTile j x).tap = s.tap := rfl
@[simp] theorem State.arr_setTile (j : Nat) (x : Tile) (k : Nat) : (s.setTile j x).arr k = s.arr k := rfl
@[simp] theorem State.clu_setTile (j : Nat) (x : Tile) (k : Nat) : (s.setTile j x).clu k = s.clu k := rfl
@[simp] theorem State.ctx_setTile (j : Nat) (x : Tile) (k : Nat) : (s.setTile j x).ctx k = s.ctx k := rfl
@[simp] theorem State.cmp_setTile (j : Nat) (x : Tile) (k : Nat) : (s.setTile j x).cmp k = s.cmp k := rfl
@[simp] theorem State.queue_setTile (j : Nat) (x : Tile) (k : Nat) : (s.setTile j x).queue k = s.queue k := rfl
@[simp] theorem State.page_setTile (j : Nat) (x : Tile) (k : Nat) : (s.setTile j x).page k = s.page k := rfl
@[simp] theorem State.unit_setTile (j : Nat) (x : Tile) (k : Nat) : (s.setTile j x).unit k = s.unit k := rfl
@[simp] theorem State.dom_setTile (j : Nat) (x : Tile) (k : Nat) : (s.setTile j x).dom k = s.dom k := rfl
@[simp] theorem State.gs_setTile (j : Nat) (x : Tile) (k : Nat) : (s.setTile j x).gs k = s.gs k := rfl
@[simp] theorem State.rd_setTile (j : Nat) (x : Tile) (k : Nat) : (s.setTile j x).rd k = s.rd k := rfl
@[simp] theorem State.memByte_setTile (j : Nat) (x : Tile) (k : Nat) : (s.setTile j x).memByte k = s.memByte k := rfl
@[simp] theorem State.lpByte_setTile (j : Nat) (x : Tile) (k : Nat) : (s.setTile j x).lpByte k = s.lpByte k := rfl

@[simp] theorem State.setClu_pending (j : Nat) (x : Clu) : (s.setClu j x).pending = s.pending := rfl
@[simp] theorem State.setClu_free (j : Nat) (x : Clu) : (s.setClu j x).free = s.free := rfl
@[simp] theorem State.setClu_perst (j : Nat) (x : Clu) : (s.setClu j x).perst = s.perst := rfl
@[simp] theorem State.setClu_powered (j : Nat) (x : Clu) : (s.setClu j x).powered = s.powered := rfl
@[simp] theorem State.setClu_railOk (j : Nat) (x : Clu) : (s.setClu j x).railOk = s.railOk := rfl
@[simp] theorem State.setClu_regs (j : Nat) (x : Clu) : (s.setClu j x).regs = s.regs := rfl
@[simp] theorem State.setClu_pages (j : Nat) (x : Clu) : (s.setClu j x).pages = s.pages := rfl
@[simp] theorem State.setClu_queues (j : Nat) (x : Clu) : (s.setClu j x).queues = s.queues := rfl
@[simp] theorem State.setClu_host (j : Nat) (x : Clu) : (s.setClu j x).host = s.host := rfl
@[simp] theorem State.setClu_mem (j : Nat) (x : Clu) : (s.setClu j x).mem = s.mem := rfl
@[simp] theorem State.setClu_parBad (j : Nat) (x : Clu) : (s.setClu j x).parBad = s.parBad := rfl
@[simp] theorem State.setClu_lpmem (j : Nat) (x : Clu) : (s.setClu j x).lpmem = s.lpmem := rfl
@[simp] theorem State.setClu_lpBad (j : Nat) (x : Clu) : (s.setClu j x).lpBad = s.lpBad := rfl
@[simp] theorem State.setClu_arrays (j : Nat) (x : Clu) : (s.setClu j x).arrays = s.arrays := rfl
@[simp] theorem State.setClu_tiles (j : Nat) (x : Clu) : (s.setClu j x).tiles = s.tiles := rfl
@[simp] theorem State.setClu_ctxs (j : Nat) (x : Clu) : (s.setClu j x).ctxs = s.ctxs := rfl
@[simp] theorem State.setClu_cmps (j : Nat) (x : Clu) : (s.setClu j x).cmps = s.cmps := rfl
@[simp] theorem State.setClu_ops (j : Nat) (x : Clu) : (s.setClu j x).ops = s.ops := rfl
@[simp] theorem State.setClu_nextOp (j : Nat) (x : Clu) : (s.setClu j x).nextOp = s.nextOp := rfl
@[simp] theorem State.setClu_gsem (j : Nat) (x : Clu) : (s.setClu j x).gsem = s.gsem := rfl
@[simp] theorem State.setClu_units (j : Nat) (x : Clu) : (s.setClu j x).units = s.units := rfl
@[simp] theorem State.setClu_reports (j : Nat) (x : Clu) : (s.setClu j x).reports = s.reports := rfl
@[simp] theorem State.setClu_events (j : Nat) (x : Clu) : (s.setClu j x).events = s.events := rfl
@[simp] theorem State.setClu_invAll (j : Nat) (x : Clu) : (s.setClu j x).invAll = s.invAll := rfl
@[simp] theorem State.setClu_epochCtr (j : Nat) (x : Clu) : (s.setClu j x).epochCtr = s.epochCtr := rfl
@[simp] theorem State.setClu_jobs (j : Nat) (x : Clu) : (s.setClu j x).jobs = s.jobs := rfl
@[simp] theorem State.setClu_carriers (j : Nat) (x : Clu) : (s.setClu j x).carriers = s.carriers := rfl
@[simp] theorem State.setClu_fhp (j : Nat) (x : Clu) : (s.setClu j x).fhp = s.fhp := rfl
@[simp] theorem State.setClu_col (j : Nat) (x : Clu) : (s.setClu j x).col = s.col := rfl
@[simp] theorem State.setClu_hld (j : Nat) (x : Clu) : (s.setClu j x).hld = s.hld := rfl
@[simp] theorem State.setClu_hkc (j : Nat) (x : Clu) : (s.setClu j x).hkc = s.hkc := rfl
@[simp] theorem State.setClu_thm (j : Nat) (x : Clu) : (s.setClu j x).thm = s.thm := rfl
@[simp] theorem State.setClu_doms (j : Nat) (x : Clu) : (s.setClu j x).doms = s.doms := rfl
@[simp] theorem State.setClu_xng (j : Nat) (x : Clu) : (s.setClu j x).xng = s.xng := rfl
@[simp] theorem State.setClu_qfreq (j : Nat) (x : Clu) : (s.setClu j x).qfreq = s.qfreq := rfl
@[simp] theorem State.setClu_lpx (j : Nat) (x : Clu) : (s.setClu j x).lpx = s.lpx := rfl
@[simp] theorem State.setClu_dsy (j : Nat) (x : Clu) : (s.setClu j x).dsy = s.dsy := rfl
@[simp] theorem State.setClu_chain (j : Nat) (x : Clu) : (s.setClu j x).chain = s.chain := rfl
@[simp] theorem State.setClu_cfg (j : Nat) (x : Clu) : (s.setClu j x).cfg = s.cfg := rfl
@[simp] theorem State.setClu_sec (j : Nat) (x : Clu) : (s.setClu j x).sec = s.sec := rfl
@[simp] theorem State.setClu_tap (j : Nat) (x : Clu) : (s.setClu j x).tap = s.tap := rfl
@[simp] theorem State.arr_setClu (j : Nat) (x : Clu) (k : Nat) : (s.setClu j x).arr k = s.arr k := rfl
@[simp] theorem State.tile_setClu (j : Nat) (x : Clu) (k : Nat) : (s.setClu j x).tile k = s.tile k := rfl
@[simp] theorem State.ctx_setClu (j : Nat) (x : Clu) (k : Nat) : (s.setClu j x).ctx k = s.ctx k := rfl
@[simp] theorem State.cmp_setClu (j : Nat) (x : Clu) (k : Nat) : (s.setClu j x).cmp k = s.cmp k := rfl
@[simp] theorem State.queue_setClu (j : Nat) (x : Clu) (k : Nat) : (s.setClu j x).queue k = s.queue k := rfl
@[simp] theorem State.page_setClu (j : Nat) (x : Clu) (k : Nat) : (s.setClu j x).page k = s.page k := rfl
@[simp] theorem State.unit_setClu (j : Nat) (x : Clu) (k : Nat) : (s.setClu j x).unit k = s.unit k := rfl
@[simp] theorem State.dom_setClu (j : Nat) (x : Clu) (k : Nat) : (s.setClu j x).dom k = s.dom k := rfl
@[simp] theorem State.gs_setClu (j : Nat) (x : Clu) (k : Nat) : (s.setClu j x).gs k = s.gs k := rfl
@[simp] theorem State.rd_setClu (j : Nat) (x : Clu) (k : Nat) : (s.setClu j x).rd k = s.rd k := rfl
@[simp] theorem State.memByte_setClu (j : Nat) (x : Clu) (k : Nat) : (s.setClu j x).memByte k = s.memByte k := rfl
@[simp] theorem State.lpByte_setClu (j : Nat) (x : Clu) (k : Nat) : (s.setClu j x).lpByte k = s.lpByte k := rfl

@[simp] theorem State.setCtx_pending (j : Nat) (x : Ctx) : (s.setCtx j x).pending = s.pending := rfl
@[simp] theorem State.setCtx_free (j : Nat) (x : Ctx) : (s.setCtx j x).free = s.free := rfl
@[simp] theorem State.setCtx_perst (j : Nat) (x : Ctx) : (s.setCtx j x).perst = s.perst := rfl
@[simp] theorem State.setCtx_powered (j : Nat) (x : Ctx) : (s.setCtx j x).powered = s.powered := rfl
@[simp] theorem State.setCtx_railOk (j : Nat) (x : Ctx) : (s.setCtx j x).railOk = s.railOk := rfl
@[simp] theorem State.setCtx_regs (j : Nat) (x : Ctx) : (s.setCtx j x).regs = s.regs := rfl
@[simp] theorem State.setCtx_pages (j : Nat) (x : Ctx) : (s.setCtx j x).pages = s.pages := rfl
@[simp] theorem State.setCtx_queues (j : Nat) (x : Ctx) : (s.setCtx j x).queues = s.queues := rfl
@[simp] theorem State.setCtx_host (j : Nat) (x : Ctx) : (s.setCtx j x).host = s.host := rfl
@[simp] theorem State.setCtx_mem (j : Nat) (x : Ctx) : (s.setCtx j x).mem = s.mem := rfl
@[simp] theorem State.setCtx_parBad (j : Nat) (x : Ctx) : (s.setCtx j x).parBad = s.parBad := rfl
@[simp] theorem State.setCtx_lpmem (j : Nat) (x : Ctx) : (s.setCtx j x).lpmem = s.lpmem := rfl
@[simp] theorem State.setCtx_lpBad (j : Nat) (x : Ctx) : (s.setCtx j x).lpBad = s.lpBad := rfl
@[simp] theorem State.setCtx_arrays (j : Nat) (x : Ctx) : (s.setCtx j x).arrays = s.arrays := rfl
@[simp] theorem State.setCtx_tiles (j : Nat) (x : Ctx) : (s.setCtx j x).tiles = s.tiles := rfl
@[simp] theorem State.setCtx_clus (j : Nat) (x : Ctx) : (s.setCtx j x).clus = s.clus := rfl
@[simp] theorem State.setCtx_cmps (j : Nat) (x : Ctx) : (s.setCtx j x).cmps = s.cmps := rfl
@[simp] theorem State.setCtx_ops (j : Nat) (x : Ctx) : (s.setCtx j x).ops = s.ops := rfl
@[simp] theorem State.setCtx_nextOp (j : Nat) (x : Ctx) : (s.setCtx j x).nextOp = s.nextOp := rfl
@[simp] theorem State.setCtx_gsem (j : Nat) (x : Ctx) : (s.setCtx j x).gsem = s.gsem := rfl
@[simp] theorem State.setCtx_units (j : Nat) (x : Ctx) : (s.setCtx j x).units = s.units := rfl
@[simp] theorem State.setCtx_reports (j : Nat) (x : Ctx) : (s.setCtx j x).reports = s.reports := rfl
@[simp] theorem State.setCtx_events (j : Nat) (x : Ctx) : (s.setCtx j x).events = s.events := rfl
@[simp] theorem State.setCtx_invAll (j : Nat) (x : Ctx) : (s.setCtx j x).invAll = s.invAll := rfl
@[simp] theorem State.setCtx_epochCtr (j : Nat) (x : Ctx) : (s.setCtx j x).epochCtr = s.epochCtr := rfl
@[simp] theorem State.setCtx_jobs (j : Nat) (x : Ctx) : (s.setCtx j x).jobs = s.jobs := rfl
@[simp] theorem State.setCtx_carriers (j : Nat) (x : Ctx) : (s.setCtx j x).carriers = s.carriers := rfl
@[simp] theorem State.setCtx_fhp (j : Nat) (x : Ctx) : (s.setCtx j x).fhp = s.fhp := rfl
@[simp] theorem State.setCtx_col (j : Nat) (x : Ctx) : (s.setCtx j x).col = s.col := rfl
@[simp] theorem State.setCtx_hld (j : Nat) (x : Ctx) : (s.setCtx j x).hld = s.hld := rfl
@[simp] theorem State.setCtx_hkc (j : Nat) (x : Ctx) : (s.setCtx j x).hkc = s.hkc := rfl
@[simp] theorem State.setCtx_thm (j : Nat) (x : Ctx) : (s.setCtx j x).thm = s.thm := rfl
@[simp] theorem State.setCtx_doms (j : Nat) (x : Ctx) : (s.setCtx j x).doms = s.doms := rfl
@[simp] theorem State.setCtx_xng (j : Nat) (x : Ctx) : (s.setCtx j x).xng = s.xng := rfl
@[simp] theorem State.setCtx_qfreq (j : Nat) (x : Ctx) : (s.setCtx j x).qfreq = s.qfreq := rfl
@[simp] theorem State.setCtx_lpx (j : Nat) (x : Ctx) : (s.setCtx j x).lpx = s.lpx := rfl
@[simp] theorem State.setCtx_dsy (j : Nat) (x : Ctx) : (s.setCtx j x).dsy = s.dsy := rfl
@[simp] theorem State.setCtx_chain (j : Nat) (x : Ctx) : (s.setCtx j x).chain = s.chain := rfl
@[simp] theorem State.setCtx_cfg (j : Nat) (x : Ctx) : (s.setCtx j x).cfg = s.cfg := rfl
@[simp] theorem State.setCtx_sec (j : Nat) (x : Ctx) : (s.setCtx j x).sec = s.sec := rfl
@[simp] theorem State.setCtx_tap (j : Nat) (x : Ctx) : (s.setCtx j x).tap = s.tap := rfl
@[simp] theorem State.arr_setCtx (j : Nat) (x : Ctx) (k : Nat) : (s.setCtx j x).arr k = s.arr k := rfl
@[simp] theorem State.tile_setCtx (j : Nat) (x : Ctx) (k : Nat) : (s.setCtx j x).tile k = s.tile k := rfl
@[simp] theorem State.clu_setCtx (j : Nat) (x : Ctx) (k : Nat) : (s.setCtx j x).clu k = s.clu k := rfl
@[simp] theorem State.cmp_setCtx (j : Nat) (x : Ctx) (k : Nat) : (s.setCtx j x).cmp k = s.cmp k := rfl
@[simp] theorem State.queue_setCtx (j : Nat) (x : Ctx) (k : Nat) : (s.setCtx j x).queue k = s.queue k := rfl
@[simp] theorem State.page_setCtx (j : Nat) (x : Ctx) (k : Nat) : (s.setCtx j x).page k = s.page k := rfl
@[simp] theorem State.unit_setCtx (j : Nat) (x : Ctx) (k : Nat) : (s.setCtx j x).unit k = s.unit k := rfl
@[simp] theorem State.dom_setCtx (j : Nat) (x : Ctx) (k : Nat) : (s.setCtx j x).dom k = s.dom k := rfl
@[simp] theorem State.gs_setCtx (j : Nat) (x : Ctx) (k : Nat) : (s.setCtx j x).gs k = s.gs k := rfl
@[simp] theorem State.rd_setCtx (j : Nat) (x : Ctx) (k : Nat) : (s.setCtx j x).rd k = s.rd k := rfl
@[simp] theorem State.memByte_setCtx (j : Nat) (x : Ctx) (k : Nat) : (s.setCtx j x).memByte k = s.memByte k := rfl
@[simp] theorem State.lpByte_setCtx (j : Nat) (x : Ctx) (k : Nat) : (s.setCtx j x).lpByte k = s.lpByte k := rfl

@[simp] theorem State.modCmp_pending (j : Nat) (f : Cmp → Cmp) : (s.modCmp j f).pending = s.pending := rfl
@[simp] theorem State.modCmp_free (j : Nat) (f : Cmp → Cmp) : (s.modCmp j f).free = s.free := rfl
@[simp] theorem State.modCmp_perst (j : Nat) (f : Cmp → Cmp) : (s.modCmp j f).perst = s.perst := rfl
@[simp] theorem State.modCmp_powered (j : Nat) (f : Cmp → Cmp) : (s.modCmp j f).powered = s.powered := rfl
@[simp] theorem State.modCmp_railOk (j : Nat) (f : Cmp → Cmp) : (s.modCmp j f).railOk = s.railOk := rfl
@[simp] theorem State.modCmp_regs (j : Nat) (f : Cmp → Cmp) : (s.modCmp j f).regs = s.regs := rfl
@[simp] theorem State.modCmp_pages (j : Nat) (f : Cmp → Cmp) : (s.modCmp j f).pages = s.pages := rfl
@[simp] theorem State.modCmp_queues (j : Nat) (f : Cmp → Cmp) : (s.modCmp j f).queues = s.queues := rfl
@[simp] theorem State.modCmp_host (j : Nat) (f : Cmp → Cmp) : (s.modCmp j f).host = s.host := rfl
@[simp] theorem State.modCmp_mem (j : Nat) (f : Cmp → Cmp) : (s.modCmp j f).mem = s.mem := rfl
@[simp] theorem State.modCmp_parBad (j : Nat) (f : Cmp → Cmp) : (s.modCmp j f).parBad = s.parBad := rfl
@[simp] theorem State.modCmp_lpmem (j : Nat) (f : Cmp → Cmp) : (s.modCmp j f).lpmem = s.lpmem := rfl
@[simp] theorem State.modCmp_lpBad (j : Nat) (f : Cmp → Cmp) : (s.modCmp j f).lpBad = s.lpBad := rfl
@[simp] theorem State.modCmp_arrays (j : Nat) (f : Cmp → Cmp) : (s.modCmp j f).arrays = s.arrays := rfl
@[simp] theorem State.modCmp_tiles (j : Nat) (f : Cmp → Cmp) : (s.modCmp j f).tiles = s.tiles := rfl
@[simp] theorem State.modCmp_clus (j : Nat) (f : Cmp → Cmp) : (s.modCmp j f).clus = s.clus := rfl
@[simp] theorem State.modCmp_ctxs (j : Nat) (f : Cmp → Cmp) : (s.modCmp j f).ctxs = s.ctxs := rfl
@[simp] theorem State.modCmp_ops (j : Nat) (f : Cmp → Cmp) : (s.modCmp j f).ops = s.ops := rfl
@[simp] theorem State.modCmp_nextOp (j : Nat) (f : Cmp → Cmp) : (s.modCmp j f).nextOp = s.nextOp := rfl
@[simp] theorem State.modCmp_gsem (j : Nat) (f : Cmp → Cmp) : (s.modCmp j f).gsem = s.gsem := rfl
@[simp] theorem State.modCmp_units (j : Nat) (f : Cmp → Cmp) : (s.modCmp j f).units = s.units := rfl
@[simp] theorem State.modCmp_reports (j : Nat) (f : Cmp → Cmp) : (s.modCmp j f).reports = s.reports := rfl
@[simp] theorem State.modCmp_events (j : Nat) (f : Cmp → Cmp) : (s.modCmp j f).events = s.events := rfl
@[simp] theorem State.modCmp_invAll (j : Nat) (f : Cmp → Cmp) : (s.modCmp j f).invAll = s.invAll := rfl
@[simp] theorem State.modCmp_epochCtr (j : Nat) (f : Cmp → Cmp) : (s.modCmp j f).epochCtr = s.epochCtr := rfl
@[simp] theorem State.modCmp_jobs (j : Nat) (f : Cmp → Cmp) : (s.modCmp j f).jobs = s.jobs := rfl
@[simp] theorem State.modCmp_carriers (j : Nat) (f : Cmp → Cmp) : (s.modCmp j f).carriers = s.carriers := rfl
@[simp] theorem State.modCmp_fhp (j : Nat) (f : Cmp → Cmp) : (s.modCmp j f).fhp = s.fhp := rfl
@[simp] theorem State.modCmp_col (j : Nat) (f : Cmp → Cmp) : (s.modCmp j f).col = s.col := rfl
@[simp] theorem State.modCmp_hld (j : Nat) (f : Cmp → Cmp) : (s.modCmp j f).hld = s.hld := rfl
@[simp] theorem State.modCmp_hkc (j : Nat) (f : Cmp → Cmp) : (s.modCmp j f).hkc = s.hkc := rfl
@[simp] theorem State.modCmp_thm (j : Nat) (f : Cmp → Cmp) : (s.modCmp j f).thm = s.thm := rfl
@[simp] theorem State.modCmp_doms (j : Nat) (f : Cmp → Cmp) : (s.modCmp j f).doms = s.doms := rfl
@[simp] theorem State.modCmp_xng (j : Nat) (f : Cmp → Cmp) : (s.modCmp j f).xng = s.xng := rfl
@[simp] theorem State.modCmp_qfreq (j : Nat) (f : Cmp → Cmp) : (s.modCmp j f).qfreq = s.qfreq := rfl
@[simp] theorem State.modCmp_lpx (j : Nat) (f : Cmp → Cmp) : (s.modCmp j f).lpx = s.lpx := rfl
@[simp] theorem State.modCmp_dsy (j : Nat) (f : Cmp → Cmp) : (s.modCmp j f).dsy = s.dsy := rfl
@[simp] theorem State.modCmp_chain (j : Nat) (f : Cmp → Cmp) : (s.modCmp j f).chain = s.chain := rfl
@[simp] theorem State.modCmp_cfg (j : Nat) (f : Cmp → Cmp) : (s.modCmp j f).cfg = s.cfg := rfl
@[simp] theorem State.modCmp_sec (j : Nat) (f : Cmp → Cmp) : (s.modCmp j f).sec = s.sec := rfl
@[simp] theorem State.modCmp_tap (j : Nat) (f : Cmp → Cmp) : (s.modCmp j f).tap = s.tap := rfl
@[simp] theorem State.arr_modCmp (j : Nat) (f : Cmp → Cmp) (k : Nat) : (s.modCmp j f).arr k = s.arr k := rfl
@[simp] theorem State.tile_modCmp (j : Nat) (f : Cmp → Cmp) (k : Nat) : (s.modCmp j f).tile k = s.tile k := rfl
@[simp] theorem State.clu_modCmp (j : Nat) (f : Cmp → Cmp) (k : Nat) : (s.modCmp j f).clu k = s.clu k := rfl
@[simp] theorem State.ctx_modCmp (j : Nat) (f : Cmp → Cmp) (k : Nat) : (s.modCmp j f).ctx k = s.ctx k := rfl
@[simp] theorem State.queue_modCmp (j : Nat) (f : Cmp → Cmp) (k : Nat) : (s.modCmp j f).queue k = s.queue k := rfl
@[simp] theorem State.page_modCmp (j : Nat) (f : Cmp → Cmp) (k : Nat) : (s.modCmp j f).page k = s.page k := rfl
@[simp] theorem State.unit_modCmp (j : Nat) (f : Cmp → Cmp) (k : Nat) : (s.modCmp j f).unit k = s.unit k := rfl
@[simp] theorem State.dom_modCmp (j : Nat) (f : Cmp → Cmp) (k : Nat) : (s.modCmp j f).dom k = s.dom k := rfl
@[simp] theorem State.gs_modCmp (j : Nat) (f : Cmp → Cmp) (k : Nat) : (s.modCmp j f).gs k = s.gs k := rfl
@[simp] theorem State.rd_modCmp (j : Nat) (f : Cmp → Cmp) (k : Nat) : (s.modCmp j f).rd k = s.rd k := rfl
@[simp] theorem State.memByte_modCmp (j : Nat) (f : Cmp → Cmp) (k : Nat) : (s.modCmp j f).memByte k = s.memByte k := rfl
@[simp] theorem State.lpByte_modCmp (j : Nat) (f : Cmp → Cmp) (k : Nat) : (s.modCmp j f).lpByte k = s.lpByte k := rfl

@[simp] theorem State.modQueue_pending (j : Nat) (f : QueueSt → QueueSt) : (s.modQueue j f).pending = s.pending := rfl
@[simp] theorem State.modQueue_free (j : Nat) (f : QueueSt → QueueSt) : (s.modQueue j f).free = s.free := rfl
@[simp] theorem State.modQueue_perst (j : Nat) (f : QueueSt → QueueSt) : (s.modQueue j f).perst = s.perst := rfl
@[simp] theorem State.modQueue_powered (j : Nat) (f : QueueSt → QueueSt) : (s.modQueue j f).powered = s.powered := rfl
@[simp] theorem State.modQueue_railOk (j : Nat) (f : QueueSt → QueueSt) : (s.modQueue j f).railOk = s.railOk := rfl
@[simp] theorem State.modQueue_regs (j : Nat) (f : QueueSt → QueueSt) : (s.modQueue j f).regs = s.regs := rfl
@[simp] theorem State.modQueue_pages (j : Nat) (f : QueueSt → QueueSt) : (s.modQueue j f).pages = s.pages := rfl
@[simp] theorem State.modQueue_host (j : Nat) (f : QueueSt → QueueSt) : (s.modQueue j f).host = s.host := rfl
@[simp] theorem State.modQueue_mem (j : Nat) (f : QueueSt → QueueSt) : (s.modQueue j f).mem = s.mem := rfl
@[simp] theorem State.modQueue_parBad (j : Nat) (f : QueueSt → QueueSt) : (s.modQueue j f).parBad = s.parBad := rfl
@[simp] theorem State.modQueue_lpmem (j : Nat) (f : QueueSt → QueueSt) : (s.modQueue j f).lpmem = s.lpmem := rfl
@[simp] theorem State.modQueue_lpBad (j : Nat) (f : QueueSt → QueueSt) : (s.modQueue j f).lpBad = s.lpBad := rfl
@[simp] theorem State.modQueue_arrays (j : Nat) (f : QueueSt → QueueSt) : (s.modQueue j f).arrays = s.arrays := rfl
@[simp] theorem State.modQueue_tiles (j : Nat) (f : QueueSt → QueueSt) : (s.modQueue j f).tiles = s.tiles := rfl
@[simp] theorem State.modQueue_clus (j : Nat) (f : QueueSt → QueueSt) : (s.modQueue j f).clus = s.clus := rfl
@[simp] theorem State.modQueue_ctxs (j : Nat) (f : QueueSt → QueueSt) : (s.modQueue j f).ctxs = s.ctxs := rfl
@[simp] theorem State.modQueue_cmps (j : Nat) (f : QueueSt → QueueSt) : (s.modQueue j f).cmps = s.cmps := rfl
@[simp] theorem State.modQueue_ops (j : Nat) (f : QueueSt → QueueSt) : (s.modQueue j f).ops = s.ops := rfl
@[simp] theorem State.modQueue_nextOp (j : Nat) (f : QueueSt → QueueSt) : (s.modQueue j f).nextOp = s.nextOp := rfl
@[simp] theorem State.modQueue_gsem (j : Nat) (f : QueueSt → QueueSt) : (s.modQueue j f).gsem = s.gsem := rfl
@[simp] theorem State.modQueue_units (j : Nat) (f : QueueSt → QueueSt) : (s.modQueue j f).units = s.units := rfl
@[simp] theorem State.modQueue_reports (j : Nat) (f : QueueSt → QueueSt) : (s.modQueue j f).reports = s.reports := rfl
@[simp] theorem State.modQueue_events (j : Nat) (f : QueueSt → QueueSt) : (s.modQueue j f).events = s.events := rfl
@[simp] theorem State.modQueue_invAll (j : Nat) (f : QueueSt → QueueSt) : (s.modQueue j f).invAll = s.invAll := rfl
@[simp] theorem State.modQueue_epochCtr (j : Nat) (f : QueueSt → QueueSt) : (s.modQueue j f).epochCtr = s.epochCtr := rfl
@[simp] theorem State.modQueue_jobs (j : Nat) (f : QueueSt → QueueSt) : (s.modQueue j f).jobs = s.jobs := rfl
@[simp] theorem State.modQueue_carriers (j : Nat) (f : QueueSt → QueueSt) : (s.modQueue j f).carriers = s.carriers := rfl
@[simp] theorem State.modQueue_fhp (j : Nat) (f : QueueSt → QueueSt) : (s.modQueue j f).fhp = s.fhp := rfl
@[simp] theorem State.modQueue_col (j : Nat) (f : QueueSt → QueueSt) : (s.modQueue j f).col = s.col := rfl
@[simp] theorem State.modQueue_hld (j : Nat) (f : QueueSt → QueueSt) : (s.modQueue j f).hld = s.hld := rfl
@[simp] theorem State.modQueue_hkc (j : Nat) (f : QueueSt → QueueSt) : (s.modQueue j f).hkc = s.hkc := rfl
@[simp] theorem State.modQueue_thm (j : Nat) (f : QueueSt → QueueSt) : (s.modQueue j f).thm = s.thm := rfl
@[simp] theorem State.modQueue_doms (j : Nat) (f : QueueSt → QueueSt) : (s.modQueue j f).doms = s.doms := rfl
@[simp] theorem State.modQueue_xng (j : Nat) (f : QueueSt → QueueSt) : (s.modQueue j f).xng = s.xng := rfl
@[simp] theorem State.modQueue_qfreq (j : Nat) (f : QueueSt → QueueSt) : (s.modQueue j f).qfreq = s.qfreq := rfl
@[simp] theorem State.modQueue_lpx (j : Nat) (f : QueueSt → QueueSt) : (s.modQueue j f).lpx = s.lpx := rfl
@[simp] theorem State.modQueue_dsy (j : Nat) (f : QueueSt → QueueSt) : (s.modQueue j f).dsy = s.dsy := rfl
@[simp] theorem State.modQueue_chain (j : Nat) (f : QueueSt → QueueSt) : (s.modQueue j f).chain = s.chain := rfl
@[simp] theorem State.modQueue_cfg (j : Nat) (f : QueueSt → QueueSt) : (s.modQueue j f).cfg = s.cfg := rfl
@[simp] theorem State.modQueue_sec (j : Nat) (f : QueueSt → QueueSt) : (s.modQueue j f).sec = s.sec := rfl
@[simp] theorem State.modQueue_tap (j : Nat) (f : QueueSt → QueueSt) : (s.modQueue j f).tap = s.tap := rfl
@[simp] theorem State.arr_modQueue (j : Nat) (f : QueueSt → QueueSt) (k : Nat) : (s.modQueue j f).arr k = s.arr k := rfl
@[simp] theorem State.tile_modQueue (j : Nat) (f : QueueSt → QueueSt) (k : Nat) : (s.modQueue j f).tile k = s.tile k := rfl
@[simp] theorem State.clu_modQueue (j : Nat) (f : QueueSt → QueueSt) (k : Nat) : (s.modQueue j f).clu k = s.clu k := rfl
@[simp] theorem State.ctx_modQueue (j : Nat) (f : QueueSt → QueueSt) (k : Nat) : (s.modQueue j f).ctx k = s.ctx k := rfl
@[simp] theorem State.cmp_modQueue (j : Nat) (f : QueueSt → QueueSt) (k : Nat) : (s.modQueue j f).cmp k = s.cmp k := rfl
@[simp] theorem State.page_modQueue (j : Nat) (f : QueueSt → QueueSt) (k : Nat) : (s.modQueue j f).page k = s.page k := rfl
@[simp] theorem State.unit_modQueue (j : Nat) (f : QueueSt → QueueSt) (k : Nat) : (s.modQueue j f).unit k = s.unit k := rfl
@[simp] theorem State.dom_modQueue (j : Nat) (f : QueueSt → QueueSt) (k : Nat) : (s.modQueue j f).dom k = s.dom k := rfl
@[simp] theorem State.gs_modQueue (j : Nat) (f : QueueSt → QueueSt) (k : Nat) : (s.modQueue j f).gs k = s.gs k := rfl
@[simp] theorem State.rd_modQueue (j : Nat) (f : QueueSt → QueueSt) (k : Nat) : (s.modQueue j f).rd k = s.rd k := rfl
@[simp] theorem State.memByte_modQueue (j : Nat) (f : QueueSt → QueueSt) (k : Nat) : (s.modQueue j f).memByte k = s.memByte k := rfl
@[simp] theorem State.lpByte_modQueue (j : Nat) (f : QueueSt → QueueSt) (k : Nat) : (s.modQueue j f).lpByte k = s.lpByte k := rfl

@[simp] theorem State.modPage_pending (j : Nat) (f : PageHdr → PageHdr) : (s.modPage j f).pending = s.pending := rfl
@[simp] theorem State.modPage_free (j : Nat) (f : PageHdr → PageHdr) : (s.modPage j f).free = s.free := rfl
@[simp] theorem State.modPage_perst (j : Nat) (f : PageHdr → PageHdr) : (s.modPage j f).perst = s.perst := rfl
@[simp] theorem State.modPage_powered (j : Nat) (f : PageHdr → PageHdr) : (s.modPage j f).powered = s.powered := rfl
@[simp] theorem State.modPage_railOk (j : Nat) (f : PageHdr → PageHdr) : (s.modPage j f).railOk = s.railOk := rfl
@[simp] theorem State.modPage_regs (j : Nat) (f : PageHdr → PageHdr) : (s.modPage j f).regs = s.regs := rfl
@[simp] theorem State.modPage_queues (j : Nat) (f : PageHdr → PageHdr) : (s.modPage j f).queues = s.queues := rfl
@[simp] theorem State.modPage_host (j : Nat) (f : PageHdr → PageHdr) : (s.modPage j f).host = s.host := rfl
@[simp] theorem State.modPage_mem (j : Nat) (f : PageHdr → PageHdr) : (s.modPage j f).mem = s.mem := rfl
@[simp] theorem State.modPage_parBad (j : Nat) (f : PageHdr → PageHdr) : (s.modPage j f).parBad = s.parBad := rfl
@[simp] theorem State.modPage_lpmem (j : Nat) (f : PageHdr → PageHdr) : (s.modPage j f).lpmem = s.lpmem := rfl
@[simp] theorem State.modPage_lpBad (j : Nat) (f : PageHdr → PageHdr) : (s.modPage j f).lpBad = s.lpBad := rfl
@[simp] theorem State.modPage_arrays (j : Nat) (f : PageHdr → PageHdr) : (s.modPage j f).arrays = s.arrays := rfl
@[simp] theorem State.modPage_tiles (j : Nat) (f : PageHdr → PageHdr) : (s.modPage j f).tiles = s.tiles := rfl
@[simp] theorem State.modPage_clus (j : Nat) (f : PageHdr → PageHdr) : (s.modPage j f).clus = s.clus := rfl
@[simp] theorem State.modPage_ctxs (j : Nat) (f : PageHdr → PageHdr) : (s.modPage j f).ctxs = s.ctxs := rfl
@[simp] theorem State.modPage_cmps (j : Nat) (f : PageHdr → PageHdr) : (s.modPage j f).cmps = s.cmps := rfl
@[simp] theorem State.modPage_ops (j : Nat) (f : PageHdr → PageHdr) : (s.modPage j f).ops = s.ops := rfl
@[simp] theorem State.modPage_nextOp (j : Nat) (f : PageHdr → PageHdr) : (s.modPage j f).nextOp = s.nextOp := rfl
@[simp] theorem State.modPage_gsem (j : Nat) (f : PageHdr → PageHdr) : (s.modPage j f).gsem = s.gsem := rfl
@[simp] theorem State.modPage_units (j : Nat) (f : PageHdr → PageHdr) : (s.modPage j f).units = s.units := rfl
@[simp] theorem State.modPage_reports (j : Nat) (f : PageHdr → PageHdr) : (s.modPage j f).reports = s.reports := rfl
@[simp] theorem State.modPage_events (j : Nat) (f : PageHdr → PageHdr) : (s.modPage j f).events = s.events := rfl
@[simp] theorem State.modPage_invAll (j : Nat) (f : PageHdr → PageHdr) : (s.modPage j f).invAll = s.invAll := rfl
@[simp] theorem State.modPage_epochCtr (j : Nat) (f : PageHdr → PageHdr) : (s.modPage j f).epochCtr = s.epochCtr := rfl
@[simp] theorem State.modPage_jobs (j : Nat) (f : PageHdr → PageHdr) : (s.modPage j f).jobs = s.jobs := rfl
@[simp] theorem State.modPage_carriers (j : Nat) (f : PageHdr → PageHdr) : (s.modPage j f).carriers = s.carriers := rfl
@[simp] theorem State.modPage_fhp (j : Nat) (f : PageHdr → PageHdr) : (s.modPage j f).fhp = s.fhp := rfl
@[simp] theorem State.modPage_col (j : Nat) (f : PageHdr → PageHdr) : (s.modPage j f).col = s.col := rfl
@[simp] theorem State.modPage_hld (j : Nat) (f : PageHdr → PageHdr) : (s.modPage j f).hld = s.hld := rfl
@[simp] theorem State.modPage_hkc (j : Nat) (f : PageHdr → PageHdr) : (s.modPage j f).hkc = s.hkc := rfl
@[simp] theorem State.modPage_thm (j : Nat) (f : PageHdr → PageHdr) : (s.modPage j f).thm = s.thm := rfl
@[simp] theorem State.modPage_doms (j : Nat) (f : PageHdr → PageHdr) : (s.modPage j f).doms = s.doms := rfl
@[simp] theorem State.modPage_xng (j : Nat) (f : PageHdr → PageHdr) : (s.modPage j f).xng = s.xng := rfl
@[simp] theorem State.modPage_qfreq (j : Nat) (f : PageHdr → PageHdr) : (s.modPage j f).qfreq = s.qfreq := rfl
@[simp] theorem State.modPage_lpx (j : Nat) (f : PageHdr → PageHdr) : (s.modPage j f).lpx = s.lpx := rfl
@[simp] theorem State.modPage_dsy (j : Nat) (f : PageHdr → PageHdr) : (s.modPage j f).dsy = s.dsy := rfl
@[simp] theorem State.modPage_chain (j : Nat) (f : PageHdr → PageHdr) : (s.modPage j f).chain = s.chain := rfl
@[simp] theorem State.modPage_cfg (j : Nat) (f : PageHdr → PageHdr) : (s.modPage j f).cfg = s.cfg := rfl
@[simp] theorem State.modPage_sec (j : Nat) (f : PageHdr → PageHdr) : (s.modPage j f).sec = s.sec := rfl
@[simp] theorem State.modPage_tap (j : Nat) (f : PageHdr → PageHdr) : (s.modPage j f).tap = s.tap := rfl
@[simp] theorem State.arr_modPage (j : Nat) (f : PageHdr → PageHdr) (k : Nat) : (s.modPage j f).arr k = s.arr k := rfl
@[simp] theorem State.tile_modPage (j : Nat) (f : PageHdr → PageHdr) (k : Nat) : (s.modPage j f).tile k = s.tile k := rfl
@[simp] theorem State.clu_modPage (j : Nat) (f : PageHdr → PageHdr) (k : Nat) : (s.modPage j f).clu k = s.clu k := rfl
@[simp] theorem State.ctx_modPage (j : Nat) (f : PageHdr → PageHdr) (k : Nat) : (s.modPage j f).ctx k = s.ctx k := rfl
@[simp] theorem State.cmp_modPage (j : Nat) (f : PageHdr → PageHdr) (k : Nat) : (s.modPage j f).cmp k = s.cmp k := rfl
@[simp] theorem State.queue_modPage (j : Nat) (f : PageHdr → PageHdr) (k : Nat) : (s.modPage j f).queue k = s.queue k := rfl
@[simp] theorem State.unit_modPage (j : Nat) (f : PageHdr → PageHdr) (k : Nat) : (s.modPage j f).unit k = s.unit k := rfl
@[simp] theorem State.dom_modPage (j : Nat) (f : PageHdr → PageHdr) (k : Nat) : (s.modPage j f).dom k = s.dom k := rfl
@[simp] theorem State.gs_modPage (j : Nat) (f : PageHdr → PageHdr) (k : Nat) : (s.modPage j f).gs k = s.gs k := rfl
@[simp] theorem State.rd_modPage (j : Nat) (f : PageHdr → PageHdr) (k : Nat) : (s.modPage j f).rd k = s.rd k := rfl
@[simp] theorem State.memByte_modPage (j : Nat) (f : PageHdr → PageHdr) (k : Nat) : (s.modPage j f).memByte k = s.memByte k := rfl
@[simp] theorem State.lpByte_modPage (j : Nat) (f : PageHdr → PageHdr) (k : Nat) : (s.modPage j f).lpByte k = s.lpByte k := rfl

@[simp] theorem State.modUnit_pending (j : Nat) (f : UnitRec → UnitRec) : (s.modUnit j f).pending = s.pending := rfl
@[simp] theorem State.modUnit_free (j : Nat) (f : UnitRec → UnitRec) : (s.modUnit j f).free = s.free := rfl
@[simp] theorem State.modUnit_perst (j : Nat) (f : UnitRec → UnitRec) : (s.modUnit j f).perst = s.perst := rfl
@[simp] theorem State.modUnit_powered (j : Nat) (f : UnitRec → UnitRec) : (s.modUnit j f).powered = s.powered := rfl
@[simp] theorem State.modUnit_railOk (j : Nat) (f : UnitRec → UnitRec) : (s.modUnit j f).railOk = s.railOk := rfl
@[simp] theorem State.modUnit_regs (j : Nat) (f : UnitRec → UnitRec) : (s.modUnit j f).regs = s.regs := rfl
@[simp] theorem State.modUnit_pages (j : Nat) (f : UnitRec → UnitRec) : (s.modUnit j f).pages = s.pages := rfl
@[simp] theorem State.modUnit_queues (j : Nat) (f : UnitRec → UnitRec) : (s.modUnit j f).queues = s.queues := rfl
@[simp] theorem State.modUnit_host (j : Nat) (f : UnitRec → UnitRec) : (s.modUnit j f).host = s.host := rfl
@[simp] theorem State.modUnit_mem (j : Nat) (f : UnitRec → UnitRec) : (s.modUnit j f).mem = s.mem := rfl
@[simp] theorem State.modUnit_parBad (j : Nat) (f : UnitRec → UnitRec) : (s.modUnit j f).parBad = s.parBad := rfl
@[simp] theorem State.modUnit_lpmem (j : Nat) (f : UnitRec → UnitRec) : (s.modUnit j f).lpmem = s.lpmem := rfl
@[simp] theorem State.modUnit_lpBad (j : Nat) (f : UnitRec → UnitRec) : (s.modUnit j f).lpBad = s.lpBad := rfl
@[simp] theorem State.modUnit_arrays (j : Nat) (f : UnitRec → UnitRec) : (s.modUnit j f).arrays = s.arrays := rfl
@[simp] theorem State.modUnit_tiles (j : Nat) (f : UnitRec → UnitRec) : (s.modUnit j f).tiles = s.tiles := rfl
@[simp] theorem State.modUnit_clus (j : Nat) (f : UnitRec → UnitRec) : (s.modUnit j f).clus = s.clus := rfl
@[simp] theorem State.modUnit_ctxs (j : Nat) (f : UnitRec → UnitRec) : (s.modUnit j f).ctxs = s.ctxs := rfl
@[simp] theorem State.modUnit_cmps (j : Nat) (f : UnitRec → UnitRec) : (s.modUnit j f).cmps = s.cmps := rfl
@[simp] theorem State.modUnit_ops (j : Nat) (f : UnitRec → UnitRec) : (s.modUnit j f).ops = s.ops := rfl
@[simp] theorem State.modUnit_nextOp (j : Nat) (f : UnitRec → UnitRec) : (s.modUnit j f).nextOp = s.nextOp := rfl
@[simp] theorem State.modUnit_gsem (j : Nat) (f : UnitRec → UnitRec) : (s.modUnit j f).gsem = s.gsem := rfl
@[simp] theorem State.modUnit_reports (j : Nat) (f : UnitRec → UnitRec) : (s.modUnit j f).reports = s.reports := rfl
@[simp] theorem State.modUnit_events (j : Nat) (f : UnitRec → UnitRec) : (s.modUnit j f).events = s.events := rfl
@[simp] theorem State.modUnit_invAll (j : Nat) (f : UnitRec → UnitRec) : (s.modUnit j f).invAll = s.invAll := rfl
@[simp] theorem State.modUnit_epochCtr (j : Nat) (f : UnitRec → UnitRec) : (s.modUnit j f).epochCtr = s.epochCtr := rfl
@[simp] theorem State.modUnit_jobs (j : Nat) (f : UnitRec → UnitRec) : (s.modUnit j f).jobs = s.jobs := rfl
@[simp] theorem State.modUnit_carriers (j : Nat) (f : UnitRec → UnitRec) : (s.modUnit j f).carriers = s.carriers := rfl
@[simp] theorem State.modUnit_fhp (j : Nat) (f : UnitRec → UnitRec) : (s.modUnit j f).fhp = s.fhp := rfl
@[simp] theorem State.modUnit_col (j : Nat) (f : UnitRec → UnitRec) : (s.modUnit j f).col = s.col := rfl
@[simp] theorem State.modUnit_hld (j : Nat) (f : UnitRec → UnitRec) : (s.modUnit j f).hld = s.hld := rfl
@[simp] theorem State.modUnit_hkc (j : Nat) (f : UnitRec → UnitRec) : (s.modUnit j f).hkc = s.hkc := rfl
@[simp] theorem State.modUnit_thm (j : Nat) (f : UnitRec → UnitRec) : (s.modUnit j f).thm = s.thm := rfl
@[simp] theorem State.modUnit_doms (j : Nat) (f : UnitRec → UnitRec) : (s.modUnit j f).doms = s.doms := rfl
@[simp] theorem State.modUnit_xng (j : Nat) (f : UnitRec → UnitRec) : (s.modUnit j f).xng = s.xng := rfl
@[simp] theorem State.modUnit_qfreq (j : Nat) (f : UnitRec → UnitRec) : (s.modUnit j f).qfreq = s.qfreq := rfl
@[simp] theorem State.modUnit_lpx (j : Nat) (f : UnitRec → UnitRec) : (s.modUnit j f).lpx = s.lpx := rfl
@[simp] theorem State.modUnit_dsy (j : Nat) (f : UnitRec → UnitRec) : (s.modUnit j f).dsy = s.dsy := rfl
@[simp] theorem State.modUnit_chain (j : Nat) (f : UnitRec → UnitRec) : (s.modUnit j f).chain = s.chain := rfl
@[simp] theorem State.modUnit_cfg (j : Nat) (f : UnitRec → UnitRec) : (s.modUnit j f).cfg = s.cfg := rfl
@[simp] theorem State.modUnit_sec (j : Nat) (f : UnitRec → UnitRec) : (s.modUnit j f).sec = s.sec := rfl
@[simp] theorem State.modUnit_tap (j : Nat) (f : UnitRec → UnitRec) : (s.modUnit j f).tap = s.tap := rfl
@[simp] theorem State.arr_modUnit (j : Nat) (f : UnitRec → UnitRec) (k : Nat) : (s.modUnit j f).arr k = s.arr k := rfl
@[simp] theorem State.tile_modUnit (j : Nat) (f : UnitRec → UnitRec) (k : Nat) : (s.modUnit j f).tile k = s.tile k := rfl
@[simp] theorem State.clu_modUnit (j : Nat) (f : UnitRec → UnitRec) (k : Nat) : (s.modUnit j f).clu k = s.clu k := rfl
@[simp] theorem State.ctx_modUnit (j : Nat) (f : UnitRec → UnitRec) (k : Nat) : (s.modUnit j f).ctx k = s.ctx k := rfl
@[simp] theorem State.cmp_modUnit (j : Nat) (f : UnitRec → UnitRec) (k : Nat) : (s.modUnit j f).cmp k = s.cmp k := rfl
@[simp] theorem State.queue_modUnit (j : Nat) (f : UnitRec → UnitRec) (k : Nat) : (s.modUnit j f).queue k = s.queue k := rfl
@[simp] theorem State.page_modUnit (j : Nat) (f : UnitRec → UnitRec) (k : Nat) : (s.modUnit j f).page k = s.page k := rfl
@[simp] theorem State.dom_modUnit (j : Nat) (f : UnitRec → UnitRec) (k : Nat) : (s.modUnit j f).dom k = s.dom k := rfl
@[simp] theorem State.gs_modUnit (j : Nat) (f : UnitRec → UnitRec) (k : Nat) : (s.modUnit j f).gs k = s.gs k := rfl
@[simp] theorem State.rd_modUnit (j : Nat) (f : UnitRec → UnitRec) (k : Nat) : (s.modUnit j f).rd k = s.rd k := rfl
@[simp] theorem State.memByte_modUnit (j : Nat) (f : UnitRec → UnitRec) (k : Nat) : (s.modUnit j f).memByte k = s.memByte k := rfl
@[simp] theorem State.lpByte_modUnit (j : Nat) (f : UnitRec → UnitRec) (k : Nat) : (s.modUnit j f).lpByte k = s.lpByte k := rfl

@[simp] theorem State.modDom_pending (j : Nat) (f : Dom → Dom) : (s.modDom j f).pending = s.pending := rfl
@[simp] theorem State.modDom_free (j : Nat) (f : Dom → Dom) : (s.modDom j f).free = s.free := rfl
@[simp] theorem State.modDom_perst (j : Nat) (f : Dom → Dom) : (s.modDom j f).perst = s.perst := rfl
@[simp] theorem State.modDom_powered (j : Nat) (f : Dom → Dom) : (s.modDom j f).powered = s.powered := rfl
@[simp] theorem State.modDom_railOk (j : Nat) (f : Dom → Dom) : (s.modDom j f).railOk = s.railOk := rfl
@[simp] theorem State.modDom_regs (j : Nat) (f : Dom → Dom) : (s.modDom j f).regs = s.regs := rfl
@[simp] theorem State.modDom_pages (j : Nat) (f : Dom → Dom) : (s.modDom j f).pages = s.pages := rfl
@[simp] theorem State.modDom_queues (j : Nat) (f : Dom → Dom) : (s.modDom j f).queues = s.queues := rfl
@[simp] theorem State.modDom_host (j : Nat) (f : Dom → Dom) : (s.modDom j f).host = s.host := rfl
@[simp] theorem State.modDom_mem (j : Nat) (f : Dom → Dom) : (s.modDom j f).mem = s.mem := rfl
@[simp] theorem State.modDom_parBad (j : Nat) (f : Dom → Dom) : (s.modDom j f).parBad = s.parBad := rfl
@[simp] theorem State.modDom_lpmem (j : Nat) (f : Dom → Dom) : (s.modDom j f).lpmem = s.lpmem := rfl
@[simp] theorem State.modDom_lpBad (j : Nat) (f : Dom → Dom) : (s.modDom j f).lpBad = s.lpBad := rfl
@[simp] theorem State.modDom_arrays (j : Nat) (f : Dom → Dom) : (s.modDom j f).arrays = s.arrays := rfl
@[simp] theorem State.modDom_tiles (j : Nat) (f : Dom → Dom) : (s.modDom j f).tiles = s.tiles := rfl
@[simp] theorem State.modDom_clus (j : Nat) (f : Dom → Dom) : (s.modDom j f).clus = s.clus := rfl
@[simp] theorem State.modDom_ctxs (j : Nat) (f : Dom → Dom) : (s.modDom j f).ctxs = s.ctxs := rfl
@[simp] theorem State.modDom_cmps (j : Nat) (f : Dom → Dom) : (s.modDom j f).cmps = s.cmps := rfl
@[simp] theorem State.modDom_ops (j : Nat) (f : Dom → Dom) : (s.modDom j f).ops = s.ops := rfl
@[simp] theorem State.modDom_nextOp (j : Nat) (f : Dom → Dom) : (s.modDom j f).nextOp = s.nextOp := rfl
@[simp] theorem State.modDom_gsem (j : Nat) (f : Dom → Dom) : (s.modDom j f).gsem = s.gsem := rfl
@[simp] theorem State.modDom_units (j : Nat) (f : Dom → Dom) : (s.modDom j f).units = s.units := rfl
@[simp] theorem State.modDom_reports (j : Nat) (f : Dom → Dom) : (s.modDom j f).reports = s.reports := rfl
@[simp] theorem State.modDom_events (j : Nat) (f : Dom → Dom) : (s.modDom j f).events = s.events := rfl
@[simp] theorem State.modDom_invAll (j : Nat) (f : Dom → Dom) : (s.modDom j f).invAll = s.invAll := rfl
@[simp] theorem State.modDom_epochCtr (j : Nat) (f : Dom → Dom) : (s.modDom j f).epochCtr = s.epochCtr := rfl
@[simp] theorem State.modDom_jobs (j : Nat) (f : Dom → Dom) : (s.modDom j f).jobs = s.jobs := rfl
@[simp] theorem State.modDom_carriers (j : Nat) (f : Dom → Dom) : (s.modDom j f).carriers = s.carriers := rfl
@[simp] theorem State.modDom_fhp (j : Nat) (f : Dom → Dom) : (s.modDom j f).fhp = s.fhp := rfl
@[simp] theorem State.modDom_col (j : Nat) (f : Dom → Dom) : (s.modDom j f).col = s.col := rfl
@[simp] theorem State.modDom_hld (j : Nat) (f : Dom → Dom) : (s.modDom j f).hld = s.hld := rfl
@[simp] theorem State.modDom_hkc (j : Nat) (f : Dom → Dom) : (s.modDom j f).hkc = s.hkc := rfl
@[simp] theorem State.modDom_thm (j : Nat) (f : Dom → Dom) : (s.modDom j f).thm = s.thm := rfl
@[simp] theorem State.modDom_xng (j : Nat) (f : Dom → Dom) : (s.modDom j f).xng = s.xng := rfl
@[simp] theorem State.modDom_qfreq (j : Nat) (f : Dom → Dom) : (s.modDom j f).qfreq = s.qfreq := rfl
@[simp] theorem State.modDom_lpx (j : Nat) (f : Dom → Dom) : (s.modDom j f).lpx = s.lpx := rfl
@[simp] theorem State.modDom_dsy (j : Nat) (f : Dom → Dom) : (s.modDom j f).dsy = s.dsy := rfl
@[simp] theorem State.modDom_chain (j : Nat) (f : Dom → Dom) : (s.modDom j f).chain = s.chain := rfl
@[simp] theorem State.modDom_cfg (j : Nat) (f : Dom → Dom) : (s.modDom j f).cfg = s.cfg := rfl
@[simp] theorem State.modDom_sec (j : Nat) (f : Dom → Dom) : (s.modDom j f).sec = s.sec := rfl
@[simp] theorem State.modDom_tap (j : Nat) (f : Dom → Dom) : (s.modDom j f).tap = s.tap := rfl
@[simp] theorem State.arr_modDom (j : Nat) (f : Dom → Dom) (k : Nat) : (s.modDom j f).arr k = s.arr k := rfl
@[simp] theorem State.tile_modDom (j : Nat) (f : Dom → Dom) (k : Nat) : (s.modDom j f).tile k = s.tile k := rfl
@[simp] theorem State.clu_modDom (j : Nat) (f : Dom → Dom) (k : Nat) : (s.modDom j f).clu k = s.clu k := rfl
@[simp] theorem State.ctx_modDom (j : Nat) (f : Dom → Dom) (k : Nat) : (s.modDom j f).ctx k = s.ctx k := rfl
@[simp] theorem State.cmp_modDom (j : Nat) (f : Dom → Dom) (k : Nat) : (s.modDom j f).cmp k = s.cmp k := rfl
@[simp] theorem State.queue_modDom (j : Nat) (f : Dom → Dom) (k : Nat) : (s.modDom j f).queue k = s.queue k := rfl
@[simp] theorem State.page_modDom (j : Nat) (f : Dom → Dom) (k : Nat) : (s.modDom j f).page k = s.page k := rfl
@[simp] theorem State.unit_modDom (j : Nat) (f : Dom → Dom) (k : Nat) : (s.modDom j f).unit k = s.unit k := rfl
@[simp] theorem State.gs_modDom (j : Nat) (f : Dom → Dom) (k : Nat) : (s.modDom j f).gs k = s.gs k := rfl
@[simp] theorem State.rd_modDom (j : Nat) (f : Dom → Dom) (k : Nat) : (s.modDom j f).rd k = s.rd k := rfl
@[simp] theorem State.memByte_modDom (j : Nat) (f : Dom → Dom) (k : Nat) : (s.modDom j f).memByte k = s.memByte k := rfl
@[simp] theorem State.lpByte_modDom (j : Nat) (f : Dom → Dom) (k : Nat) : (s.modDom j f).lpByte k = s.lpByte k := rfl

@[simp] theorem State.setGs_pending (j v : Nat) : (s.setGs j v).pending = s.pending := rfl
@[simp] theorem State.setGs_free (j v : Nat) : (s.setGs j v).free = s.free := rfl
@[simp] theorem State.setGs_perst (j v : Nat) : (s.setGs j v).perst = s.perst := rfl
@[simp] theorem State.setGs_powered (j v : Nat) : (s.setGs j v).powered = s.powered := rfl
@[simp] theorem State.setGs_railOk (j v : Nat) : (s.setGs j v).railOk = s.railOk := rfl
@[simp] theorem State.setGs_regs (j v : Nat) : (s.setGs j v).regs = s.regs := rfl
@[simp] theorem State.setGs_pages (j v : Nat) : (s.setGs j v).pages = s.pages := rfl
@[simp] theorem State.setGs_queues (j v : Nat) : (s.setGs j v).queues = s.queues := rfl
@[simp] theorem State.setGs_host (j v : Nat) : (s.setGs j v).host = s.host := rfl
@[simp] theorem State.setGs_mem (j v : Nat) : (s.setGs j v).mem = s.mem := rfl
@[simp] theorem State.setGs_parBad (j v : Nat) : (s.setGs j v).parBad = s.parBad := rfl
@[simp] theorem State.setGs_lpmem (j v : Nat) : (s.setGs j v).lpmem = s.lpmem := rfl
@[simp] theorem State.setGs_lpBad (j v : Nat) : (s.setGs j v).lpBad = s.lpBad := rfl
@[simp] theorem State.setGs_arrays (j v : Nat) : (s.setGs j v).arrays = s.arrays := rfl
@[simp] theorem State.setGs_tiles (j v : Nat) : (s.setGs j v).tiles = s.tiles := rfl
@[simp] theorem State.setGs_clus (j v : Nat) : (s.setGs j v).clus = s.clus := rfl
@[simp] theorem State.setGs_ctxs (j v : Nat) : (s.setGs j v).ctxs = s.ctxs := rfl
@[simp] theorem State.setGs_cmps (j v : Nat) : (s.setGs j v).cmps = s.cmps := rfl
@[simp] theorem State.setGs_ops (j v : Nat) : (s.setGs j v).ops = s.ops := rfl
@[simp] theorem State.setGs_nextOp (j v : Nat) : (s.setGs j v).nextOp = s.nextOp := rfl
@[simp] theorem State.setGs_units (j v : Nat) : (s.setGs j v).units = s.units := rfl
@[simp] theorem State.setGs_reports (j v : Nat) : (s.setGs j v).reports = s.reports := rfl
@[simp] theorem State.setGs_events (j v : Nat) : (s.setGs j v).events = s.events := rfl
@[simp] theorem State.setGs_invAll (j v : Nat) : (s.setGs j v).invAll = s.invAll := rfl
@[simp] theorem State.setGs_epochCtr (j v : Nat) : (s.setGs j v).epochCtr = s.epochCtr := rfl
@[simp] theorem State.setGs_jobs (j v : Nat) : (s.setGs j v).jobs = s.jobs := rfl
@[simp] theorem State.setGs_carriers (j v : Nat) : (s.setGs j v).carriers = s.carriers := rfl
@[simp] theorem State.setGs_fhp (j v : Nat) : (s.setGs j v).fhp = s.fhp := rfl
@[simp] theorem State.setGs_col (j v : Nat) : (s.setGs j v).col = s.col := rfl
@[simp] theorem State.setGs_hld (j v : Nat) : (s.setGs j v).hld = s.hld := rfl
@[simp] theorem State.setGs_hkc (j v : Nat) : (s.setGs j v).hkc = s.hkc := rfl
@[simp] theorem State.setGs_thm (j v : Nat) : (s.setGs j v).thm = s.thm := rfl
@[simp] theorem State.setGs_doms (j v : Nat) : (s.setGs j v).doms = s.doms := rfl
@[simp] theorem State.setGs_xng (j v : Nat) : (s.setGs j v).xng = s.xng := rfl
@[simp] theorem State.setGs_qfreq (j v : Nat) : (s.setGs j v).qfreq = s.qfreq := rfl
@[simp] theorem State.setGs_lpx (j v : Nat) : (s.setGs j v).lpx = s.lpx := rfl
@[simp] theorem State.setGs_dsy (j v : Nat) : (s.setGs j v).dsy = s.dsy := rfl
@[simp] theorem State.setGs_chain (j v : Nat) : (s.setGs j v).chain = s.chain := rfl
@[simp] theorem State.setGs_cfg (j v : Nat) : (s.setGs j v).cfg = s.cfg := rfl
@[simp] theorem State.setGs_sec (j v : Nat) : (s.setGs j v).sec = s.sec := rfl
@[simp] theorem State.setGs_tap (j v : Nat) : (s.setGs j v).tap = s.tap := rfl
@[simp] theorem State.arr_setGs (j v : Nat) (k : Nat) : (s.setGs j v).arr k = s.arr k := rfl
@[simp] theorem State.tile_setGs (j v : Nat) (k : Nat) : (s.setGs j v).tile k = s.tile k := rfl
@[simp] theorem State.clu_setGs (j v : Nat) (k : Nat) : (s.setGs j v).clu k = s.clu k := rfl
@[simp] theorem State.ctx_setGs (j v : Nat) (k : Nat) : (s.setGs j v).ctx k = s.ctx k := rfl
@[simp] theorem State.cmp_setGs (j v : Nat) (k : Nat) : (s.setGs j v).cmp k = s.cmp k := rfl
@[simp] theorem State.queue_setGs (j v : Nat) (k : Nat) : (s.setGs j v).queue k = s.queue k := rfl
@[simp] theorem State.page_setGs (j v : Nat) (k : Nat) : (s.setGs j v).page k = s.page k := rfl
@[simp] theorem State.unit_setGs (j v : Nat) (k : Nat) : (s.setGs j v).unit k = s.unit k := rfl
@[simp] theorem State.dom_setGs (j v : Nat) (k : Nat) : (s.setGs j v).dom k = s.dom k := rfl
@[simp] theorem State.rd_setGs (j v : Nat) (k : Nat) : (s.setGs j v).rd k = s.rd k := rfl
@[simp] theorem State.memByte_setGs (j v : Nat) (k : Nat) : (s.setGs j v).memByte k = s.memByte k := rfl
@[simp] theorem State.lpByte_setGs (j v : Nat) (k : Nat) : (s.setGs j v).lpByte k = s.lpByte k := rfl

@[simp] theorem State.draw_pending : (s.draw.1).pending = s.pending := rfl
@[simp] theorem State.draw_perst : (s.draw.1).perst = s.perst := rfl
@[simp] theorem State.draw_powered : (s.draw.1).powered = s.powered := rfl
@[simp] theorem State.draw_railOk : (s.draw.1).railOk = s.railOk := rfl
@[simp] theorem State.draw_regs : (s.draw.1).regs = s.regs := rfl
@[simp] theorem State.draw_pages : (s.draw.1).pages = s.pages := rfl
@[simp] theorem State.draw_queues : (s.draw.1).queues = s.queues := rfl
@[simp] theorem State.draw_host : (s.draw.1).host = s.host := rfl
@[simp] theorem State.draw_mem : (s.draw.1).mem = s.mem := rfl
@[simp] theorem State.draw_parBad : (s.draw.1).parBad = s.parBad := rfl
@[simp] theorem State.draw_lpmem : (s.draw.1).lpmem = s.lpmem := rfl
@[simp] theorem State.draw_lpBad : (s.draw.1).lpBad = s.lpBad := rfl
@[simp] theorem State.draw_arrays : (s.draw.1).arrays = s.arrays := rfl
@[simp] theorem State.draw_tiles : (s.draw.1).tiles = s.tiles := rfl
@[simp] theorem State.draw_clus : (s.draw.1).clus = s.clus := rfl
@[simp] theorem State.draw_ctxs : (s.draw.1).ctxs = s.ctxs := rfl
@[simp] theorem State.draw_cmps : (s.draw.1).cmps = s.cmps := rfl
@[simp] theorem State.draw_ops : (s.draw.1).ops = s.ops := rfl
@[simp] theorem State.draw_nextOp : (s.draw.1).nextOp = s.nextOp := rfl
@[simp] theorem State.draw_gsem : (s.draw.1).gsem = s.gsem := rfl
@[simp] theorem State.draw_units : (s.draw.1).units = s.units := rfl
@[simp] theorem State.draw_reports : (s.draw.1).reports = s.reports := rfl
@[simp] theorem State.draw_events : (s.draw.1).events = s.events := rfl
@[simp] theorem State.draw_invAll : (s.draw.1).invAll = s.invAll := rfl
@[simp] theorem State.draw_epochCtr : (s.draw.1).epochCtr = s.epochCtr := rfl
@[simp] theorem State.draw_jobs : (s.draw.1).jobs = s.jobs := rfl
@[simp] theorem State.draw_carriers : (s.draw.1).carriers = s.carriers := rfl
@[simp] theorem State.draw_fhp : (s.draw.1).fhp = s.fhp := rfl
@[simp] theorem State.draw_col : (s.draw.1).col = s.col := rfl
@[simp] theorem State.draw_hld : (s.draw.1).hld = s.hld := rfl
@[simp] theorem State.draw_hkc : (s.draw.1).hkc = s.hkc := rfl
@[simp] theorem State.draw_thm : (s.draw.1).thm = s.thm := rfl
@[simp] theorem State.draw_doms : (s.draw.1).doms = s.doms := rfl
@[simp] theorem State.draw_xng : (s.draw.1).xng = s.xng := rfl
@[simp] theorem State.draw_qfreq : (s.draw.1).qfreq = s.qfreq := rfl
@[simp] theorem State.draw_lpx : (s.draw.1).lpx = s.lpx := rfl
@[simp] theorem State.draw_dsy : (s.draw.1).dsy = s.dsy := rfl
@[simp] theorem State.draw_chain : (s.draw.1).chain = s.chain := rfl
@[simp] theorem State.draw_cfg : (s.draw.1).cfg = s.cfg := rfl
@[simp] theorem State.draw_sec : (s.draw.1).sec = s.sec := rfl
@[simp] theorem State.draw_tap : (s.draw.1).tap = s.tap := rfl
@[simp] theorem State.arr_draw (k : Nat) : (s.draw.1).arr k = s.arr k := rfl
@[simp] theorem State.tile_draw (k : Nat) : (s.draw.1).tile k = s.tile k := rfl
@[simp] theorem State.clu_draw (k : Nat) : (s.draw.1).clu k = s.clu k := rfl
@[simp] theorem State.ctx_draw (k : Nat) : (s.draw.1).ctx k = s.ctx k := rfl
@[simp] theorem State.cmp_draw (k : Nat) : (s.draw.1).cmp k = s.cmp k := rfl
@[simp] theorem State.queue_draw (k : Nat) : (s.draw.1).queue k = s.queue k := rfl
@[simp] theorem State.page_draw (k : Nat) : (s.draw.1).page k = s.page k := rfl
@[simp] theorem State.unit_draw (k : Nat) : (s.draw.1).unit k = s.unit k := rfl
@[simp] theorem State.dom_draw (k : Nat) : (s.draw.1).dom k = s.dom k := rfl
@[simp] theorem State.gs_draw (k : Nat) : (s.draw.1).gs k = s.gs k := rfl
@[simp] theorem State.rd_draw (k : Nat) : (s.draw.1).rd k = s.rd k := rfl
@[simp] theorem State.memByte_draw (k : Nat) : (s.draw.1).memByte k = s.memByte k := rfl
@[simp] theorem State.lpByte_draw (k : Nat) : (s.draw.1).lpByte k = s.lpByte k := rfl

@[simp] theorem State.withFree_pending (x : Nat) : (s.withFree x).pending = s.pending := rfl
@[simp] theorem State.withFree_perst (x : Nat) : (s.withFree x).perst = s.perst := rfl
@[simp] theorem State.withFree_powered (x : Nat) : (s.withFree x).powered = s.powered := rfl
@[simp] theorem State.withFree_railOk (x : Nat) : (s.withFree x).railOk = s.railOk := rfl
@[simp] theorem State.withFree_regs (x : Nat) : (s.withFree x).regs = s.regs := rfl
@[simp] theorem State.withFree_pages (x : Nat) : (s.withFree x).pages = s.pages := rfl
@[simp] theorem State.withFree_queues (x : Nat) : (s.withFree x).queues = s.queues := rfl
@[simp] theorem State.withFree_host (x : Nat) : (s.withFree x).host = s.host := rfl
@[simp] theorem State.withFree_mem (x : Nat) : (s.withFree x).mem = s.mem := rfl
@[simp] theorem State.withFree_parBad (x : Nat) : (s.withFree x).parBad = s.parBad := rfl
@[simp] theorem State.withFree_lpmem (x : Nat) : (s.withFree x).lpmem = s.lpmem := rfl
@[simp] theorem State.withFree_lpBad (x : Nat) : (s.withFree x).lpBad = s.lpBad := rfl
@[simp] theorem State.withFree_arrays (x : Nat) : (s.withFree x).arrays = s.arrays := rfl
@[simp] theorem State.withFree_tiles (x : Nat) : (s.withFree x).tiles = s.tiles := rfl
@[simp] theorem State.withFree_clus (x : Nat) : (s.withFree x).clus = s.clus := rfl
@[simp] theorem State.withFree_ctxs (x : Nat) : (s.withFree x).ctxs = s.ctxs := rfl
@[simp] theorem State.withFree_cmps (x : Nat) : (s.withFree x).cmps = s.cmps := rfl
@[simp] theorem State.withFree_ops (x : Nat) : (s.withFree x).ops = s.ops := rfl
@[simp] theorem State.withFree_nextOp (x : Nat) : (s.withFree x).nextOp = s.nextOp := rfl
@[simp] theorem State.withFree_gsem (x : Nat) : (s.withFree x).gsem = s.gsem := rfl
@[simp] theorem State.withFree_units (x : Nat) : (s.withFree x).units = s.units := rfl
@[simp] theorem State.withFree_reports (x : Nat) : (s.withFree x).reports = s.reports := rfl
@[simp] theorem State.withFree_events (x : Nat) : (s.withFree x).events = s.events := rfl
@[simp] theorem State.withFree_invAll (x : Nat) : (s.withFree x).invAll = s.invAll := rfl
@[simp] theorem State.withFree_epochCtr (x : Nat) : (s.withFree x).epochCtr = s.epochCtr := rfl
@[simp] theorem State.withFree_jobs (x : Nat) : (s.withFree x).jobs = s.jobs := rfl
@[simp] theorem State.withFree_carriers (x : Nat) : (s.withFree x).carriers = s.carriers := rfl
@[simp] theorem State.withFree_fhp (x : Nat) : (s.withFree x).fhp = s.fhp := rfl
@[simp] theorem State.withFree_col (x : Nat) : (s.withFree x).col = s.col := rfl
@[simp] theorem State.withFree_hld (x : Nat) : (s.withFree x).hld = s.hld := rfl
@[simp] theorem State.withFree_hkc (x : Nat) : (s.withFree x).hkc = s.hkc := rfl
@[simp] theorem State.withFree_thm (x : Nat) : (s.withFree x).thm = s.thm := rfl
@[simp] theorem State.withFree_doms (x : Nat) : (s.withFree x).doms = s.doms := rfl
@[simp] theorem State.withFree_xng (x : Nat) : (s.withFree x).xng = s.xng := rfl
@[simp] theorem State.withFree_qfreq (x : Nat) : (s.withFree x).qfreq = s.qfreq := rfl
@[simp] theorem State.withFree_lpx (x : Nat) : (s.withFree x).lpx = s.lpx := rfl
@[simp] theorem State.withFree_dsy (x : Nat) : (s.withFree x).dsy = s.dsy := rfl
@[simp] theorem State.withFree_chain (x : Nat) : (s.withFree x).chain = s.chain := rfl
@[simp] theorem State.withFree_cfg (x : Nat) : (s.withFree x).cfg = s.cfg := rfl
@[simp] theorem State.withFree_sec (x : Nat) : (s.withFree x).sec = s.sec := rfl
@[simp] theorem State.withFree_tap (x : Nat) : (s.withFree x).tap = s.tap := rfl
@[simp] theorem State.arr_withFree (x : Nat) (k : Nat) : (s.withFree x).arr k = s.arr k := rfl
@[simp] theorem State.tile_withFree (x : Nat) (k : Nat) : (s.withFree x).tile k = s.tile k := rfl
@[simp] theorem State.clu_withFree (x : Nat) (k : Nat) : (s.withFree x).clu k = s.clu k := rfl
@[simp] theorem State.ctx_withFree (x : Nat) (k : Nat) : (s.withFree x).ctx k = s.ctx k := rfl
@[simp] theorem State.cmp_withFree (x : Nat) (k : Nat) : (s.withFree x).cmp k = s.cmp k := rfl
@[simp] theorem State.queue_withFree (x : Nat) (k : Nat) : (s.withFree x).queue k = s.queue k := rfl
@[simp] theorem State.page_withFree (x : Nat) (k : Nat) : (s.withFree x).page k = s.page k := rfl
@[simp] theorem State.unit_withFree (x : Nat) (k : Nat) : (s.withFree x).unit k = s.unit k := rfl
@[simp] theorem State.dom_withFree (x : Nat) (k : Nat) : (s.withFree x).dom k = s.dom k := rfl
@[simp] theorem State.gs_withFree (x : Nat) (k : Nat) : (s.withFree x).gs k = s.gs k := rfl
@[simp] theorem State.rd_withFree (x : Nat) (k : Nat) : (s.withFree x).rd k = s.rd k := rfl
@[simp] theorem State.memByte_withFree (x : Nat) (k : Nat) : (s.withFree x).memByte k = s.memByte k := rfl
@[simp] theorem State.lpByte_withFree (x : Nat) (k : Nat) : (s.withFree x).lpByte k = s.lpByte k := rfl

@[simp] theorem State.withPerst_pending (x : Bool) : (s.withPerst x).pending = s.pending := rfl
@[simp] theorem State.withPerst_free (x : Bool) : (s.withPerst x).free = s.free := rfl
@[simp] theorem State.withPerst_powered (x : Bool) : (s.withPerst x).powered = s.powered := rfl
@[simp] theorem State.withPerst_railOk (x : Bool) : (s.withPerst x).railOk = s.railOk := rfl
@[simp] theorem State.withPerst_regs (x : Bool) : (s.withPerst x).regs = s.regs := rfl
@[simp] theorem State.withPerst_pages (x : Bool) : (s.withPerst x).pages = s.pages := rfl
@[simp] theorem State.withPerst_queues (x : Bool) : (s.withPerst x).queues = s.queues := rfl
@[simp] theorem State.withPerst_host (x : Bool) : (s.withPerst x).host = s.host := rfl
@[simp] theorem State.withPerst_mem (x : Bool) : (s.withPerst x).mem = s.mem := rfl
@[simp] theorem State.withPerst_parBad (x : Bool) : (s.withPerst x).parBad = s.parBad := rfl
@[simp] theorem State.withPerst_lpmem (x : Bool) : (s.withPerst x).lpmem = s.lpmem := rfl
@[simp] theorem State.withPerst_lpBad (x : Bool) : (s.withPerst x).lpBad = s.lpBad := rfl
@[simp] theorem State.withPerst_arrays (x : Bool) : (s.withPerst x).arrays = s.arrays := rfl
@[simp] theorem State.withPerst_tiles (x : Bool) : (s.withPerst x).tiles = s.tiles := rfl
@[simp] theorem State.withPerst_clus (x : Bool) : (s.withPerst x).clus = s.clus := rfl
@[simp] theorem State.withPerst_ctxs (x : Bool) : (s.withPerst x).ctxs = s.ctxs := rfl
@[simp] theorem State.withPerst_cmps (x : Bool) : (s.withPerst x).cmps = s.cmps := rfl
@[simp] theorem State.withPerst_ops (x : Bool) : (s.withPerst x).ops = s.ops := rfl
@[simp] theorem State.withPerst_nextOp (x : Bool) : (s.withPerst x).nextOp = s.nextOp := rfl
@[simp] theorem State.withPerst_gsem (x : Bool) : (s.withPerst x).gsem = s.gsem := rfl
@[simp] theorem State.withPerst_units (x : Bool) : (s.withPerst x).units = s.units := rfl
@[simp] theorem State.withPerst_reports (x : Bool) : (s.withPerst x).reports = s.reports := rfl
@[simp] theorem State.withPerst_events (x : Bool) : (s.withPerst x).events = s.events := rfl
@[simp] theorem State.withPerst_invAll (x : Bool) : (s.withPerst x).invAll = s.invAll := rfl
@[simp] theorem State.withPerst_epochCtr (x : Bool) : (s.withPerst x).epochCtr = s.epochCtr := rfl
@[simp] theorem State.withPerst_jobs (x : Bool) : (s.withPerst x).jobs = s.jobs := rfl
@[simp] theorem State.withPerst_carriers (x : Bool) : (s.withPerst x).carriers = s.carriers := rfl
@[simp] theorem State.withPerst_fhp (x : Bool) : (s.withPerst x).fhp = s.fhp := rfl
@[simp] theorem State.withPerst_col (x : Bool) : (s.withPerst x).col = s.col := rfl
@[simp] theorem State.withPerst_hld (x : Bool) : (s.withPerst x).hld = s.hld := rfl
@[simp] theorem State.withPerst_hkc (x : Bool) : (s.withPerst x).hkc = s.hkc := rfl
@[simp] theorem State.withPerst_thm (x : Bool) : (s.withPerst x).thm = s.thm := rfl
@[simp] theorem State.withPerst_doms (x : Bool) : (s.withPerst x).doms = s.doms := rfl
@[simp] theorem State.withPerst_xng (x : Bool) : (s.withPerst x).xng = s.xng := rfl
@[simp] theorem State.withPerst_qfreq (x : Bool) : (s.withPerst x).qfreq = s.qfreq := rfl
@[simp] theorem State.withPerst_lpx (x : Bool) : (s.withPerst x).lpx = s.lpx := rfl
@[simp] theorem State.withPerst_dsy (x : Bool) : (s.withPerst x).dsy = s.dsy := rfl
@[simp] theorem State.withPerst_chain (x : Bool) : (s.withPerst x).chain = s.chain := rfl
@[simp] theorem State.withPerst_cfg (x : Bool) : (s.withPerst x).cfg = s.cfg := rfl
@[simp] theorem State.withPerst_sec (x : Bool) : (s.withPerst x).sec = s.sec := rfl
@[simp] theorem State.withPerst_tap (x : Bool) : (s.withPerst x).tap = s.tap := rfl
@[simp] theorem State.arr_withPerst (x : Bool) (k : Nat) : (s.withPerst x).arr k = s.arr k := rfl
@[simp] theorem State.tile_withPerst (x : Bool) (k : Nat) : (s.withPerst x).tile k = s.tile k := rfl
@[simp] theorem State.clu_withPerst (x : Bool) (k : Nat) : (s.withPerst x).clu k = s.clu k := rfl
@[simp] theorem State.ctx_withPerst (x : Bool) (k : Nat) : (s.withPerst x).ctx k = s.ctx k := rfl
@[simp] theorem State.cmp_withPerst (x : Bool) (k : Nat) : (s.withPerst x).cmp k = s.cmp k := rfl
@[simp] theorem State.queue_withPerst (x : Bool) (k : Nat) : (s.withPerst x).queue k = s.queue k := rfl
@[simp] theorem State.page_withPerst (x : Bool) (k : Nat) : (s.withPerst x).page k = s.page k := rfl
@[simp] theorem State.unit_withPerst (x : Bool) (k : Nat) : (s.withPerst x).unit k = s.unit k := rfl
@[simp] theorem State.dom_withPerst (x : Bool) (k : Nat) : (s.withPerst x).dom k = s.dom k := rfl
@[simp] theorem State.gs_withPerst (x : Bool) (k : Nat) : (s.withPerst x).gs k = s.gs k := rfl
@[simp] theorem State.rd_withPerst (x : Bool) (k : Nat) : (s.withPerst x).rd k = s.rd k := rfl
@[simp] theorem State.memByte_withPerst (x : Bool) (k : Nat) : (s.withPerst x).memByte k = s.memByte k := rfl
@[simp] theorem State.lpByte_withPerst (x : Bool) (k : Nat) : (s.withPerst x).lpByte k = s.lpByte k := rfl

@[simp] theorem State.withRailOk_pending (x : Bool) : (s.withRailOk x).pending = s.pending := rfl
@[simp] theorem State.withRailOk_free (x : Bool) : (s.withRailOk x).free = s.free := rfl
@[simp] theorem State.withRailOk_perst (x : Bool) : (s.withRailOk x).perst = s.perst := rfl
@[simp] theorem State.withRailOk_powered (x : Bool) : (s.withRailOk x).powered = s.powered := rfl
@[simp] theorem State.withRailOk_regs (x : Bool) : (s.withRailOk x).regs = s.regs := rfl
@[simp] theorem State.withRailOk_pages (x : Bool) : (s.withRailOk x).pages = s.pages := rfl
@[simp] theorem State.withRailOk_queues (x : Bool) : (s.withRailOk x).queues = s.queues := rfl
@[simp] theorem State.withRailOk_host (x : Bool) : (s.withRailOk x).host = s.host := rfl
@[simp] theorem State.withRailOk_mem (x : Bool) : (s.withRailOk x).mem = s.mem := rfl
@[simp] theorem State.withRailOk_parBad (x : Bool) : (s.withRailOk x).parBad = s.parBad := rfl
@[simp] theorem State.withRailOk_lpmem (x : Bool) : (s.withRailOk x).lpmem = s.lpmem := rfl
@[simp] theorem State.withRailOk_lpBad (x : Bool) : (s.withRailOk x).lpBad = s.lpBad := rfl
@[simp] theorem State.withRailOk_arrays (x : Bool) : (s.withRailOk x).arrays = s.arrays := rfl
@[simp] theorem State.withRailOk_tiles (x : Bool) : (s.withRailOk x).tiles = s.tiles := rfl
@[simp] theorem State.withRailOk_clus (x : Bool) : (s.withRailOk x).clus = s.clus := rfl
@[simp] theorem State.withRailOk_ctxs (x : Bool) : (s.withRailOk x).ctxs = s.ctxs := rfl
@[simp] theorem State.withRailOk_cmps (x : Bool) : (s.withRailOk x).cmps = s.cmps := rfl
@[simp] theorem State.withRailOk_ops (x : Bool) : (s.withRailOk x).ops = s.ops := rfl
@[simp] theorem State.withRailOk_nextOp (x : Bool) : (s.withRailOk x).nextOp = s.nextOp := rfl
@[simp] theorem State.withRailOk_gsem (x : Bool) : (s.withRailOk x).gsem = s.gsem := rfl
@[simp] theorem State.withRailOk_units (x : Bool) : (s.withRailOk x).units = s.units := rfl
@[simp] theorem State.withRailOk_reports (x : Bool) : (s.withRailOk x).reports = s.reports := rfl
@[simp] theorem State.withRailOk_events (x : Bool) : (s.withRailOk x).events = s.events := rfl
@[simp] theorem State.withRailOk_invAll (x : Bool) : (s.withRailOk x).invAll = s.invAll := rfl
@[simp] theorem State.withRailOk_epochCtr (x : Bool) : (s.withRailOk x).epochCtr = s.epochCtr := rfl
@[simp] theorem State.withRailOk_jobs (x : Bool) : (s.withRailOk x).jobs = s.jobs := rfl
@[simp] theorem State.withRailOk_carriers (x : Bool) : (s.withRailOk x).carriers = s.carriers := rfl
@[simp] theorem State.withRailOk_fhp (x : Bool) : (s.withRailOk x).fhp = s.fhp := rfl
@[simp] theorem State.withRailOk_col (x : Bool) : (s.withRailOk x).col = s.col := rfl
@[simp] theorem State.withRailOk_hld (x : Bool) : (s.withRailOk x).hld = s.hld := rfl
@[simp] theorem State.withRailOk_hkc (x : Bool) : (s.withRailOk x).hkc = s.hkc := rfl
@[simp] theorem State.withRailOk_thm (x : Bool) : (s.withRailOk x).thm = s.thm := rfl
@[simp] theorem State.withRailOk_doms (x : Bool) : (s.withRailOk x).doms = s.doms := rfl
@[simp] theorem State.withRailOk_xng (x : Bool) : (s.withRailOk x).xng = s.xng := rfl
@[simp] theorem State.withRailOk_qfreq (x : Bool) : (s.withRailOk x).qfreq = s.qfreq := rfl
@[simp] theorem State.withRailOk_lpx (x : Bool) : (s.withRailOk x).lpx = s.lpx := rfl
@[simp] theorem State.withRailOk_dsy (x : Bool) : (s.withRailOk x).dsy = s.dsy := rfl
@[simp] theorem State.withRailOk_chain (x : Bool) : (s.withRailOk x).chain = s.chain := rfl
@[simp] theorem State.withRailOk_cfg (x : Bool) : (s.withRailOk x).cfg = s.cfg := rfl
@[simp] theorem State.withRailOk_sec (x : Bool) : (s.withRailOk x).sec = s.sec := rfl
@[simp] theorem State.withRailOk_tap (x : Bool) : (s.withRailOk x).tap = s.tap := rfl
@[simp] theorem State.arr_withRailOk (x : Bool) (k : Nat) : (s.withRailOk x).arr k = s.arr k := rfl
@[simp] theorem State.tile_withRailOk (x : Bool) (k : Nat) : (s.withRailOk x).tile k = s.tile k := rfl
@[simp] theorem State.clu_withRailOk (x : Bool) (k : Nat) : (s.withRailOk x).clu k = s.clu k := rfl
@[simp] theorem State.ctx_withRailOk (x : Bool) (k : Nat) : (s.withRailOk x).ctx k = s.ctx k := rfl
@[simp] theorem State.cmp_withRailOk (x : Bool) (k : Nat) : (s.withRailOk x).cmp k = s.cmp k := rfl
@[simp] theorem State.queue_withRailOk (x : Bool) (k : Nat) : (s.withRailOk x).queue k = s.queue k := rfl
@[simp] theorem State.page_withRailOk (x : Bool) (k : Nat) : (s.withRailOk x).page k = s.page k := rfl
@[simp] theorem State.unit_withRailOk (x : Bool) (k : Nat) : (s.withRailOk x).unit k = s.unit k := rfl
@[simp] theorem State.dom_withRailOk (x : Bool) (k : Nat) : (s.withRailOk x).dom k = s.dom k := rfl
@[simp] theorem State.gs_withRailOk (x : Bool) (k : Nat) : (s.withRailOk x).gs k = s.gs k := rfl
@[simp] theorem State.rd_withRailOk (x : Bool) (k : Nat) : (s.withRailOk x).rd k = s.rd k := rfl
@[simp] theorem State.memByte_withRailOk (x : Bool) (k : Nat) : (s.withRailOk x).memByte k = s.memByte k := rfl
@[simp] theorem State.lpByte_withRailOk (x : Bool) (k : Nat) : (s.withRailOk x).lpByte k = s.lpByte k := rfl

@[simp] theorem State.withHost_pending (x : HostSt) : (s.withHost x).pending = s.pending := rfl
@[simp] theorem State.withHost_free (x : HostSt) : (s.withHost x).free = s.free := rfl
@[simp] theorem State.withHost_perst (x : HostSt) : (s.withHost x).perst = s.perst := rfl
@[simp] theorem State.withHost_powered (x : HostSt) : (s.withHost x).powered = s.powered := rfl
@[simp] theorem State.withHost_railOk (x : HostSt) : (s.withHost x).railOk = s.railOk := rfl
@[simp] theorem State.withHost_regs (x : HostSt) : (s.withHost x).regs = s.regs := rfl
@[simp] theorem State.withHost_pages (x : HostSt) : (s.withHost x).pages = s.pages := rfl
@[simp] theorem State.withHost_queues (x : HostSt) : (s.withHost x).queues = s.queues := rfl
@[simp] theorem State.withHost_mem (x : HostSt) : (s.withHost x).mem = s.mem := rfl
@[simp] theorem State.withHost_parBad (x : HostSt) : (s.withHost x).parBad = s.parBad := rfl
@[simp] theorem State.withHost_lpmem (x : HostSt) : (s.withHost x).lpmem = s.lpmem := rfl
@[simp] theorem State.withHost_lpBad (x : HostSt) : (s.withHost x).lpBad = s.lpBad := rfl
@[simp] theorem State.withHost_arrays (x : HostSt) : (s.withHost x).arrays = s.arrays := rfl
@[simp] theorem State.withHost_tiles (x : HostSt) : (s.withHost x).tiles = s.tiles := rfl
@[simp] theorem State.withHost_clus (x : HostSt) : (s.withHost x).clus = s.clus := rfl
@[simp] theorem State.withHost_ctxs (x : HostSt) : (s.withHost x).ctxs = s.ctxs := rfl
@[simp] theorem State.withHost_cmps (x : HostSt) : (s.withHost x).cmps = s.cmps := rfl
@[simp] theorem State.withHost_ops (x : HostSt) : (s.withHost x).ops = s.ops := rfl
@[simp] theorem State.withHost_nextOp (x : HostSt) : (s.withHost x).nextOp = s.nextOp := rfl
@[simp] theorem State.withHost_gsem (x : HostSt) : (s.withHost x).gsem = s.gsem := rfl
@[simp] theorem State.withHost_units (x : HostSt) : (s.withHost x).units = s.units := rfl
@[simp] theorem State.withHost_reports (x : HostSt) : (s.withHost x).reports = s.reports := rfl
@[simp] theorem State.withHost_events (x : HostSt) : (s.withHost x).events = s.events := rfl
@[simp] theorem State.withHost_invAll (x : HostSt) : (s.withHost x).invAll = s.invAll := rfl
@[simp] theorem State.withHost_epochCtr (x : HostSt) : (s.withHost x).epochCtr = s.epochCtr := rfl
@[simp] theorem State.withHost_jobs (x : HostSt) : (s.withHost x).jobs = s.jobs := rfl
@[simp] theorem State.withHost_carriers (x : HostSt) : (s.withHost x).carriers = s.carriers := rfl
@[simp] theorem State.withHost_fhp (x : HostSt) : (s.withHost x).fhp = s.fhp := rfl
@[simp] theorem State.withHost_col (x : HostSt) : (s.withHost x).col = s.col := rfl
@[simp] theorem State.withHost_hld (x : HostSt) : (s.withHost x).hld = s.hld := rfl
@[simp] theorem State.withHost_hkc (x : HostSt) : (s.withHost x).hkc = s.hkc := rfl
@[simp] theorem State.withHost_thm (x : HostSt) : (s.withHost x).thm = s.thm := rfl
@[simp] theorem State.withHost_doms (x : HostSt) : (s.withHost x).doms = s.doms := rfl
@[simp] theorem State.withHost_xng (x : HostSt) : (s.withHost x).xng = s.xng := rfl
@[simp] theorem State.withHost_qfreq (x : HostSt) : (s.withHost x).qfreq = s.qfreq := rfl
@[simp] theorem State.withHost_lpx (x : HostSt) : (s.withHost x).lpx = s.lpx := rfl
@[simp] theorem State.withHost_dsy (x : HostSt) : (s.withHost x).dsy = s.dsy := rfl
@[simp] theorem State.withHost_chain (x : HostSt) : (s.withHost x).chain = s.chain := rfl
@[simp] theorem State.withHost_cfg (x : HostSt) : (s.withHost x).cfg = s.cfg := rfl
@[simp] theorem State.withHost_sec (x : HostSt) : (s.withHost x).sec = s.sec := rfl
@[simp] theorem State.withHost_tap (x : HostSt) : (s.withHost x).tap = s.tap := rfl
@[simp] theorem State.arr_withHost (x : HostSt) (k : Nat) : (s.withHost x).arr k = s.arr k := rfl
@[simp] theorem State.tile_withHost (x : HostSt) (k : Nat) : (s.withHost x).tile k = s.tile k := rfl
@[simp] theorem State.clu_withHost (x : HostSt) (k : Nat) : (s.withHost x).clu k = s.clu k := rfl
@[simp] theorem State.ctx_withHost (x : HostSt) (k : Nat) : (s.withHost x).ctx k = s.ctx k := rfl
@[simp] theorem State.cmp_withHost (x : HostSt) (k : Nat) : (s.withHost x).cmp k = s.cmp k := rfl
@[simp] theorem State.queue_withHost (x : HostSt) (k : Nat) : (s.withHost x).queue k = s.queue k := rfl
@[simp] theorem State.page_withHost (x : HostSt) (k : Nat) : (s.withHost x).page k = s.page k := rfl
@[simp] theorem State.unit_withHost (x : HostSt) (k : Nat) : (s.withHost x).unit k = s.unit k := rfl
@[simp] theorem State.dom_withHost (x : HostSt) (k : Nat) : (s.withHost x).dom k = s.dom k := rfl
@[simp] theorem State.gs_withHost (x : HostSt) (k : Nat) : (s.withHost x).gs k = s.gs k := rfl
@[simp] theorem State.rd_withHost (x : HostSt) (k : Nat) : (s.withHost x).rd k = s.rd k := rfl
@[simp] theorem State.memByte_withHost (x : HostSt) (k : Nat) : (s.withHost x).memByte k = s.memByte k := rfl
@[simp] theorem State.lpByte_withHost (x : HostSt) (k : Nat) : (s.withHost x).lpByte k = s.lpByte k := rfl

@[simp] theorem State.withLpBad_pending (x : FMap Bool) : (s.withLpBad x).pending = s.pending := rfl
@[simp] theorem State.withLpBad_free (x : FMap Bool) : (s.withLpBad x).free = s.free := rfl
@[simp] theorem State.withLpBad_perst (x : FMap Bool) : (s.withLpBad x).perst = s.perst := rfl
@[simp] theorem State.withLpBad_powered (x : FMap Bool) : (s.withLpBad x).powered = s.powered := rfl
@[simp] theorem State.withLpBad_railOk (x : FMap Bool) : (s.withLpBad x).railOk = s.railOk := rfl
@[simp] theorem State.withLpBad_regs (x : FMap Bool) : (s.withLpBad x).regs = s.regs := rfl
@[simp] theorem State.withLpBad_pages (x : FMap Bool) : (s.withLpBad x).pages = s.pages := rfl
@[simp] theorem State.withLpBad_queues (x : FMap Bool) : (s.withLpBad x).queues = s.queues := rfl
@[simp] theorem State.withLpBad_host (x : FMap Bool) : (s.withLpBad x).host = s.host := rfl
@[simp] theorem State.withLpBad_mem (x : FMap Bool) : (s.withLpBad x).mem = s.mem := rfl
@[simp] theorem State.withLpBad_parBad (x : FMap Bool) : (s.withLpBad x).parBad = s.parBad := rfl
@[simp] theorem State.withLpBad_lpmem (x : FMap Bool) : (s.withLpBad x).lpmem = s.lpmem := rfl
@[simp] theorem State.withLpBad_arrays (x : FMap Bool) : (s.withLpBad x).arrays = s.arrays := rfl
@[simp] theorem State.withLpBad_tiles (x : FMap Bool) : (s.withLpBad x).tiles = s.tiles := rfl
@[simp] theorem State.withLpBad_clus (x : FMap Bool) : (s.withLpBad x).clus = s.clus := rfl
@[simp] theorem State.withLpBad_ctxs (x : FMap Bool) : (s.withLpBad x).ctxs = s.ctxs := rfl
@[simp] theorem State.withLpBad_cmps (x : FMap Bool) : (s.withLpBad x).cmps = s.cmps := rfl
@[simp] theorem State.withLpBad_ops (x : FMap Bool) : (s.withLpBad x).ops = s.ops := rfl
@[simp] theorem State.withLpBad_nextOp (x : FMap Bool) : (s.withLpBad x).nextOp = s.nextOp := rfl
@[simp] theorem State.withLpBad_gsem (x : FMap Bool) : (s.withLpBad x).gsem = s.gsem := rfl
@[simp] theorem State.withLpBad_units (x : FMap Bool) : (s.withLpBad x).units = s.units := rfl
@[simp] theorem State.withLpBad_reports (x : FMap Bool) : (s.withLpBad x).reports = s.reports := rfl
@[simp] theorem State.withLpBad_events (x : FMap Bool) : (s.withLpBad x).events = s.events := rfl
@[simp] theorem State.withLpBad_invAll (x : FMap Bool) : (s.withLpBad x).invAll = s.invAll := rfl
@[simp] theorem State.withLpBad_epochCtr (x : FMap Bool) : (s.withLpBad x).epochCtr = s.epochCtr := rfl
@[simp] theorem State.withLpBad_jobs (x : FMap Bool) : (s.withLpBad x).jobs = s.jobs := rfl
@[simp] theorem State.withLpBad_carriers (x : FMap Bool) : (s.withLpBad x).carriers = s.carriers := rfl
@[simp] theorem State.withLpBad_fhp (x : FMap Bool) : (s.withLpBad x).fhp = s.fhp := rfl
@[simp] theorem State.withLpBad_col (x : FMap Bool) : (s.withLpBad x).col = s.col := rfl
@[simp] theorem State.withLpBad_hld (x : FMap Bool) : (s.withLpBad x).hld = s.hld := rfl
@[simp] theorem State.withLpBad_hkc (x : FMap Bool) : (s.withLpBad x).hkc = s.hkc := rfl
@[simp] theorem State.withLpBad_thm (x : FMap Bool) : (s.withLpBad x).thm = s.thm := rfl
@[simp] theorem State.withLpBad_doms (x : FMap Bool) : (s.withLpBad x).doms = s.doms := rfl
@[simp] theorem State.withLpBad_xng (x : FMap Bool) : (s.withLpBad x).xng = s.xng := rfl
@[simp] theorem State.withLpBad_qfreq (x : FMap Bool) : (s.withLpBad x).qfreq = s.qfreq := rfl
@[simp] theorem State.withLpBad_lpx (x : FMap Bool) : (s.withLpBad x).lpx = s.lpx := rfl
@[simp] theorem State.withLpBad_dsy (x : FMap Bool) : (s.withLpBad x).dsy = s.dsy := rfl
@[simp] theorem State.withLpBad_chain (x : FMap Bool) : (s.withLpBad x).chain = s.chain := rfl
@[simp] theorem State.withLpBad_cfg (x : FMap Bool) : (s.withLpBad x).cfg = s.cfg := rfl
@[simp] theorem State.withLpBad_sec (x : FMap Bool) : (s.withLpBad x).sec = s.sec := rfl
@[simp] theorem State.withLpBad_tap (x : FMap Bool) : (s.withLpBad x).tap = s.tap := rfl
@[simp] theorem State.arr_withLpBad (x : FMap Bool) (k : Nat) : (s.withLpBad x).arr k = s.arr k := rfl
@[simp] theorem State.tile_withLpBad (x : FMap Bool) (k : Nat) : (s.withLpBad x).tile k = s.tile k := rfl
@[simp] theorem State.clu_withLpBad (x : FMap Bool) (k : Nat) : (s.withLpBad x).clu k = s.clu k := rfl
@[simp] theorem State.ctx_withLpBad (x : FMap Bool) (k : Nat) : (s.withLpBad x).ctx k = s.ctx k := rfl
@[simp] theorem State.cmp_withLpBad (x : FMap Bool) (k : Nat) : (s.withLpBad x).cmp k = s.cmp k := rfl
@[simp] theorem State.queue_withLpBad (x : FMap Bool) (k : Nat) : (s.withLpBad x).queue k = s.queue k := rfl
@[simp] theorem State.page_withLpBad (x : FMap Bool) (k : Nat) : (s.withLpBad x).page k = s.page k := rfl
@[simp] theorem State.unit_withLpBad (x : FMap Bool) (k : Nat) : (s.withLpBad x).unit k = s.unit k := rfl
@[simp] theorem State.dom_withLpBad (x : FMap Bool) (k : Nat) : (s.withLpBad x).dom k = s.dom k := rfl
@[simp] theorem State.gs_withLpBad (x : FMap Bool) (k : Nat) : (s.withLpBad x).gs k = s.gs k := rfl
@[simp] theorem State.rd_withLpBad (x : FMap Bool) (k : Nat) : (s.withLpBad x).rd k = s.rd k := rfl
@[simp] theorem State.memByte_withLpBad (x : FMap Bool) (k : Nat) : (s.withLpBad x).memByte k = s.memByte k := rfl
@[simp] theorem State.lpByte_withLpBad (x : FMap Bool) (k : Nat) : (s.withLpBad x).lpByte k = s.lpByte k := rfl

@[simp] theorem State.withOps_pending (x : List Op) : (s.withOps x).pending = s.pending := rfl
@[simp] theorem State.withOps_free (x : List Op) : (s.withOps x).free = s.free := rfl
@[simp] theorem State.withOps_perst (x : List Op) : (s.withOps x).perst = s.perst := rfl
@[simp] theorem State.withOps_powered (x : List Op) : (s.withOps x).powered = s.powered := rfl
@[simp] theorem State.withOps_railOk (x : List Op) : (s.withOps x).railOk = s.railOk := rfl
@[simp] theorem State.withOps_regs (x : List Op) : (s.withOps x).regs = s.regs := rfl
@[simp] theorem State.withOps_pages (x : List Op) : (s.withOps x).pages = s.pages := rfl
@[simp] theorem State.withOps_queues (x : List Op) : (s.withOps x).queues = s.queues := rfl
@[simp] theorem State.withOps_host (x : List Op) : (s.withOps x).host = s.host := rfl
@[simp] theorem State.withOps_mem (x : List Op) : (s.withOps x).mem = s.mem := rfl
@[simp] theorem State.withOps_parBad (x : List Op) : (s.withOps x).parBad = s.parBad := rfl
@[simp] theorem State.withOps_lpmem (x : List Op) : (s.withOps x).lpmem = s.lpmem := rfl
@[simp] theorem State.withOps_lpBad (x : List Op) : (s.withOps x).lpBad = s.lpBad := rfl
@[simp] theorem State.withOps_arrays (x : List Op) : (s.withOps x).arrays = s.arrays := rfl
@[simp] theorem State.withOps_tiles (x : List Op) : (s.withOps x).tiles = s.tiles := rfl
@[simp] theorem State.withOps_clus (x : List Op) : (s.withOps x).clus = s.clus := rfl
@[simp] theorem State.withOps_ctxs (x : List Op) : (s.withOps x).ctxs = s.ctxs := rfl
@[simp] theorem State.withOps_cmps (x : List Op) : (s.withOps x).cmps = s.cmps := rfl
@[simp] theorem State.withOps_nextOp (x : List Op) : (s.withOps x).nextOp = s.nextOp := rfl
@[simp] theorem State.withOps_gsem (x : List Op) : (s.withOps x).gsem = s.gsem := rfl
@[simp] theorem State.withOps_units (x : List Op) : (s.withOps x).units = s.units := rfl
@[simp] theorem State.withOps_reports (x : List Op) : (s.withOps x).reports = s.reports := rfl
@[simp] theorem State.withOps_events (x : List Op) : (s.withOps x).events = s.events := rfl
@[simp] theorem State.withOps_invAll (x : List Op) : (s.withOps x).invAll = s.invAll := rfl
@[simp] theorem State.withOps_epochCtr (x : List Op) : (s.withOps x).epochCtr = s.epochCtr := rfl
@[simp] theorem State.withOps_jobs (x : List Op) : (s.withOps x).jobs = s.jobs := rfl
@[simp] theorem State.withOps_carriers (x : List Op) : (s.withOps x).carriers = s.carriers := rfl
@[simp] theorem State.withOps_fhp (x : List Op) : (s.withOps x).fhp = s.fhp := rfl
@[simp] theorem State.withOps_col (x : List Op) : (s.withOps x).col = s.col := rfl
@[simp] theorem State.withOps_hld (x : List Op) : (s.withOps x).hld = s.hld := rfl
@[simp] theorem State.withOps_hkc (x : List Op) : (s.withOps x).hkc = s.hkc := rfl
@[simp] theorem State.withOps_thm (x : List Op) : (s.withOps x).thm = s.thm := rfl
@[simp] theorem State.withOps_doms (x : List Op) : (s.withOps x).doms = s.doms := rfl
@[simp] theorem State.withOps_xng (x : List Op) : (s.withOps x).xng = s.xng := rfl
@[simp] theorem State.withOps_qfreq (x : List Op) : (s.withOps x).qfreq = s.qfreq := rfl
@[simp] theorem State.withOps_lpx (x : List Op) : (s.withOps x).lpx = s.lpx := rfl
@[simp] theorem State.withOps_dsy (x : List Op) : (s.withOps x).dsy = s.dsy := rfl
@[simp] theorem State.withOps_chain (x : List Op) : (s.withOps x).chain = s.chain := rfl
@[simp] theorem State.withOps_cfg (x : List Op) : (s.withOps x).cfg = s.cfg := rfl
@[simp] theorem State.withOps_sec (x : List Op) : (s.withOps x).sec = s.sec := rfl
@[simp] theorem State.withOps_tap (x : List Op) : (s.withOps x).tap = s.tap := rfl
@[simp] theorem State.arr_withOps (x : List Op) (k : Nat) : (s.withOps x).arr k = s.arr k := rfl
@[simp] theorem State.tile_withOps (x : List Op) (k : Nat) : (s.withOps x).tile k = s.tile k := rfl
@[simp] theorem State.clu_withOps (x : List Op) (k : Nat) : (s.withOps x).clu k = s.clu k := rfl
@[simp] theorem State.ctx_withOps (x : List Op) (k : Nat) : (s.withOps x).ctx k = s.ctx k := rfl
@[simp] theorem State.cmp_withOps (x : List Op) (k : Nat) : (s.withOps x).cmp k = s.cmp k := rfl
@[simp] theorem State.queue_withOps (x : List Op) (k : Nat) : (s.withOps x).queue k = s.queue k := rfl
@[simp] theorem State.page_withOps (x : List Op) (k : Nat) : (s.withOps x).page k = s.page k := rfl
@[simp] theorem State.unit_withOps (x : List Op) (k : Nat) : (s.withOps x).unit k = s.unit k := rfl
@[simp] theorem State.dom_withOps (x : List Op) (k : Nat) : (s.withOps x).dom k = s.dom k := rfl
@[simp] theorem State.gs_withOps (x : List Op) (k : Nat) : (s.withOps x).gs k = s.gs k := rfl
@[simp] theorem State.rd_withOps (x : List Op) (k : Nat) : (s.withOps x).rd k = s.rd k := rfl
@[simp] theorem State.memByte_withOps (x : List Op) (k : Nat) : (s.withOps x).memByte k = s.memByte k := rfl
@[simp] theorem State.lpByte_withOps (x : List Op) (k : Nat) : (s.withOps x).lpByte k = s.lpByte k := rfl

@[simp] theorem State.withNextOp_pending (x : Nat) : (s.withNextOp x).pending = s.pending := rfl
@[simp] theorem State.withNextOp_free (x : Nat) : (s.withNextOp x).free = s.free := rfl
@[simp] theorem State.withNextOp_perst (x : Nat) : (s.withNextOp x).perst = s.perst := rfl
@[simp] theorem State.withNextOp_powered (x : Nat) : (s.withNextOp x).powered = s.powered := rfl
@[simp] theorem State.withNextOp_railOk (x : Nat) : (s.withNextOp x).railOk = s.railOk := rfl
@[simp] theorem State.withNextOp_regs (x : Nat) : (s.withNextOp x).regs = s.regs := rfl
@[simp] theorem State.withNextOp_pages (x : Nat) : (s.withNextOp x).pages = s.pages := rfl
@[simp] theorem State.withNextOp_queues (x : Nat) : (s.withNextOp x).queues = s.queues := rfl
@[simp] theorem State.withNextOp_host (x : Nat) : (s.withNextOp x).host = s.host := rfl
@[simp] theorem State.withNextOp_mem (x : Nat) : (s.withNextOp x).mem = s.mem := rfl
@[simp] theorem State.withNextOp_parBad (x : Nat) : (s.withNextOp x).parBad = s.parBad := rfl
@[simp] theorem State.withNextOp_lpmem (x : Nat) : (s.withNextOp x).lpmem = s.lpmem := rfl
@[simp] theorem State.withNextOp_lpBad (x : Nat) : (s.withNextOp x).lpBad = s.lpBad := rfl
@[simp] theorem State.withNextOp_arrays (x : Nat) : (s.withNextOp x).arrays = s.arrays := rfl
@[simp] theorem State.withNextOp_tiles (x : Nat) : (s.withNextOp x).tiles = s.tiles := rfl
@[simp] theorem State.withNextOp_clus (x : Nat) : (s.withNextOp x).clus = s.clus := rfl
@[simp] theorem State.withNextOp_ctxs (x : Nat) : (s.withNextOp x).ctxs = s.ctxs := rfl
@[simp] theorem State.withNextOp_cmps (x : Nat) : (s.withNextOp x).cmps = s.cmps := rfl
@[simp] theorem State.withNextOp_ops (x : Nat) : (s.withNextOp x).ops = s.ops := rfl
@[simp] theorem State.withNextOp_gsem (x : Nat) : (s.withNextOp x).gsem = s.gsem := rfl
@[simp] theorem State.withNextOp_units (x : Nat) : (s.withNextOp x).units = s.units := rfl
@[simp] theorem State.withNextOp_reports (x : Nat) : (s.withNextOp x).reports = s.reports := rfl
@[simp] theorem State.withNextOp_events (x : Nat) : (s.withNextOp x).events = s.events := rfl
@[simp] theorem State.withNextOp_invAll (x : Nat) : (s.withNextOp x).invAll = s.invAll := rfl
@[simp] theorem State.withNextOp_epochCtr (x : Nat) : (s.withNextOp x).epochCtr = s.epochCtr := rfl
@[simp] theorem State.withNextOp_jobs (x : Nat) : (s.withNextOp x).jobs = s.jobs := rfl
@[simp] theorem State.withNextOp_carriers (x : Nat) : (s.withNextOp x).carriers = s.carriers := rfl
@[simp] theorem State.withNextOp_fhp (x : Nat) : (s.withNextOp x).fhp = s.fhp := rfl
@[simp] theorem State.withNextOp_col (x : Nat) : (s.withNextOp x).col = s.col := rfl
@[simp] theorem State.withNextOp_hld (x : Nat) : (s.withNextOp x).hld = s.hld := rfl
@[simp] theorem State.withNextOp_hkc (x : Nat) : (s.withNextOp x).hkc = s.hkc := rfl
@[simp] theorem State.withNextOp_thm (x : Nat) : (s.withNextOp x).thm = s.thm := rfl
@[simp] theorem State.withNextOp_doms (x : Nat) : (s.withNextOp x).doms = s.doms := rfl
@[simp] theorem State.withNextOp_xng (x : Nat) : (s.withNextOp x).xng = s.xng := rfl
@[simp] theorem State.withNextOp_qfreq (x : Nat) : (s.withNextOp x).qfreq = s.qfreq := rfl
@[simp] theorem State.withNextOp_lpx (x : Nat) : (s.withNextOp x).lpx = s.lpx := rfl
@[simp] theorem State.withNextOp_dsy (x : Nat) : (s.withNextOp x).dsy = s.dsy := rfl
@[simp] theorem State.withNextOp_chain (x : Nat) : (s.withNextOp x).chain = s.chain := rfl
@[simp] theorem State.withNextOp_cfg (x : Nat) : (s.withNextOp x).cfg = s.cfg := rfl
@[simp] theorem State.withNextOp_sec (x : Nat) : (s.withNextOp x).sec = s.sec := rfl
@[simp] theorem State.withNextOp_tap (x : Nat) : (s.withNextOp x).tap = s.tap := rfl
@[simp] theorem State.arr_withNextOp (x : Nat) (k : Nat) : (s.withNextOp x).arr k = s.arr k := rfl
@[simp] theorem State.tile_withNextOp (x : Nat) (k : Nat) : (s.withNextOp x).tile k = s.tile k := rfl
@[simp] theorem State.clu_withNextOp (x : Nat) (k : Nat) : (s.withNextOp x).clu k = s.clu k := rfl
@[simp] theorem State.ctx_withNextOp (x : Nat) (k : Nat) : (s.withNextOp x).ctx k = s.ctx k := rfl
@[simp] theorem State.cmp_withNextOp (x : Nat) (k : Nat) : (s.withNextOp x).cmp k = s.cmp k := rfl
@[simp] theorem State.queue_withNextOp (x : Nat) (k : Nat) : (s.withNextOp x).queue k = s.queue k := rfl
@[simp] theorem State.page_withNextOp (x : Nat) (k : Nat) : (s.withNextOp x).page k = s.page k := rfl
@[simp] theorem State.unit_withNextOp (x : Nat) (k : Nat) : (s.withNextOp x).unit k = s.unit k := rfl
@[simp] theorem State.dom_withNextOp (x : Nat) (k : Nat) : (s.withNextOp x).dom k = s.dom k := rfl
@[simp] theorem State.gs_withNextOp (x : Nat) (k : Nat) : (s.withNextOp x).gs k = s.gs k := rfl
@[simp] theorem State.rd_withNextOp (x : Nat) (k : Nat) : (s.withNextOp x).rd k = s.rd k := rfl
@[simp] theorem State.memByte_withNextOp (x : Nat) (k : Nat) : (s.withNextOp x).memByte k = s.memByte k := rfl
@[simp] theorem State.lpByte_withNextOp (x : Nat) (k : Nat) : (s.withNextOp x).lpByte k = s.lpByte k := rfl

@[simp] theorem State.withReports_pending (x : List Report) : (s.withReports x).pending = s.pending := rfl
@[simp] theorem State.withReports_free (x : List Report) : (s.withReports x).free = s.free := rfl
@[simp] theorem State.withReports_perst (x : List Report) : (s.withReports x).perst = s.perst := rfl
@[simp] theorem State.withReports_powered (x : List Report) : (s.withReports x).powered = s.powered := rfl
@[simp] theorem State.withReports_railOk (x : List Report) : (s.withReports x).railOk = s.railOk := rfl
@[simp] theorem State.withReports_regs (x : List Report) : (s.withReports x).regs = s.regs := rfl
@[simp] theorem State.withReports_pages (x : List Report) : (s.withReports x).pages = s.pages := rfl
@[simp] theorem State.withReports_queues (x : List Report) : (s.withReports x).queues = s.queues := rfl
@[simp] theorem State.withReports_host (x : List Report) : (s.withReports x).host = s.host := rfl
@[simp] theorem State.withReports_mem (x : List Report) : (s.withReports x).mem = s.mem := rfl
@[simp] theorem State.withReports_parBad (x : List Report) : (s.withReports x).parBad = s.parBad := rfl
@[simp] theorem State.withReports_lpmem (x : List Report) : (s.withReports x).lpmem = s.lpmem := rfl
@[simp] theorem State.withReports_lpBad (x : List Report) : (s.withReports x).lpBad = s.lpBad := rfl
@[simp] theorem State.withReports_arrays (x : List Report) : (s.withReports x).arrays = s.arrays := rfl
@[simp] theorem State.withReports_tiles (x : List Report) : (s.withReports x).tiles = s.tiles := rfl
@[simp] theorem State.withReports_clus (x : List Report) : (s.withReports x).clus = s.clus := rfl
@[simp] theorem State.withReports_ctxs (x : List Report) : (s.withReports x).ctxs = s.ctxs := rfl
@[simp] theorem State.withReports_cmps (x : List Report) : (s.withReports x).cmps = s.cmps := rfl
@[simp] theorem State.withReports_ops (x : List Report) : (s.withReports x).ops = s.ops := rfl
@[simp] theorem State.withReports_nextOp (x : List Report) : (s.withReports x).nextOp = s.nextOp := rfl
@[simp] theorem State.withReports_gsem (x : List Report) : (s.withReports x).gsem = s.gsem := rfl
@[simp] theorem State.withReports_units (x : List Report) : (s.withReports x).units = s.units := rfl
@[simp] theorem State.withReports_events (x : List Report) : (s.withReports x).events = s.events := rfl
@[simp] theorem State.withReports_invAll (x : List Report) : (s.withReports x).invAll = s.invAll := rfl
@[simp] theorem State.withReports_epochCtr (x : List Report) : (s.withReports x).epochCtr = s.epochCtr := rfl
@[simp] theorem State.withReports_jobs (x : List Report) : (s.withReports x).jobs = s.jobs := rfl
@[simp] theorem State.withReports_carriers (x : List Report) : (s.withReports x).carriers = s.carriers := rfl
@[simp] theorem State.withReports_fhp (x : List Report) : (s.withReports x).fhp = s.fhp := rfl
@[simp] theorem State.withReports_col (x : List Report) : (s.withReports x).col = s.col := rfl
@[simp] theorem State.withReports_hld (x : List Report) : (s.withReports x).hld = s.hld := rfl
@[simp] theorem State.withReports_hkc (x : List Report) : (s.withReports x).hkc = s.hkc := rfl
@[simp] theorem State.withReports_thm (x : List Report) : (s.withReports x).thm = s.thm := rfl
@[simp] theorem State.withReports_doms (x : List Report) : (s.withReports x).doms = s.doms := rfl
@[simp] theorem State.withReports_xng (x : List Report) : (s.withReports x).xng = s.xng := rfl
@[simp] theorem State.withReports_qfreq (x : List Report) : (s.withReports x).qfreq = s.qfreq := rfl
@[simp] theorem State.withReports_lpx (x : List Report) : (s.withReports x).lpx = s.lpx := rfl
@[simp] theorem State.withReports_dsy (x : List Report) : (s.withReports x).dsy = s.dsy := rfl
@[simp] theorem State.withReports_chain (x : List Report) : (s.withReports x).chain = s.chain := rfl
@[simp] theorem State.withReports_cfg (x : List Report) : (s.withReports x).cfg = s.cfg := rfl
@[simp] theorem State.withReports_sec (x : List Report) : (s.withReports x).sec = s.sec := rfl
@[simp] theorem State.withReports_tap (x : List Report) : (s.withReports x).tap = s.tap := rfl
@[simp] theorem State.arr_withReports (x : List Report) (k : Nat) : (s.withReports x).arr k = s.arr k := rfl
@[simp] theorem State.tile_withReports (x : List Report) (k : Nat) : (s.withReports x).tile k = s.tile k := rfl
@[simp] theorem State.clu_withReports (x : List Report) (k : Nat) : (s.withReports x).clu k = s.clu k := rfl
@[simp] theorem State.ctx_withReports (x : List Report) (k : Nat) : (s.withReports x).ctx k = s.ctx k := rfl
@[simp] theorem State.cmp_withReports (x : List Report) (k : Nat) : (s.withReports x).cmp k = s.cmp k := rfl
@[simp] theorem State.queue_withReports (x : List Report) (k : Nat) : (s.withReports x).queue k = s.queue k := rfl
@[simp] theorem State.page_withReports (x : List Report) (k : Nat) : (s.withReports x).page k = s.page k := rfl
@[simp] theorem State.unit_withReports (x : List Report) (k : Nat) : (s.withReports x).unit k = s.unit k := rfl
@[simp] theorem State.dom_withReports (x : List Report) (k : Nat) : (s.withReports x).dom k = s.dom k := rfl
@[simp] theorem State.gs_withReports (x : List Report) (k : Nat) : (s.withReports x).gs k = s.gs k := rfl
@[simp] theorem State.rd_withReports (x : List Report) (k : Nat) : (s.withReports x).rd k = s.rd k := rfl
@[simp] theorem State.memByte_withReports (x : List Report) (k : Nat) : (s.withReports x).memByte k = s.memByte k := rfl
@[simp] theorem State.lpByte_withReports (x : List Report) (k : Nat) : (s.withReports x).lpByte k = s.lpByte k := rfl

@[simp] theorem State.withInvAll_pending (x : Nat) : (s.withInvAll x).pending = s.pending := rfl
@[simp] theorem State.withInvAll_free (x : Nat) : (s.withInvAll x).free = s.free := rfl
@[simp] theorem State.withInvAll_perst (x : Nat) : (s.withInvAll x).perst = s.perst := rfl
@[simp] theorem State.withInvAll_powered (x : Nat) : (s.withInvAll x).powered = s.powered := rfl
@[simp] theorem State.withInvAll_railOk (x : Nat) : (s.withInvAll x).railOk = s.railOk := rfl
@[simp] theorem State.withInvAll_regs (x : Nat) : (s.withInvAll x).regs = s.regs := rfl
@[simp] theorem State.withInvAll_pages (x : Nat) : (s.withInvAll x).pages = s.pages := rfl
@[simp] theorem State.withInvAll_queues (x : Nat) : (s.withInvAll x).queues = s.queues := rfl
@[simp] theorem State.withInvAll_host (x : Nat) : (s.withInvAll x).host = s.host := rfl
@[simp] theorem State.withInvAll_mem (x : Nat) : (s.withInvAll x).mem = s.mem := rfl
@[simp] theorem State.withInvAll_parBad (x : Nat) : (s.withInvAll x).parBad = s.parBad := rfl
@[simp] theorem State.withInvAll_lpmem (x : Nat) : (s.withInvAll x).lpmem = s.lpmem := rfl
@[simp] theorem State.withInvAll_lpBad (x : Nat) : (s.withInvAll x).lpBad = s.lpBad := rfl
@[simp] theorem State.withInvAll_arrays (x : Nat) : (s.withInvAll x).arrays = s.arrays := rfl
@[simp] theorem State.withInvAll_tiles (x : Nat) : (s.withInvAll x).tiles = s.tiles := rfl
@[simp] theorem State.withInvAll_clus (x : Nat) : (s.withInvAll x).clus = s.clus := rfl
@[simp] theorem State.withInvAll_ctxs (x : Nat) : (s.withInvAll x).ctxs = s.ctxs := rfl
@[simp] theorem State.withInvAll_cmps (x : Nat) : (s.withInvAll x).cmps = s.cmps := rfl
@[simp] theorem State.withInvAll_ops (x : Nat) : (s.withInvAll x).ops = s.ops := rfl
@[simp] theorem State.withInvAll_nextOp (x : Nat) : (s.withInvAll x).nextOp = s.nextOp := rfl
@[simp] theorem State.withInvAll_gsem (x : Nat) : (s.withInvAll x).gsem = s.gsem := rfl
@[simp] theorem State.withInvAll_units (x : Nat) : (s.withInvAll x).units = s.units := rfl
@[simp] theorem State.withInvAll_reports (x : Nat) : (s.withInvAll x).reports = s.reports := rfl
@[simp] theorem State.withInvAll_events (x : Nat) : (s.withInvAll x).events = s.events := rfl
@[simp] theorem State.withInvAll_epochCtr (x : Nat) : (s.withInvAll x).epochCtr = s.epochCtr := rfl
@[simp] theorem State.withInvAll_jobs (x : Nat) : (s.withInvAll x).jobs = s.jobs := rfl
@[simp] theorem State.withInvAll_carriers (x : Nat) : (s.withInvAll x).carriers = s.carriers := rfl
@[simp] theorem State.withInvAll_fhp (x : Nat) : (s.withInvAll x).fhp = s.fhp := rfl
@[simp] theorem State.withInvAll_col (x : Nat) : (s.withInvAll x).col = s.col := rfl
@[simp] theorem State.withInvAll_hld (x : Nat) : (s.withInvAll x).hld = s.hld := rfl
@[simp] theorem State.withInvAll_hkc (x : Nat) : (s.withInvAll x).hkc = s.hkc := rfl
@[simp] theorem State.withInvAll_thm (x : Nat) : (s.withInvAll x).thm = s.thm := rfl
@[simp] theorem State.withInvAll_doms (x : Nat) : (s.withInvAll x).doms = s.doms := rfl
@[simp] theorem State.withInvAll_xng (x : Nat) : (s.withInvAll x).xng = s.xng := rfl
@[simp] theorem State.withInvAll_qfreq (x : Nat) : (s.withInvAll x).qfreq = s.qfreq := rfl
@[simp] theorem State.withInvAll_lpx (x : Nat) : (s.withInvAll x).lpx = s.lpx := rfl
@[simp] theorem State.withInvAll_dsy (x : Nat) : (s.withInvAll x).dsy = s.dsy := rfl
@[simp] theorem State.withInvAll_chain (x : Nat) : (s.withInvAll x).chain = s.chain := rfl
@[simp] theorem State.withInvAll_cfg (x : Nat) : (s.withInvAll x).cfg = s.cfg := rfl
@[simp] theorem State.withInvAll_sec (x : Nat) : (s.withInvAll x).sec = s.sec := rfl
@[simp] theorem State.withInvAll_tap (x : Nat) : (s.withInvAll x).tap = s.tap := rfl
@[simp] theorem State.arr_withInvAll (x : Nat) (k : Nat) : (s.withInvAll x).arr k = s.arr k := rfl
@[simp] theorem State.tile_withInvAll (x : Nat) (k : Nat) : (s.withInvAll x).tile k = s.tile k := rfl
@[simp] theorem State.clu_withInvAll (x : Nat) (k : Nat) : (s.withInvAll x).clu k = s.clu k := rfl
@[simp] theorem State.ctx_withInvAll (x : Nat) (k : Nat) : (s.withInvAll x).ctx k = s.ctx k := rfl
@[simp] theorem State.cmp_withInvAll (x : Nat) (k : Nat) : (s.withInvAll x).cmp k = s.cmp k := rfl
@[simp] theorem State.queue_withInvAll (x : Nat) (k : Nat) : (s.withInvAll x).queue k = s.queue k := rfl
@[simp] theorem State.page_withInvAll (x : Nat) (k : Nat) : (s.withInvAll x).page k = s.page k := rfl
@[simp] theorem State.unit_withInvAll (x : Nat) (k : Nat) : (s.withInvAll x).unit k = s.unit k := rfl
@[simp] theorem State.dom_withInvAll (x : Nat) (k : Nat) : (s.withInvAll x).dom k = s.dom k := rfl
@[simp] theorem State.gs_withInvAll (x : Nat) (k : Nat) : (s.withInvAll x).gs k = s.gs k := rfl
@[simp] theorem State.rd_withInvAll (x : Nat) (k : Nat) : (s.withInvAll x).rd k = s.rd k := rfl
@[simp] theorem State.memByte_withInvAll (x : Nat) (k : Nat) : (s.withInvAll x).memByte k = s.memByte k := rfl
@[simp] theorem State.lpByte_withInvAll (x : Nat) (k : Nat) : (s.withInvAll x).lpByte k = s.lpByte k := rfl

@[simp] theorem State.withEpochCtr_pending (x : Nat) : (s.withEpochCtr x).pending = s.pending := rfl
@[simp] theorem State.withEpochCtr_free (x : Nat) : (s.withEpochCtr x).free = s.free := rfl
@[simp] theorem State.withEpochCtr_perst (x : Nat) : (s.withEpochCtr x).perst = s.perst := rfl
@[simp] theorem State.withEpochCtr_powered (x : Nat) : (s.withEpochCtr x).powered = s.powered := rfl
@[simp] theorem State.withEpochCtr_railOk (x : Nat) : (s.withEpochCtr x).railOk = s.railOk := rfl
@[simp] theorem State.withEpochCtr_regs (x : Nat) : (s.withEpochCtr x).regs = s.regs := rfl
@[simp] theorem State.withEpochCtr_pages (x : Nat) : (s.withEpochCtr x).pages = s.pages := rfl
@[simp] theorem State.withEpochCtr_queues (x : Nat) : (s.withEpochCtr x).queues = s.queues := rfl
@[simp] theorem State.withEpochCtr_host (x : Nat) : (s.withEpochCtr x).host = s.host := rfl
@[simp] theorem State.withEpochCtr_mem (x : Nat) : (s.withEpochCtr x).mem = s.mem := rfl
@[simp] theorem State.withEpochCtr_parBad (x : Nat) : (s.withEpochCtr x).parBad = s.parBad := rfl
@[simp] theorem State.withEpochCtr_lpmem (x : Nat) : (s.withEpochCtr x).lpmem = s.lpmem := rfl
@[simp] theorem State.withEpochCtr_lpBad (x : Nat) : (s.withEpochCtr x).lpBad = s.lpBad := rfl
@[simp] theorem State.withEpochCtr_arrays (x : Nat) : (s.withEpochCtr x).arrays = s.arrays := rfl
@[simp] theorem State.withEpochCtr_tiles (x : Nat) : (s.withEpochCtr x).tiles = s.tiles := rfl
@[simp] theorem State.withEpochCtr_clus (x : Nat) : (s.withEpochCtr x).clus = s.clus := rfl
@[simp] theorem State.withEpochCtr_ctxs (x : Nat) : (s.withEpochCtr x).ctxs = s.ctxs := rfl
@[simp] theorem State.withEpochCtr_cmps (x : Nat) : (s.withEpochCtr x).cmps = s.cmps := rfl
@[simp] theorem State.withEpochCtr_ops (x : Nat) : (s.withEpochCtr x).ops = s.ops := rfl
@[simp] theorem State.withEpochCtr_nextOp (x : Nat) : (s.withEpochCtr x).nextOp = s.nextOp := rfl
@[simp] theorem State.withEpochCtr_gsem (x : Nat) : (s.withEpochCtr x).gsem = s.gsem := rfl
@[simp] theorem State.withEpochCtr_units (x : Nat) : (s.withEpochCtr x).units = s.units := rfl
@[simp] theorem State.withEpochCtr_reports (x : Nat) : (s.withEpochCtr x).reports = s.reports := rfl
@[simp] theorem State.withEpochCtr_events (x : Nat) : (s.withEpochCtr x).events = s.events := rfl
@[simp] theorem State.withEpochCtr_invAll (x : Nat) : (s.withEpochCtr x).invAll = s.invAll := rfl
@[simp] theorem State.withEpochCtr_jobs (x : Nat) : (s.withEpochCtr x).jobs = s.jobs := rfl
@[simp] theorem State.withEpochCtr_carriers (x : Nat) : (s.withEpochCtr x).carriers = s.carriers := rfl
@[simp] theorem State.withEpochCtr_fhp (x : Nat) : (s.withEpochCtr x).fhp = s.fhp := rfl
@[simp] theorem State.withEpochCtr_col (x : Nat) : (s.withEpochCtr x).col = s.col := rfl
@[simp] theorem State.withEpochCtr_hld (x : Nat) : (s.withEpochCtr x).hld = s.hld := rfl
@[simp] theorem State.withEpochCtr_hkc (x : Nat) : (s.withEpochCtr x).hkc = s.hkc := rfl
@[simp] theorem State.withEpochCtr_thm (x : Nat) : (s.withEpochCtr x).thm = s.thm := rfl
@[simp] theorem State.withEpochCtr_doms (x : Nat) : (s.withEpochCtr x).doms = s.doms := rfl
@[simp] theorem State.withEpochCtr_xng (x : Nat) : (s.withEpochCtr x).xng = s.xng := rfl
@[simp] theorem State.withEpochCtr_qfreq (x : Nat) : (s.withEpochCtr x).qfreq = s.qfreq := rfl
@[simp] theorem State.withEpochCtr_lpx (x : Nat) : (s.withEpochCtr x).lpx = s.lpx := rfl
@[simp] theorem State.withEpochCtr_dsy (x : Nat) : (s.withEpochCtr x).dsy = s.dsy := rfl
@[simp] theorem State.withEpochCtr_chain (x : Nat) : (s.withEpochCtr x).chain = s.chain := rfl
@[simp] theorem State.withEpochCtr_cfg (x : Nat) : (s.withEpochCtr x).cfg = s.cfg := rfl
@[simp] theorem State.withEpochCtr_sec (x : Nat) : (s.withEpochCtr x).sec = s.sec := rfl
@[simp] theorem State.withEpochCtr_tap (x : Nat) : (s.withEpochCtr x).tap = s.tap := rfl
@[simp] theorem State.arr_withEpochCtr (x : Nat) (k : Nat) : (s.withEpochCtr x).arr k = s.arr k := rfl
@[simp] theorem State.tile_withEpochCtr (x : Nat) (k : Nat) : (s.withEpochCtr x).tile k = s.tile k := rfl
@[simp] theorem State.clu_withEpochCtr (x : Nat) (k : Nat) : (s.withEpochCtr x).clu k = s.clu k := rfl
@[simp] theorem State.ctx_withEpochCtr (x : Nat) (k : Nat) : (s.withEpochCtr x).ctx k = s.ctx k := rfl
@[simp] theorem State.cmp_withEpochCtr (x : Nat) (k : Nat) : (s.withEpochCtr x).cmp k = s.cmp k := rfl
@[simp] theorem State.queue_withEpochCtr (x : Nat) (k : Nat) : (s.withEpochCtr x).queue k = s.queue k := rfl
@[simp] theorem State.page_withEpochCtr (x : Nat) (k : Nat) : (s.withEpochCtr x).page k = s.page k := rfl
@[simp] theorem State.unit_withEpochCtr (x : Nat) (k : Nat) : (s.withEpochCtr x).unit k = s.unit k := rfl
@[simp] theorem State.dom_withEpochCtr (x : Nat) (k : Nat) : (s.withEpochCtr x).dom k = s.dom k := rfl
@[simp] theorem State.gs_withEpochCtr (x : Nat) (k : Nat) : (s.withEpochCtr x).gs k = s.gs k := rfl
@[simp] theorem State.rd_withEpochCtr (x : Nat) (k : Nat) : (s.withEpochCtr x).rd k = s.rd k := rfl
@[simp] theorem State.memByte_withEpochCtr (x : Nat) (k : Nat) : (s.withEpochCtr x).memByte k = s.memByte k := rfl
@[simp] theorem State.lpByte_withEpochCtr (x : Nat) (k : Nat) : (s.withEpochCtr x).lpByte k = s.lpByte k := rfl

@[simp] theorem State.withJobs_pending (x : List Job) : (s.withJobs x).pending = s.pending := rfl
@[simp] theorem State.withJobs_free (x : List Job) : (s.withJobs x).free = s.free := rfl
@[simp] theorem State.withJobs_perst (x : List Job) : (s.withJobs x).perst = s.perst := rfl
@[simp] theorem State.withJobs_powered (x : List Job) : (s.withJobs x).powered = s.powered := rfl
@[simp] theorem State.withJobs_railOk (x : List Job) : (s.withJobs x).railOk = s.railOk := rfl
@[simp] theorem State.withJobs_regs (x : List Job) : (s.withJobs x).regs = s.regs := rfl
@[simp] theorem State.withJobs_pages (x : List Job) : (s.withJobs x).pages = s.pages := rfl
@[simp] theorem State.withJobs_queues (x : List Job) : (s.withJobs x).queues = s.queues := rfl
@[simp] theorem State.withJobs_host (x : List Job) : (s.withJobs x).host = s.host := rfl
@[simp] theorem State.withJobs_mem (x : List Job) : (s.withJobs x).mem = s.mem := rfl
@[simp] theorem State.withJobs_parBad (x : List Job) : (s.withJobs x).parBad = s.parBad := rfl
@[simp] theorem State.withJobs_lpmem (x : List Job) : (s.withJobs x).lpmem = s.lpmem := rfl
@[simp] theorem State.withJobs_lpBad (x : List Job) : (s.withJobs x).lpBad = s.lpBad := rfl
@[simp] theorem State.withJobs_arrays (x : List Job) : (s.withJobs x).arrays = s.arrays := rfl
@[simp] theorem State.withJobs_tiles (x : List Job) : (s.withJobs x).tiles = s.tiles := rfl
@[simp] theorem State.withJobs_clus (x : List Job) : (s.withJobs x).clus = s.clus := rfl
@[simp] theorem State.withJobs_ctxs (x : List Job) : (s.withJobs x).ctxs = s.ctxs := rfl
@[simp] theorem State.withJobs_cmps (x : List Job) : (s.withJobs x).cmps = s.cmps := rfl
@[simp] theorem State.withJobs_ops (x : List Job) : (s.withJobs x).ops = s.ops := rfl
@[simp] theorem State.withJobs_nextOp (x : List Job) : (s.withJobs x).nextOp = s.nextOp := rfl
@[simp] theorem State.withJobs_gsem (x : List Job) : (s.withJobs x).gsem = s.gsem := rfl
@[simp] theorem State.withJobs_units (x : List Job) : (s.withJobs x).units = s.units := rfl
@[simp] theorem State.withJobs_reports (x : List Job) : (s.withJobs x).reports = s.reports := rfl
@[simp] theorem State.withJobs_events (x : List Job) : (s.withJobs x).events = s.events := rfl
@[simp] theorem State.withJobs_invAll (x : List Job) : (s.withJobs x).invAll = s.invAll := rfl
@[simp] theorem State.withJobs_epochCtr (x : List Job) : (s.withJobs x).epochCtr = s.epochCtr := rfl
@[simp] theorem State.withJobs_carriers (x : List Job) : (s.withJobs x).carriers = s.carriers := rfl
@[simp] theorem State.withJobs_fhp (x : List Job) : (s.withJobs x).fhp = s.fhp := rfl
@[simp] theorem State.withJobs_col (x : List Job) : (s.withJobs x).col = s.col := rfl
@[simp] theorem State.withJobs_hld (x : List Job) : (s.withJobs x).hld = s.hld := rfl
@[simp] theorem State.withJobs_hkc (x : List Job) : (s.withJobs x).hkc = s.hkc := rfl
@[simp] theorem State.withJobs_thm (x : List Job) : (s.withJobs x).thm = s.thm := rfl
@[simp] theorem State.withJobs_doms (x : List Job) : (s.withJobs x).doms = s.doms := rfl
@[simp] theorem State.withJobs_xng (x : List Job) : (s.withJobs x).xng = s.xng := rfl
@[simp] theorem State.withJobs_qfreq (x : List Job) : (s.withJobs x).qfreq = s.qfreq := rfl
@[simp] theorem State.withJobs_lpx (x : List Job) : (s.withJobs x).lpx = s.lpx := rfl
@[simp] theorem State.withJobs_dsy (x : List Job) : (s.withJobs x).dsy = s.dsy := rfl
@[simp] theorem State.withJobs_chain (x : List Job) : (s.withJobs x).chain = s.chain := rfl
@[simp] theorem State.withJobs_cfg (x : List Job) : (s.withJobs x).cfg = s.cfg := rfl
@[simp] theorem State.withJobs_sec (x : List Job) : (s.withJobs x).sec = s.sec := rfl
@[simp] theorem State.withJobs_tap (x : List Job) : (s.withJobs x).tap = s.tap := rfl
@[simp] theorem State.arr_withJobs (x : List Job) (k : Nat) : (s.withJobs x).arr k = s.arr k := rfl
@[simp] theorem State.tile_withJobs (x : List Job) (k : Nat) : (s.withJobs x).tile k = s.tile k := rfl
@[simp] theorem State.clu_withJobs (x : List Job) (k : Nat) : (s.withJobs x).clu k = s.clu k := rfl
@[simp] theorem State.ctx_withJobs (x : List Job) (k : Nat) : (s.withJobs x).ctx k = s.ctx k := rfl
@[simp] theorem State.cmp_withJobs (x : List Job) (k : Nat) : (s.withJobs x).cmp k = s.cmp k := rfl
@[simp] theorem State.queue_withJobs (x : List Job) (k : Nat) : (s.withJobs x).queue k = s.queue k := rfl
@[simp] theorem State.page_withJobs (x : List Job) (k : Nat) : (s.withJobs x).page k = s.page k := rfl
@[simp] theorem State.unit_withJobs (x : List Job) (k : Nat) : (s.withJobs x).unit k = s.unit k := rfl
@[simp] theorem State.dom_withJobs (x : List Job) (k : Nat) : (s.withJobs x).dom k = s.dom k := rfl
@[simp] theorem State.gs_withJobs (x : List Job) (k : Nat) : (s.withJobs x).gs k = s.gs k := rfl
@[simp] theorem State.rd_withJobs (x : List Job) (k : Nat) : (s.withJobs x).rd k = s.rd k := rfl
@[simp] theorem State.memByte_withJobs (x : List Job) (k : Nat) : (s.withJobs x).memByte k = s.memByte k := rfl
@[simp] theorem State.lpByte_withJobs (x : List Job) (k : Nat) : (s.withJobs x).lpByte k = s.lpByte k := rfl

@[simp] theorem State.withCarriers_pending (x : FMap Carrier) : (s.withCarriers x).pending = s.pending := rfl
@[simp] theorem State.withCarriers_free (x : FMap Carrier) : (s.withCarriers x).free = s.free := rfl
@[simp] theorem State.withCarriers_perst (x : FMap Carrier) : (s.withCarriers x).perst = s.perst := rfl
@[simp] theorem State.withCarriers_powered (x : FMap Carrier) : (s.withCarriers x).powered = s.powered := rfl
@[simp] theorem State.withCarriers_railOk (x : FMap Carrier) : (s.withCarriers x).railOk = s.railOk := rfl
@[simp] theorem State.withCarriers_regs (x : FMap Carrier) : (s.withCarriers x).regs = s.regs := rfl
@[simp] theorem State.withCarriers_pages (x : FMap Carrier) : (s.withCarriers x).pages = s.pages := rfl
@[simp] theorem State.withCarriers_queues (x : FMap Carrier) : (s.withCarriers x).queues = s.queues := rfl
@[simp] theorem State.withCarriers_host (x : FMap Carrier) : (s.withCarriers x).host = s.host := rfl
@[simp] theorem State.withCarriers_mem (x : FMap Carrier) : (s.withCarriers x).mem = s.mem := rfl
@[simp] theorem State.withCarriers_parBad (x : FMap Carrier) : (s.withCarriers x).parBad = s.parBad := rfl
@[simp] theorem State.withCarriers_lpmem (x : FMap Carrier) : (s.withCarriers x).lpmem = s.lpmem := rfl
@[simp] theorem State.withCarriers_lpBad (x : FMap Carrier) : (s.withCarriers x).lpBad = s.lpBad := rfl
@[simp] theorem State.withCarriers_arrays (x : FMap Carrier) : (s.withCarriers x).arrays = s.arrays := rfl
@[simp] theorem State.withCarriers_tiles (x : FMap Carrier) : (s.withCarriers x).tiles = s.tiles := rfl
@[simp] theorem State.withCarriers_clus (x : FMap Carrier) : (s.withCarriers x).clus = s.clus := rfl
@[simp] theorem State.withCarriers_ctxs (x : FMap Carrier) : (s.withCarriers x).ctxs = s.ctxs := rfl
@[simp] theorem State.withCarriers_cmps (x : FMap Carrier) : (s.withCarriers x).cmps = s.cmps := rfl
@[simp] theorem State.withCarriers_ops (x : FMap Carrier) : (s.withCarriers x).ops = s.ops := rfl
@[simp] theorem State.withCarriers_nextOp (x : FMap Carrier) : (s.withCarriers x).nextOp = s.nextOp := rfl
@[simp] theorem State.withCarriers_gsem (x : FMap Carrier) : (s.withCarriers x).gsem = s.gsem := rfl
@[simp] theorem State.withCarriers_units (x : FMap Carrier) : (s.withCarriers x).units = s.units := rfl
@[simp] theorem State.withCarriers_reports (x : FMap Carrier) : (s.withCarriers x).reports = s.reports := rfl
@[simp] theorem State.withCarriers_events (x : FMap Carrier) : (s.withCarriers x).events = s.events := rfl
@[simp] theorem State.withCarriers_invAll (x : FMap Carrier) : (s.withCarriers x).invAll = s.invAll := rfl
@[simp] theorem State.withCarriers_epochCtr (x : FMap Carrier) : (s.withCarriers x).epochCtr = s.epochCtr := rfl
@[simp] theorem State.withCarriers_jobs (x : FMap Carrier) : (s.withCarriers x).jobs = s.jobs := rfl
@[simp] theorem State.withCarriers_fhp (x : FMap Carrier) : (s.withCarriers x).fhp = s.fhp := rfl
@[simp] theorem State.withCarriers_col (x : FMap Carrier) : (s.withCarriers x).col = s.col := rfl
@[simp] theorem State.withCarriers_hld (x : FMap Carrier) : (s.withCarriers x).hld = s.hld := rfl
@[simp] theorem State.withCarriers_hkc (x : FMap Carrier) : (s.withCarriers x).hkc = s.hkc := rfl
@[simp] theorem State.withCarriers_thm (x : FMap Carrier) : (s.withCarriers x).thm = s.thm := rfl
@[simp] theorem State.withCarriers_doms (x : FMap Carrier) : (s.withCarriers x).doms = s.doms := rfl
@[simp] theorem State.withCarriers_xng (x : FMap Carrier) : (s.withCarriers x).xng = s.xng := rfl
@[simp] theorem State.withCarriers_qfreq (x : FMap Carrier) : (s.withCarriers x).qfreq = s.qfreq := rfl
@[simp] theorem State.withCarriers_lpx (x : FMap Carrier) : (s.withCarriers x).lpx = s.lpx := rfl
@[simp] theorem State.withCarriers_dsy (x : FMap Carrier) : (s.withCarriers x).dsy = s.dsy := rfl
@[simp] theorem State.withCarriers_chain (x : FMap Carrier) : (s.withCarriers x).chain = s.chain := rfl
@[simp] theorem State.withCarriers_cfg (x : FMap Carrier) : (s.withCarriers x).cfg = s.cfg := rfl
@[simp] theorem State.withCarriers_sec (x : FMap Carrier) : (s.withCarriers x).sec = s.sec := rfl
@[simp] theorem State.withCarriers_tap (x : FMap Carrier) : (s.withCarriers x).tap = s.tap := rfl
@[simp] theorem State.arr_withCarriers (x : FMap Carrier) (k : Nat) : (s.withCarriers x).arr k = s.arr k := rfl
@[simp] theorem State.tile_withCarriers (x : FMap Carrier) (k : Nat) : (s.withCarriers x).tile k = s.tile k := rfl
@[simp] theorem State.clu_withCarriers (x : FMap Carrier) (k : Nat) : (s.withCarriers x).clu k = s.clu k := rfl
@[simp] theorem State.ctx_withCarriers (x : FMap Carrier) (k : Nat) : (s.withCarriers x).ctx k = s.ctx k := rfl
@[simp] theorem State.cmp_withCarriers (x : FMap Carrier) (k : Nat) : (s.withCarriers x).cmp k = s.cmp k := rfl
@[simp] theorem State.queue_withCarriers (x : FMap Carrier) (k : Nat) : (s.withCarriers x).queue k = s.queue k := rfl
@[simp] theorem State.page_withCarriers (x : FMap Carrier) (k : Nat) : (s.withCarriers x).page k = s.page k := rfl
@[simp] theorem State.unit_withCarriers (x : FMap Carrier) (k : Nat) : (s.withCarriers x).unit k = s.unit k := rfl
@[simp] theorem State.dom_withCarriers (x : FMap Carrier) (k : Nat) : (s.withCarriers x).dom k = s.dom k := rfl
@[simp] theorem State.gs_withCarriers (x : FMap Carrier) (k : Nat) : (s.withCarriers x).gs k = s.gs k := rfl
@[simp] theorem State.rd_withCarriers (x : FMap Carrier) (k : Nat) : (s.withCarriers x).rd k = s.rd k := rfl
@[simp] theorem State.memByte_withCarriers (x : FMap Carrier) (k : Nat) : (s.withCarriers x).memByte k = s.memByte k := rfl
@[simp] theorem State.lpByte_withCarriers (x : FMap Carrier) (k : Nat) : (s.withCarriers x).lpByte k = s.lpByte k := rfl

@[simp] theorem State.withFhp_pending (x : FMap Fhp) : (s.withFhp x).pending = s.pending := rfl
@[simp] theorem State.withFhp_free (x : FMap Fhp) : (s.withFhp x).free = s.free := rfl
@[simp] theorem State.withFhp_perst (x : FMap Fhp) : (s.withFhp x).perst = s.perst := rfl
@[simp] theorem State.withFhp_powered (x : FMap Fhp) : (s.withFhp x).powered = s.powered := rfl
@[simp] theorem State.withFhp_railOk (x : FMap Fhp) : (s.withFhp x).railOk = s.railOk := rfl
@[simp] theorem State.withFhp_regs (x : FMap Fhp) : (s.withFhp x).regs = s.regs := rfl
@[simp] theorem State.withFhp_pages (x : FMap Fhp) : (s.withFhp x).pages = s.pages := rfl
@[simp] theorem State.withFhp_queues (x : FMap Fhp) : (s.withFhp x).queues = s.queues := rfl
@[simp] theorem State.withFhp_host (x : FMap Fhp) : (s.withFhp x).host = s.host := rfl
@[simp] theorem State.withFhp_mem (x : FMap Fhp) : (s.withFhp x).mem = s.mem := rfl
@[simp] theorem State.withFhp_parBad (x : FMap Fhp) : (s.withFhp x).parBad = s.parBad := rfl
@[simp] theorem State.withFhp_lpmem (x : FMap Fhp) : (s.withFhp x).lpmem = s.lpmem := rfl
@[simp] theorem State.withFhp_lpBad (x : FMap Fhp) : (s.withFhp x).lpBad = s.lpBad := rfl
@[simp] theorem State.withFhp_arrays (x : FMap Fhp) : (s.withFhp x).arrays = s.arrays := rfl
@[simp] theorem State.withFhp_tiles (x : FMap Fhp) : (s.withFhp x).tiles = s.tiles := rfl
@[simp] theorem State.withFhp_clus (x : FMap Fhp) : (s.withFhp x).clus = s.clus := rfl
@[simp] theorem State.withFhp_ctxs (x : FMap Fhp) : (s.withFhp x).ctxs = s.ctxs := rfl
@[simp] theorem State.withFhp_cmps (x : FMap Fhp) : (s.withFhp x).cmps = s.cmps := rfl
@[simp] theorem State.withFhp_ops (x : FMap Fhp) : (s.withFhp x).ops = s.ops := rfl
@[simp] theorem State.withFhp_nextOp (x : FMap Fhp) : (s.withFhp x).nextOp = s.nextOp := rfl
@[simp] theorem State.withFhp_gsem (x : FMap Fhp) : (s.withFhp x).gsem = s.gsem := rfl
@[simp] theorem State.withFhp_units (x : FMap Fhp) : (s.withFhp x).units = s.units := rfl
@[simp] theorem State.withFhp_reports (x : FMap Fhp) : (s.withFhp x).reports = s.reports := rfl
@[simp] theorem State.withFhp_events (x : FMap Fhp) : (s.withFhp x).events = s.events := rfl
@[simp] theorem State.withFhp_invAll (x : FMap Fhp) : (s.withFhp x).invAll = s.invAll := rfl
@[simp] theorem State.withFhp_epochCtr (x : FMap Fhp) : (s.withFhp x).epochCtr = s.epochCtr := rfl
@[simp] theorem State.withFhp_jobs (x : FMap Fhp) : (s.withFhp x).jobs = s.jobs := rfl
@[simp] theorem State.withFhp_carriers (x : FMap Fhp) : (s.withFhp x).carriers = s.carriers := rfl
@[simp] theorem State.withFhp_col (x : FMap Fhp) : (s.withFhp x).col = s.col := rfl
@[simp] theorem State.withFhp_hld (x : FMap Fhp) : (s.withFhp x).hld = s.hld := rfl
@[simp] theorem State.withFhp_hkc (x : FMap Fhp) : (s.withFhp x).hkc = s.hkc := rfl
@[simp] theorem State.withFhp_thm (x : FMap Fhp) : (s.withFhp x).thm = s.thm := rfl
@[simp] theorem State.withFhp_doms (x : FMap Fhp) : (s.withFhp x).doms = s.doms := rfl
@[simp] theorem State.withFhp_xng (x : FMap Fhp) : (s.withFhp x).xng = s.xng := rfl
@[simp] theorem State.withFhp_qfreq (x : FMap Fhp) : (s.withFhp x).qfreq = s.qfreq := rfl
@[simp] theorem State.withFhp_lpx (x : FMap Fhp) : (s.withFhp x).lpx = s.lpx := rfl
@[simp] theorem State.withFhp_dsy (x : FMap Fhp) : (s.withFhp x).dsy = s.dsy := rfl
@[simp] theorem State.withFhp_chain (x : FMap Fhp) : (s.withFhp x).chain = s.chain := rfl
@[simp] theorem State.withFhp_cfg (x : FMap Fhp) : (s.withFhp x).cfg = s.cfg := rfl
@[simp] theorem State.withFhp_sec (x : FMap Fhp) : (s.withFhp x).sec = s.sec := rfl
@[simp] theorem State.withFhp_tap (x : FMap Fhp) : (s.withFhp x).tap = s.tap := rfl
@[simp] theorem State.arr_withFhp (x : FMap Fhp) (k : Nat) : (s.withFhp x).arr k = s.arr k := rfl
@[simp] theorem State.tile_withFhp (x : FMap Fhp) (k : Nat) : (s.withFhp x).tile k = s.tile k := rfl
@[simp] theorem State.clu_withFhp (x : FMap Fhp) (k : Nat) : (s.withFhp x).clu k = s.clu k := rfl
@[simp] theorem State.ctx_withFhp (x : FMap Fhp) (k : Nat) : (s.withFhp x).ctx k = s.ctx k := rfl
@[simp] theorem State.cmp_withFhp (x : FMap Fhp) (k : Nat) : (s.withFhp x).cmp k = s.cmp k := rfl
@[simp] theorem State.queue_withFhp (x : FMap Fhp) (k : Nat) : (s.withFhp x).queue k = s.queue k := rfl
@[simp] theorem State.page_withFhp (x : FMap Fhp) (k : Nat) : (s.withFhp x).page k = s.page k := rfl
@[simp] theorem State.unit_withFhp (x : FMap Fhp) (k : Nat) : (s.withFhp x).unit k = s.unit k := rfl
@[simp] theorem State.dom_withFhp (x : FMap Fhp) (k : Nat) : (s.withFhp x).dom k = s.dom k := rfl
@[simp] theorem State.gs_withFhp (x : FMap Fhp) (k : Nat) : (s.withFhp x).gs k = s.gs k := rfl
@[simp] theorem State.rd_withFhp (x : FMap Fhp) (k : Nat) : (s.withFhp x).rd k = s.rd k := rfl
@[simp] theorem State.memByte_withFhp (x : FMap Fhp) (k : Nat) : (s.withFhp x).memByte k = s.memByte k := rfl
@[simp] theorem State.lpByte_withFhp (x : FMap Fhp) (k : Nat) : (s.withFhp x).lpByte k = s.lpByte k := rfl

@[simp] theorem State.withCol_pending (x : ColSt) : (s.withCol x).pending = s.pending := rfl
@[simp] theorem State.withCol_free (x : ColSt) : (s.withCol x).free = s.free := rfl
@[simp] theorem State.withCol_perst (x : ColSt) : (s.withCol x).perst = s.perst := rfl
@[simp] theorem State.withCol_powered (x : ColSt) : (s.withCol x).powered = s.powered := rfl
@[simp] theorem State.withCol_railOk (x : ColSt) : (s.withCol x).railOk = s.railOk := rfl
@[simp] theorem State.withCol_regs (x : ColSt) : (s.withCol x).regs = s.regs := rfl
@[simp] theorem State.withCol_pages (x : ColSt) : (s.withCol x).pages = s.pages := rfl
@[simp] theorem State.withCol_queues (x : ColSt) : (s.withCol x).queues = s.queues := rfl
@[simp] theorem State.withCol_host (x : ColSt) : (s.withCol x).host = s.host := rfl
@[simp] theorem State.withCol_mem (x : ColSt) : (s.withCol x).mem = s.mem := rfl
@[simp] theorem State.withCol_parBad (x : ColSt) : (s.withCol x).parBad = s.parBad := rfl
@[simp] theorem State.withCol_lpmem (x : ColSt) : (s.withCol x).lpmem = s.lpmem := rfl
@[simp] theorem State.withCol_lpBad (x : ColSt) : (s.withCol x).lpBad = s.lpBad := rfl
@[simp] theorem State.withCol_arrays (x : ColSt) : (s.withCol x).arrays = s.arrays := rfl
@[simp] theorem State.withCol_tiles (x : ColSt) : (s.withCol x).tiles = s.tiles := rfl
@[simp] theorem State.withCol_clus (x : ColSt) : (s.withCol x).clus = s.clus := rfl
@[simp] theorem State.withCol_ctxs (x : ColSt) : (s.withCol x).ctxs = s.ctxs := rfl
@[simp] theorem State.withCol_cmps (x : ColSt) : (s.withCol x).cmps = s.cmps := rfl
@[simp] theorem State.withCol_ops (x : ColSt) : (s.withCol x).ops = s.ops := rfl
@[simp] theorem State.withCol_nextOp (x : ColSt) : (s.withCol x).nextOp = s.nextOp := rfl
@[simp] theorem State.withCol_gsem (x : ColSt) : (s.withCol x).gsem = s.gsem := rfl
@[simp] theorem State.withCol_units (x : ColSt) : (s.withCol x).units = s.units := rfl
@[simp] theorem State.withCol_reports (x : ColSt) : (s.withCol x).reports = s.reports := rfl
@[simp] theorem State.withCol_events (x : ColSt) : (s.withCol x).events = s.events := rfl
@[simp] theorem State.withCol_invAll (x : ColSt) : (s.withCol x).invAll = s.invAll := rfl
@[simp] theorem State.withCol_epochCtr (x : ColSt) : (s.withCol x).epochCtr = s.epochCtr := rfl
@[simp] theorem State.withCol_jobs (x : ColSt) : (s.withCol x).jobs = s.jobs := rfl
@[simp] theorem State.withCol_carriers (x : ColSt) : (s.withCol x).carriers = s.carriers := rfl
@[simp] theorem State.withCol_fhp (x : ColSt) : (s.withCol x).fhp = s.fhp := rfl
@[simp] theorem State.withCol_hld (x : ColSt) : (s.withCol x).hld = s.hld := rfl
@[simp] theorem State.withCol_hkc (x : ColSt) : (s.withCol x).hkc = s.hkc := rfl
@[simp] theorem State.withCol_thm (x : ColSt) : (s.withCol x).thm = s.thm := rfl
@[simp] theorem State.withCol_doms (x : ColSt) : (s.withCol x).doms = s.doms := rfl
@[simp] theorem State.withCol_xng (x : ColSt) : (s.withCol x).xng = s.xng := rfl
@[simp] theorem State.withCol_qfreq (x : ColSt) : (s.withCol x).qfreq = s.qfreq := rfl
@[simp] theorem State.withCol_lpx (x : ColSt) : (s.withCol x).lpx = s.lpx := rfl
@[simp] theorem State.withCol_dsy (x : ColSt) : (s.withCol x).dsy = s.dsy := rfl
@[simp] theorem State.withCol_chain (x : ColSt) : (s.withCol x).chain = s.chain := rfl
@[simp] theorem State.withCol_cfg (x : ColSt) : (s.withCol x).cfg = s.cfg := rfl
@[simp] theorem State.withCol_sec (x : ColSt) : (s.withCol x).sec = s.sec := rfl
@[simp] theorem State.withCol_tap (x : ColSt) : (s.withCol x).tap = s.tap := rfl
@[simp] theorem State.arr_withCol (x : ColSt) (k : Nat) : (s.withCol x).arr k = s.arr k := rfl
@[simp] theorem State.tile_withCol (x : ColSt) (k : Nat) : (s.withCol x).tile k = s.tile k := rfl
@[simp] theorem State.clu_withCol (x : ColSt) (k : Nat) : (s.withCol x).clu k = s.clu k := rfl
@[simp] theorem State.ctx_withCol (x : ColSt) (k : Nat) : (s.withCol x).ctx k = s.ctx k := rfl
@[simp] theorem State.cmp_withCol (x : ColSt) (k : Nat) : (s.withCol x).cmp k = s.cmp k := rfl
@[simp] theorem State.queue_withCol (x : ColSt) (k : Nat) : (s.withCol x).queue k = s.queue k := rfl
@[simp] theorem State.page_withCol (x : ColSt) (k : Nat) : (s.withCol x).page k = s.page k := rfl
@[simp] theorem State.unit_withCol (x : ColSt) (k : Nat) : (s.withCol x).unit k = s.unit k := rfl
@[simp] theorem State.dom_withCol (x : ColSt) (k : Nat) : (s.withCol x).dom k = s.dom k := rfl
@[simp] theorem State.gs_withCol (x : ColSt) (k : Nat) : (s.withCol x).gs k = s.gs k := rfl
@[simp] theorem State.rd_withCol (x : ColSt) (k : Nat) : (s.withCol x).rd k = s.rd k := rfl
@[simp] theorem State.memByte_withCol (x : ColSt) (k : Nat) : (s.withCol x).memByte k = s.memByte k := rfl
@[simp] theorem State.lpByte_withCol (x : ColSt) (k : Nat) : (s.withCol x).lpByte k = s.lpByte k := rfl

@[simp] theorem State.withHkc_pending (x : HkcSt) : (s.withHkc x).pending = s.pending := rfl
@[simp] theorem State.withHkc_free (x : HkcSt) : (s.withHkc x).free = s.free := rfl
@[simp] theorem State.withHkc_perst (x : HkcSt) : (s.withHkc x).perst = s.perst := rfl
@[simp] theorem State.withHkc_powered (x : HkcSt) : (s.withHkc x).powered = s.powered := rfl
@[simp] theorem State.withHkc_railOk (x : HkcSt) : (s.withHkc x).railOk = s.railOk := rfl
@[simp] theorem State.withHkc_regs (x : HkcSt) : (s.withHkc x).regs = s.regs := rfl
@[simp] theorem State.withHkc_pages (x : HkcSt) : (s.withHkc x).pages = s.pages := rfl
@[simp] theorem State.withHkc_queues (x : HkcSt) : (s.withHkc x).queues = s.queues := rfl
@[simp] theorem State.withHkc_host (x : HkcSt) : (s.withHkc x).host = s.host := rfl
@[simp] theorem State.withHkc_mem (x : HkcSt) : (s.withHkc x).mem = s.mem := rfl
@[simp] theorem State.withHkc_parBad (x : HkcSt) : (s.withHkc x).parBad = s.parBad := rfl
@[simp] theorem State.withHkc_lpmem (x : HkcSt) : (s.withHkc x).lpmem = s.lpmem := rfl
@[simp] theorem State.withHkc_lpBad (x : HkcSt) : (s.withHkc x).lpBad = s.lpBad := rfl
@[simp] theorem State.withHkc_arrays (x : HkcSt) : (s.withHkc x).arrays = s.arrays := rfl
@[simp] theorem State.withHkc_tiles (x : HkcSt) : (s.withHkc x).tiles = s.tiles := rfl
@[simp] theorem State.withHkc_clus (x : HkcSt) : (s.withHkc x).clus = s.clus := rfl
@[simp] theorem State.withHkc_ctxs (x : HkcSt) : (s.withHkc x).ctxs = s.ctxs := rfl
@[simp] theorem State.withHkc_cmps (x : HkcSt) : (s.withHkc x).cmps = s.cmps := rfl
@[simp] theorem State.withHkc_ops (x : HkcSt) : (s.withHkc x).ops = s.ops := rfl
@[simp] theorem State.withHkc_nextOp (x : HkcSt) : (s.withHkc x).nextOp = s.nextOp := rfl
@[simp] theorem State.withHkc_gsem (x : HkcSt) : (s.withHkc x).gsem = s.gsem := rfl
@[simp] theorem State.withHkc_units (x : HkcSt) : (s.withHkc x).units = s.units := rfl
@[simp] theorem State.withHkc_reports (x : HkcSt) : (s.withHkc x).reports = s.reports := rfl
@[simp] theorem State.withHkc_events (x : HkcSt) : (s.withHkc x).events = s.events := rfl
@[simp] theorem State.withHkc_invAll (x : HkcSt) : (s.withHkc x).invAll = s.invAll := rfl
@[simp] theorem State.withHkc_epochCtr (x : HkcSt) : (s.withHkc x).epochCtr = s.epochCtr := rfl
@[simp] theorem State.withHkc_jobs (x : HkcSt) : (s.withHkc x).jobs = s.jobs := rfl
@[simp] theorem State.withHkc_carriers (x : HkcSt) : (s.withHkc x).carriers = s.carriers := rfl
@[simp] theorem State.withHkc_fhp (x : HkcSt) : (s.withHkc x).fhp = s.fhp := rfl
@[simp] theorem State.withHkc_col (x : HkcSt) : (s.withHkc x).col = s.col := rfl
@[simp] theorem State.withHkc_hld (x : HkcSt) : (s.withHkc x).hld = s.hld := rfl
@[simp] theorem State.withHkc_thm (x : HkcSt) : (s.withHkc x).thm = s.thm := rfl
@[simp] theorem State.withHkc_doms (x : HkcSt) : (s.withHkc x).doms = s.doms := rfl
@[simp] theorem State.withHkc_xng (x : HkcSt) : (s.withHkc x).xng = s.xng := rfl
@[simp] theorem State.withHkc_qfreq (x : HkcSt) : (s.withHkc x).qfreq = s.qfreq := rfl
@[simp] theorem State.withHkc_lpx (x : HkcSt) : (s.withHkc x).lpx = s.lpx := rfl
@[simp] theorem State.withHkc_dsy (x : HkcSt) : (s.withHkc x).dsy = s.dsy := rfl
@[simp] theorem State.withHkc_chain (x : HkcSt) : (s.withHkc x).chain = s.chain := rfl
@[simp] theorem State.withHkc_cfg (x : HkcSt) : (s.withHkc x).cfg = s.cfg := rfl
@[simp] theorem State.withHkc_sec (x : HkcSt) : (s.withHkc x).sec = s.sec := rfl
@[simp] theorem State.withHkc_tap (x : HkcSt) : (s.withHkc x).tap = s.tap := rfl
@[simp] theorem State.arr_withHkc (x : HkcSt) (k : Nat) : (s.withHkc x).arr k = s.arr k := rfl
@[simp] theorem State.tile_withHkc (x : HkcSt) (k : Nat) : (s.withHkc x).tile k = s.tile k := rfl
@[simp] theorem State.clu_withHkc (x : HkcSt) (k : Nat) : (s.withHkc x).clu k = s.clu k := rfl
@[simp] theorem State.ctx_withHkc (x : HkcSt) (k : Nat) : (s.withHkc x).ctx k = s.ctx k := rfl
@[simp] theorem State.cmp_withHkc (x : HkcSt) (k : Nat) : (s.withHkc x).cmp k = s.cmp k := rfl
@[simp] theorem State.queue_withHkc (x : HkcSt) (k : Nat) : (s.withHkc x).queue k = s.queue k := rfl
@[simp] theorem State.page_withHkc (x : HkcSt) (k : Nat) : (s.withHkc x).page k = s.page k := rfl
@[simp] theorem State.unit_withHkc (x : HkcSt) (k : Nat) : (s.withHkc x).unit k = s.unit k := rfl
@[simp] theorem State.dom_withHkc (x : HkcSt) (k : Nat) : (s.withHkc x).dom k = s.dom k := rfl
@[simp] theorem State.gs_withHkc (x : HkcSt) (k : Nat) : (s.withHkc x).gs k = s.gs k := rfl
@[simp] theorem State.rd_withHkc (x : HkcSt) (k : Nat) : (s.withHkc x).rd k = s.rd k := rfl
@[simp] theorem State.memByte_withHkc (x : HkcSt) (k : Nat) : (s.withHkc x).memByte k = s.memByte k := rfl
@[simp] theorem State.lpByte_withHkc (x : HkcSt) (k : Nat) : (s.withHkc x).lpByte k = s.lpByte k := rfl

@[simp] theorem State.withXng_pending (x : FMap Xng) : (s.withXng x).pending = s.pending := rfl
@[simp] theorem State.withXng_free (x : FMap Xng) : (s.withXng x).free = s.free := rfl
@[simp] theorem State.withXng_perst (x : FMap Xng) : (s.withXng x).perst = s.perst := rfl
@[simp] theorem State.withXng_powered (x : FMap Xng) : (s.withXng x).powered = s.powered := rfl
@[simp] theorem State.withXng_railOk (x : FMap Xng) : (s.withXng x).railOk = s.railOk := rfl
@[simp] theorem State.withXng_regs (x : FMap Xng) : (s.withXng x).regs = s.regs := rfl
@[simp] theorem State.withXng_pages (x : FMap Xng) : (s.withXng x).pages = s.pages := rfl
@[simp] theorem State.withXng_queues (x : FMap Xng) : (s.withXng x).queues = s.queues := rfl
@[simp] theorem State.withXng_host (x : FMap Xng) : (s.withXng x).host = s.host := rfl
@[simp] theorem State.withXng_mem (x : FMap Xng) : (s.withXng x).mem = s.mem := rfl
@[simp] theorem State.withXng_parBad (x : FMap Xng) : (s.withXng x).parBad = s.parBad := rfl
@[simp] theorem State.withXng_lpmem (x : FMap Xng) : (s.withXng x).lpmem = s.lpmem := rfl
@[simp] theorem State.withXng_lpBad (x : FMap Xng) : (s.withXng x).lpBad = s.lpBad := rfl
@[simp] theorem State.withXng_arrays (x : FMap Xng) : (s.withXng x).arrays = s.arrays := rfl
@[simp] theorem State.withXng_tiles (x : FMap Xng) : (s.withXng x).tiles = s.tiles := rfl
@[simp] theorem State.withXng_clus (x : FMap Xng) : (s.withXng x).clus = s.clus := rfl
@[simp] theorem State.withXng_ctxs (x : FMap Xng) : (s.withXng x).ctxs = s.ctxs := rfl
@[simp] theorem State.withXng_cmps (x : FMap Xng) : (s.withXng x).cmps = s.cmps := rfl
@[simp] theorem State.withXng_ops (x : FMap Xng) : (s.withXng x).ops = s.ops := rfl
@[simp] theorem State.withXng_nextOp (x : FMap Xng) : (s.withXng x).nextOp = s.nextOp := rfl
@[simp] theorem State.withXng_gsem (x : FMap Xng) : (s.withXng x).gsem = s.gsem := rfl
@[simp] theorem State.withXng_units (x : FMap Xng) : (s.withXng x).units = s.units := rfl
@[simp] theorem State.withXng_reports (x : FMap Xng) : (s.withXng x).reports = s.reports := rfl
@[simp] theorem State.withXng_events (x : FMap Xng) : (s.withXng x).events = s.events := rfl
@[simp] theorem State.withXng_invAll (x : FMap Xng) : (s.withXng x).invAll = s.invAll := rfl
@[simp] theorem State.withXng_epochCtr (x : FMap Xng) : (s.withXng x).epochCtr = s.epochCtr := rfl
@[simp] theorem State.withXng_jobs (x : FMap Xng) : (s.withXng x).jobs = s.jobs := rfl
@[simp] theorem State.withXng_carriers (x : FMap Xng) : (s.withXng x).carriers = s.carriers := rfl
@[simp] theorem State.withXng_fhp (x : FMap Xng) : (s.withXng x).fhp = s.fhp := rfl
@[simp] theorem State.withXng_col (x : FMap Xng) : (s.withXng x).col = s.col := rfl
@[simp] theorem State.withXng_hld (x : FMap Xng) : (s.withXng x).hld = s.hld := rfl
@[simp] theorem State.withXng_hkc (x : FMap Xng) : (s.withXng x).hkc = s.hkc := rfl
@[simp] theorem State.withXng_thm (x : FMap Xng) : (s.withXng x).thm = s.thm := rfl
@[simp] theorem State.withXng_doms (x : FMap Xng) : (s.withXng x).doms = s.doms := rfl
@[simp] theorem State.withXng_qfreq (x : FMap Xng) : (s.withXng x).qfreq = s.qfreq := rfl
@[simp] theorem State.withXng_lpx (x : FMap Xng) : (s.withXng x).lpx = s.lpx := rfl
@[simp] theorem State.withXng_dsy (x : FMap Xng) : (s.withXng x).dsy = s.dsy := rfl
@[simp] theorem State.withXng_chain (x : FMap Xng) : (s.withXng x).chain = s.chain := rfl
@[simp] theorem State.withXng_cfg (x : FMap Xng) : (s.withXng x).cfg = s.cfg := rfl
@[simp] theorem State.withXng_sec (x : FMap Xng) : (s.withXng x).sec = s.sec := rfl
@[simp] theorem State.withXng_tap (x : FMap Xng) : (s.withXng x).tap = s.tap := rfl
@[simp] theorem State.arr_withXng (x : FMap Xng) (k : Nat) : (s.withXng x).arr k = s.arr k := rfl
@[simp] theorem State.tile_withXng (x : FMap Xng) (k : Nat) : (s.withXng x).tile k = s.tile k := rfl
@[simp] theorem State.clu_withXng (x : FMap Xng) (k : Nat) : (s.withXng x).clu k = s.clu k := rfl
@[simp] theorem State.ctx_withXng (x : FMap Xng) (k : Nat) : (s.withXng x).ctx k = s.ctx k := rfl
@[simp] theorem State.cmp_withXng (x : FMap Xng) (k : Nat) : (s.withXng x).cmp k = s.cmp k := rfl
@[simp] theorem State.queue_withXng (x : FMap Xng) (k : Nat) : (s.withXng x).queue k = s.queue k := rfl
@[simp] theorem State.page_withXng (x : FMap Xng) (k : Nat) : (s.withXng x).page k = s.page k := rfl
@[simp] theorem State.unit_withXng (x : FMap Xng) (k : Nat) : (s.withXng x).unit k = s.unit k := rfl
@[simp] theorem State.dom_withXng (x : FMap Xng) (k : Nat) : (s.withXng x).dom k = s.dom k := rfl
@[simp] theorem State.gs_withXng (x : FMap Xng) (k : Nat) : (s.withXng x).gs k = s.gs k := rfl
@[simp] theorem State.rd_withXng (x : FMap Xng) (k : Nat) : (s.withXng x).rd k = s.rd k := rfl
@[simp] theorem State.memByte_withXng (x : FMap Xng) (k : Nat) : (s.withXng x).memByte k = s.memByte k := rfl
@[simp] theorem State.lpByte_withXng (x : FMap Xng) (k : Nat) : (s.withXng x).lpByte k = s.lpByte k := rfl

@[simp] theorem State.withQfreq_pending (x : FMap Nat) : (s.withQfreq x).pending = s.pending := rfl
@[simp] theorem State.withQfreq_free (x : FMap Nat) : (s.withQfreq x).free = s.free := rfl
@[simp] theorem State.withQfreq_perst (x : FMap Nat) : (s.withQfreq x).perst = s.perst := rfl
@[simp] theorem State.withQfreq_powered (x : FMap Nat) : (s.withQfreq x).powered = s.powered := rfl
@[simp] theorem State.withQfreq_railOk (x : FMap Nat) : (s.withQfreq x).railOk = s.railOk := rfl
@[simp] theorem State.withQfreq_regs (x : FMap Nat) : (s.withQfreq x).regs = s.regs := rfl
@[simp] theorem State.withQfreq_pages (x : FMap Nat) : (s.withQfreq x).pages = s.pages := rfl
@[simp] theorem State.withQfreq_queues (x : FMap Nat) : (s.withQfreq x).queues = s.queues := rfl
@[simp] theorem State.withQfreq_host (x : FMap Nat) : (s.withQfreq x).host = s.host := rfl
@[simp] theorem State.withQfreq_mem (x : FMap Nat) : (s.withQfreq x).mem = s.mem := rfl
@[simp] theorem State.withQfreq_parBad (x : FMap Nat) : (s.withQfreq x).parBad = s.parBad := rfl
@[simp] theorem State.withQfreq_lpmem (x : FMap Nat) : (s.withQfreq x).lpmem = s.lpmem := rfl
@[simp] theorem State.withQfreq_lpBad (x : FMap Nat) : (s.withQfreq x).lpBad = s.lpBad := rfl
@[simp] theorem State.withQfreq_arrays (x : FMap Nat) : (s.withQfreq x).arrays = s.arrays := rfl
@[simp] theorem State.withQfreq_tiles (x : FMap Nat) : (s.withQfreq x).tiles = s.tiles := rfl
@[simp] theorem State.withQfreq_clus (x : FMap Nat) : (s.withQfreq x).clus = s.clus := rfl
@[simp] theorem State.withQfreq_ctxs (x : FMap Nat) : (s.withQfreq x).ctxs = s.ctxs := rfl
@[simp] theorem State.withQfreq_cmps (x : FMap Nat) : (s.withQfreq x).cmps = s.cmps := rfl
@[simp] theorem State.withQfreq_ops (x : FMap Nat) : (s.withQfreq x).ops = s.ops := rfl
@[simp] theorem State.withQfreq_nextOp (x : FMap Nat) : (s.withQfreq x).nextOp = s.nextOp := rfl
@[simp] theorem State.withQfreq_gsem (x : FMap Nat) : (s.withQfreq x).gsem = s.gsem := rfl
@[simp] theorem State.withQfreq_units (x : FMap Nat) : (s.withQfreq x).units = s.units := rfl
@[simp] theorem State.withQfreq_reports (x : FMap Nat) : (s.withQfreq x).reports = s.reports := rfl
@[simp] theorem State.withQfreq_events (x : FMap Nat) : (s.withQfreq x).events = s.events := rfl
@[simp] theorem State.withQfreq_invAll (x : FMap Nat) : (s.withQfreq x).invAll = s.invAll := rfl
@[simp] theorem State.withQfreq_epochCtr (x : FMap Nat) : (s.withQfreq x).epochCtr = s.epochCtr := rfl
@[simp] theorem State.withQfreq_jobs (x : FMap Nat) : (s.withQfreq x).jobs = s.jobs := rfl
@[simp] theorem State.withQfreq_carriers (x : FMap Nat) : (s.withQfreq x).carriers = s.carriers := rfl
@[simp] theorem State.withQfreq_fhp (x : FMap Nat) : (s.withQfreq x).fhp = s.fhp := rfl
@[simp] theorem State.withQfreq_col (x : FMap Nat) : (s.withQfreq x).col = s.col := rfl
@[simp] theorem State.withQfreq_hld (x : FMap Nat) : (s.withQfreq x).hld = s.hld := rfl
@[simp] theorem State.withQfreq_hkc (x : FMap Nat) : (s.withQfreq x).hkc = s.hkc := rfl
@[simp] theorem State.withQfreq_thm (x : FMap Nat) : (s.withQfreq x).thm = s.thm := rfl
@[simp] theorem State.withQfreq_doms (x : FMap Nat) : (s.withQfreq x).doms = s.doms := rfl
@[simp] theorem State.withQfreq_xng (x : FMap Nat) : (s.withQfreq x).xng = s.xng := rfl
@[simp] theorem State.withQfreq_lpx (x : FMap Nat) : (s.withQfreq x).lpx = s.lpx := rfl
@[simp] theorem State.withQfreq_dsy (x : FMap Nat) : (s.withQfreq x).dsy = s.dsy := rfl
@[simp] theorem State.withQfreq_chain (x : FMap Nat) : (s.withQfreq x).chain = s.chain := rfl
@[simp] theorem State.withQfreq_cfg (x : FMap Nat) : (s.withQfreq x).cfg = s.cfg := rfl
@[simp] theorem State.withQfreq_sec (x : FMap Nat) : (s.withQfreq x).sec = s.sec := rfl
@[simp] theorem State.withQfreq_tap (x : FMap Nat) : (s.withQfreq x).tap = s.tap := rfl
@[simp] theorem State.arr_withQfreq (x : FMap Nat) (k : Nat) : (s.withQfreq x).arr k = s.arr k := rfl
@[simp] theorem State.tile_withQfreq (x : FMap Nat) (k : Nat) : (s.withQfreq x).tile k = s.tile k := rfl
@[simp] theorem State.clu_withQfreq (x : FMap Nat) (k : Nat) : (s.withQfreq x).clu k = s.clu k := rfl
@[simp] theorem State.ctx_withQfreq (x : FMap Nat) (k : Nat) : (s.withQfreq x).ctx k = s.ctx k := rfl
@[simp] theorem State.cmp_withQfreq (x : FMap Nat) (k : Nat) : (s.withQfreq x).cmp k = s.cmp k := rfl
@[simp] theorem State.queue_withQfreq (x : FMap Nat) (k : Nat) : (s.withQfreq x).queue k = s.queue k := rfl
@[simp] theorem State.page_withQfreq (x : FMap Nat) (k : Nat) : (s.withQfreq x).page k = s.page k := rfl
@[simp] theorem State.unit_withQfreq (x : FMap Nat) (k : Nat) : (s.withQfreq x).unit k = s.unit k := rfl
@[simp] theorem State.dom_withQfreq (x : FMap Nat) (k : Nat) : (s.withQfreq x).dom k = s.dom k := rfl
@[simp] theorem State.gs_withQfreq (x : FMap Nat) (k : Nat) : (s.withQfreq x).gs k = s.gs k := rfl
@[simp] theorem State.rd_withQfreq (x : FMap Nat) (k : Nat) : (s.withQfreq x).rd k = s.rd k := rfl
@[simp] theorem State.memByte_withQfreq (x : FMap Nat) (k : Nat) : (s.withQfreq x).memByte k = s.memByte k := rfl
@[simp] theorem State.lpByte_withQfreq (x : FMap Nat) (k : Nat) : (s.withQfreq x).lpByte k = s.lpByte k := rfl

@[simp] theorem State.withLpx_pending (x : FMap Nat) : (s.withLpx x).pending = s.pending := rfl
@[simp] theorem State.withLpx_free (x : FMap Nat) : (s.withLpx x).free = s.free := rfl
@[simp] theorem State.withLpx_perst (x : FMap Nat) : (s.withLpx x).perst = s.perst := rfl
@[simp] theorem State.withLpx_powered (x : FMap Nat) : (s.withLpx x).powered = s.powered := rfl
@[simp] theorem State.withLpx_railOk (x : FMap Nat) : (s.withLpx x).railOk = s.railOk := rfl
@[simp] theorem State.withLpx_regs (x : FMap Nat) : (s.withLpx x).regs = s.regs := rfl
@[simp] theorem State.withLpx_pages (x : FMap Nat) : (s.withLpx x).pages = s.pages := rfl
@[simp] theorem State.withLpx_queues (x : FMap Nat) : (s.withLpx x).queues = s.queues := rfl
@[simp] theorem State.withLpx_host (x : FMap Nat) : (s.withLpx x).host = s.host := rfl
@[simp] theorem State.withLpx_mem (x : FMap Nat) : (s.withLpx x).mem = s.mem := rfl
@[simp] theorem State.withLpx_parBad (x : FMap Nat) : (s.withLpx x).parBad = s.parBad := rfl
@[simp] theorem State.withLpx_lpmem (x : FMap Nat) : (s.withLpx x).lpmem = s.lpmem := rfl
@[simp] theorem State.withLpx_lpBad (x : FMap Nat) : (s.withLpx x).lpBad = s.lpBad := rfl
@[simp] theorem State.withLpx_arrays (x : FMap Nat) : (s.withLpx x).arrays = s.arrays := rfl
@[simp] theorem State.withLpx_tiles (x : FMap Nat) : (s.withLpx x).tiles = s.tiles := rfl
@[simp] theorem State.withLpx_clus (x : FMap Nat) : (s.withLpx x).clus = s.clus := rfl
@[simp] theorem State.withLpx_ctxs (x : FMap Nat) : (s.withLpx x).ctxs = s.ctxs := rfl
@[simp] theorem State.withLpx_cmps (x : FMap Nat) : (s.withLpx x).cmps = s.cmps := rfl
@[simp] theorem State.withLpx_ops (x : FMap Nat) : (s.withLpx x).ops = s.ops := rfl
@[simp] theorem State.withLpx_nextOp (x : FMap Nat) : (s.withLpx x).nextOp = s.nextOp := rfl
@[simp] theorem State.withLpx_gsem (x : FMap Nat) : (s.withLpx x).gsem = s.gsem := rfl
@[simp] theorem State.withLpx_units (x : FMap Nat) : (s.withLpx x).units = s.units := rfl
@[simp] theorem State.withLpx_reports (x : FMap Nat) : (s.withLpx x).reports = s.reports := rfl
@[simp] theorem State.withLpx_events (x : FMap Nat) : (s.withLpx x).events = s.events := rfl
@[simp] theorem State.withLpx_invAll (x : FMap Nat) : (s.withLpx x).invAll = s.invAll := rfl
@[simp] theorem State.withLpx_epochCtr (x : FMap Nat) : (s.withLpx x).epochCtr = s.epochCtr := rfl
@[simp] theorem State.withLpx_jobs (x : FMap Nat) : (s.withLpx x).jobs = s.jobs := rfl
@[simp] theorem State.withLpx_carriers (x : FMap Nat) : (s.withLpx x).carriers = s.carriers := rfl
@[simp] theorem State.withLpx_fhp (x : FMap Nat) : (s.withLpx x).fhp = s.fhp := rfl
@[simp] theorem State.withLpx_col (x : FMap Nat) : (s.withLpx x).col = s.col := rfl
@[simp] theorem State.withLpx_hld (x : FMap Nat) : (s.withLpx x).hld = s.hld := rfl
@[simp] theorem State.withLpx_hkc (x : FMap Nat) : (s.withLpx x).hkc = s.hkc := rfl
@[simp] theorem State.withLpx_thm (x : FMap Nat) : (s.withLpx x).thm = s.thm := rfl
@[simp] theorem State.withLpx_doms (x : FMap Nat) : (s.withLpx x).doms = s.doms := rfl
@[simp] theorem State.withLpx_xng (x : FMap Nat) : (s.withLpx x).xng = s.xng := rfl
@[simp] theorem State.withLpx_qfreq (x : FMap Nat) : (s.withLpx x).qfreq = s.qfreq := rfl
@[simp] theorem State.withLpx_dsy (x : FMap Nat) : (s.withLpx x).dsy = s.dsy := rfl
@[simp] theorem State.withLpx_chain (x : FMap Nat) : (s.withLpx x).chain = s.chain := rfl
@[simp] theorem State.withLpx_cfg (x : FMap Nat) : (s.withLpx x).cfg = s.cfg := rfl
@[simp] theorem State.withLpx_sec (x : FMap Nat) : (s.withLpx x).sec = s.sec := rfl
@[simp] theorem State.withLpx_tap (x : FMap Nat) : (s.withLpx x).tap = s.tap := rfl
@[simp] theorem State.arr_withLpx (x : FMap Nat) (k : Nat) : (s.withLpx x).arr k = s.arr k := rfl
@[simp] theorem State.tile_withLpx (x : FMap Nat) (k : Nat) : (s.withLpx x).tile k = s.tile k := rfl
@[simp] theorem State.clu_withLpx (x : FMap Nat) (k : Nat) : (s.withLpx x).clu k = s.clu k := rfl
@[simp] theorem State.ctx_withLpx (x : FMap Nat) (k : Nat) : (s.withLpx x).ctx k = s.ctx k := rfl
@[simp] theorem State.cmp_withLpx (x : FMap Nat) (k : Nat) : (s.withLpx x).cmp k = s.cmp k := rfl
@[simp] theorem State.queue_withLpx (x : FMap Nat) (k : Nat) : (s.withLpx x).queue k = s.queue k := rfl
@[simp] theorem State.page_withLpx (x : FMap Nat) (k : Nat) : (s.withLpx x).page k = s.page k := rfl
@[simp] theorem State.unit_withLpx (x : FMap Nat) (k : Nat) : (s.withLpx x).unit k = s.unit k := rfl
@[simp] theorem State.dom_withLpx (x : FMap Nat) (k : Nat) : (s.withLpx x).dom k = s.dom k := rfl
@[simp] theorem State.gs_withLpx (x : FMap Nat) (k : Nat) : (s.withLpx x).gs k = s.gs k := rfl
@[simp] theorem State.rd_withLpx (x : FMap Nat) (k : Nat) : (s.withLpx x).rd k = s.rd k := rfl
@[simp] theorem State.memByte_withLpx (x : FMap Nat) (k : Nat) : (s.withLpx x).memByte k = s.memByte k := rfl
@[simp] theorem State.lpByte_withLpx (x : FMap Nat) (k : Nat) : (s.withLpx x).lpByte k = s.lpByte k := rfl

@[simp] theorem State.withDsy_pending (x : FMap Dsy) : (s.withDsy x).pending = s.pending := rfl
@[simp] theorem State.withDsy_free (x : FMap Dsy) : (s.withDsy x).free = s.free := rfl
@[simp] theorem State.withDsy_perst (x : FMap Dsy) : (s.withDsy x).perst = s.perst := rfl
@[simp] theorem State.withDsy_powered (x : FMap Dsy) : (s.withDsy x).powered = s.powered := rfl
@[simp] theorem State.withDsy_railOk (x : FMap Dsy) : (s.withDsy x).railOk = s.railOk := rfl
@[simp] theorem State.withDsy_regs (x : FMap Dsy) : (s.withDsy x).regs = s.regs := rfl
@[simp] theorem State.withDsy_pages (x : FMap Dsy) : (s.withDsy x).pages = s.pages := rfl
@[simp] theorem State.withDsy_queues (x : FMap Dsy) : (s.withDsy x).queues = s.queues := rfl
@[simp] theorem State.withDsy_host (x : FMap Dsy) : (s.withDsy x).host = s.host := rfl
@[simp] theorem State.withDsy_mem (x : FMap Dsy) : (s.withDsy x).mem = s.mem := rfl
@[simp] theorem State.withDsy_parBad (x : FMap Dsy) : (s.withDsy x).parBad = s.parBad := rfl
@[simp] theorem State.withDsy_lpmem (x : FMap Dsy) : (s.withDsy x).lpmem = s.lpmem := rfl
@[simp] theorem State.withDsy_lpBad (x : FMap Dsy) : (s.withDsy x).lpBad = s.lpBad := rfl
@[simp] theorem State.withDsy_arrays (x : FMap Dsy) : (s.withDsy x).arrays = s.arrays := rfl
@[simp] theorem State.withDsy_tiles (x : FMap Dsy) : (s.withDsy x).tiles = s.tiles := rfl
@[simp] theorem State.withDsy_clus (x : FMap Dsy) : (s.withDsy x).clus = s.clus := rfl
@[simp] theorem State.withDsy_ctxs (x : FMap Dsy) : (s.withDsy x).ctxs = s.ctxs := rfl
@[simp] theorem State.withDsy_cmps (x : FMap Dsy) : (s.withDsy x).cmps = s.cmps := rfl
@[simp] theorem State.withDsy_ops (x : FMap Dsy) : (s.withDsy x).ops = s.ops := rfl
@[simp] theorem State.withDsy_nextOp (x : FMap Dsy) : (s.withDsy x).nextOp = s.nextOp := rfl
@[simp] theorem State.withDsy_gsem (x : FMap Dsy) : (s.withDsy x).gsem = s.gsem := rfl
@[simp] theorem State.withDsy_units (x : FMap Dsy) : (s.withDsy x).units = s.units := rfl
@[simp] theorem State.withDsy_reports (x : FMap Dsy) : (s.withDsy x).reports = s.reports := rfl
@[simp] theorem State.withDsy_events (x : FMap Dsy) : (s.withDsy x).events = s.events := rfl
@[simp] theorem State.withDsy_invAll (x : FMap Dsy) : (s.withDsy x).invAll = s.invAll := rfl
@[simp] theorem State.withDsy_epochCtr (x : FMap Dsy) : (s.withDsy x).epochCtr = s.epochCtr := rfl
@[simp] theorem State.withDsy_jobs (x : FMap Dsy) : (s.withDsy x).jobs = s.jobs := rfl
@[simp] theorem State.withDsy_carriers (x : FMap Dsy) : (s.withDsy x).carriers = s.carriers := rfl
@[simp] theorem State.withDsy_fhp (x : FMap Dsy) : (s.withDsy x).fhp = s.fhp := rfl
@[simp] theorem State.withDsy_col (x : FMap Dsy) : (s.withDsy x).col = s.col := rfl
@[simp] theorem State.withDsy_hld (x : FMap Dsy) : (s.withDsy x).hld = s.hld := rfl
@[simp] theorem State.withDsy_hkc (x : FMap Dsy) : (s.withDsy x).hkc = s.hkc := rfl
@[simp] theorem State.withDsy_thm (x : FMap Dsy) : (s.withDsy x).thm = s.thm := rfl
@[simp] theorem State.withDsy_doms (x : FMap Dsy) : (s.withDsy x).doms = s.doms := rfl
@[simp] theorem State.withDsy_xng (x : FMap Dsy) : (s.withDsy x).xng = s.xng := rfl
@[simp] theorem State.withDsy_qfreq (x : FMap Dsy) : (s.withDsy x).qfreq = s.qfreq := rfl
@[simp] theorem State.withDsy_lpx (x : FMap Dsy) : (s.withDsy x).lpx = s.lpx := rfl
@[simp] theorem State.withDsy_chain (x : FMap Dsy) : (s.withDsy x).chain = s.chain := rfl
@[simp] theorem State.withDsy_cfg (x : FMap Dsy) : (s.withDsy x).cfg = s.cfg := rfl
@[simp] theorem State.withDsy_sec (x : FMap Dsy) : (s.withDsy x).sec = s.sec := rfl
@[simp] theorem State.withDsy_tap (x : FMap Dsy) : (s.withDsy x).tap = s.tap := rfl
@[simp] theorem State.arr_withDsy (x : FMap Dsy) (k : Nat) : (s.withDsy x).arr k = s.arr k := rfl
@[simp] theorem State.tile_withDsy (x : FMap Dsy) (k : Nat) : (s.withDsy x).tile k = s.tile k := rfl
@[simp] theorem State.clu_withDsy (x : FMap Dsy) (k : Nat) : (s.withDsy x).clu k = s.clu k := rfl
@[simp] theorem State.ctx_withDsy (x : FMap Dsy) (k : Nat) : (s.withDsy x).ctx k = s.ctx k := rfl
@[simp] theorem State.cmp_withDsy (x : FMap Dsy) (k : Nat) : (s.withDsy x).cmp k = s.cmp k := rfl
@[simp] theorem State.queue_withDsy (x : FMap Dsy) (k : Nat) : (s.withDsy x).queue k = s.queue k := rfl
@[simp] theorem State.page_withDsy (x : FMap Dsy) (k : Nat) : (s.withDsy x).page k = s.page k := rfl
@[simp] theorem State.unit_withDsy (x : FMap Dsy) (k : Nat) : (s.withDsy x).unit k = s.unit k := rfl
@[simp] theorem State.dom_withDsy (x : FMap Dsy) (k : Nat) : (s.withDsy x).dom k = s.dom k := rfl
@[simp] theorem State.gs_withDsy (x : FMap Dsy) (k : Nat) : (s.withDsy x).gs k = s.gs k := rfl
@[simp] theorem State.rd_withDsy (x : FMap Dsy) (k : Nat) : (s.withDsy x).rd k = s.rd k := rfl
@[simp] theorem State.memByte_withDsy (x : FMap Dsy) (k : Nat) : (s.withDsy x).memByte k = s.memByte k := rfl
@[simp] theorem State.lpByte_withDsy (x : FMap Dsy) (k : Nat) : (s.withDsy x).lpByte k = s.lpByte k := rfl

@[simp] theorem State.withChain_pending (x : ChainSt) : (s.withChain x).pending = s.pending := rfl
@[simp] theorem State.withChain_free (x : ChainSt) : (s.withChain x).free = s.free := rfl
@[simp] theorem State.withChain_perst (x : ChainSt) : (s.withChain x).perst = s.perst := rfl
@[simp] theorem State.withChain_powered (x : ChainSt) : (s.withChain x).powered = s.powered := rfl
@[simp] theorem State.withChain_railOk (x : ChainSt) : (s.withChain x).railOk = s.railOk := rfl
@[simp] theorem State.withChain_regs (x : ChainSt) : (s.withChain x).regs = s.regs := rfl
@[simp] theorem State.withChain_pages (x : ChainSt) : (s.withChain x).pages = s.pages := rfl
@[simp] theorem State.withChain_queues (x : ChainSt) : (s.withChain x).queues = s.queues := rfl
@[simp] theorem State.withChain_host (x : ChainSt) : (s.withChain x).host = s.host := rfl
@[simp] theorem State.withChain_mem (x : ChainSt) : (s.withChain x).mem = s.mem := rfl
@[simp] theorem State.withChain_parBad (x : ChainSt) : (s.withChain x).parBad = s.parBad := rfl
@[simp] theorem State.withChain_lpmem (x : ChainSt) : (s.withChain x).lpmem = s.lpmem := rfl
@[simp] theorem State.withChain_lpBad (x : ChainSt) : (s.withChain x).lpBad = s.lpBad := rfl
@[simp] theorem State.withChain_arrays (x : ChainSt) : (s.withChain x).arrays = s.arrays := rfl
@[simp] theorem State.withChain_tiles (x : ChainSt) : (s.withChain x).tiles = s.tiles := rfl
@[simp] theorem State.withChain_clus (x : ChainSt) : (s.withChain x).clus = s.clus := rfl
@[simp] theorem State.withChain_ctxs (x : ChainSt) : (s.withChain x).ctxs = s.ctxs := rfl
@[simp] theorem State.withChain_cmps (x : ChainSt) : (s.withChain x).cmps = s.cmps := rfl
@[simp] theorem State.withChain_ops (x : ChainSt) : (s.withChain x).ops = s.ops := rfl
@[simp] theorem State.withChain_nextOp (x : ChainSt) : (s.withChain x).nextOp = s.nextOp := rfl
@[simp] theorem State.withChain_gsem (x : ChainSt) : (s.withChain x).gsem = s.gsem := rfl
@[simp] theorem State.withChain_units (x : ChainSt) : (s.withChain x).units = s.units := rfl
@[simp] theorem State.withChain_reports (x : ChainSt) : (s.withChain x).reports = s.reports := rfl
@[simp] theorem State.withChain_events (x : ChainSt) : (s.withChain x).events = s.events := rfl
@[simp] theorem State.withChain_invAll (x : ChainSt) : (s.withChain x).invAll = s.invAll := rfl
@[simp] theorem State.withChain_epochCtr (x : ChainSt) : (s.withChain x).epochCtr = s.epochCtr := rfl
@[simp] theorem State.withChain_jobs (x : ChainSt) : (s.withChain x).jobs = s.jobs := rfl
@[simp] theorem State.withChain_carriers (x : ChainSt) : (s.withChain x).carriers = s.carriers := rfl
@[simp] theorem State.withChain_fhp (x : ChainSt) : (s.withChain x).fhp = s.fhp := rfl
@[simp] theorem State.withChain_col (x : ChainSt) : (s.withChain x).col = s.col := rfl
@[simp] theorem State.withChain_hld (x : ChainSt) : (s.withChain x).hld = s.hld := rfl
@[simp] theorem State.withChain_hkc (x : ChainSt) : (s.withChain x).hkc = s.hkc := rfl
@[simp] theorem State.withChain_thm (x : ChainSt) : (s.withChain x).thm = s.thm := rfl
@[simp] theorem State.withChain_doms (x : ChainSt) : (s.withChain x).doms = s.doms := rfl
@[simp] theorem State.withChain_xng (x : ChainSt) : (s.withChain x).xng = s.xng := rfl
@[simp] theorem State.withChain_qfreq (x : ChainSt) : (s.withChain x).qfreq = s.qfreq := rfl
@[simp] theorem State.withChain_lpx (x : ChainSt) : (s.withChain x).lpx = s.lpx := rfl
@[simp] theorem State.withChain_dsy (x : ChainSt) : (s.withChain x).dsy = s.dsy := rfl
@[simp] theorem State.withChain_cfg (x : ChainSt) : (s.withChain x).cfg = s.cfg := rfl
@[simp] theorem State.withChain_sec (x : ChainSt) : (s.withChain x).sec = s.sec := rfl
@[simp] theorem State.withChain_tap (x : ChainSt) : (s.withChain x).tap = s.tap := rfl
@[simp] theorem State.arr_withChain (x : ChainSt) (k : Nat) : (s.withChain x).arr k = s.arr k := rfl
@[simp] theorem State.tile_withChain (x : ChainSt) (k : Nat) : (s.withChain x).tile k = s.tile k := rfl
@[simp] theorem State.clu_withChain (x : ChainSt) (k : Nat) : (s.withChain x).clu k = s.clu k := rfl
@[simp] theorem State.ctx_withChain (x : ChainSt) (k : Nat) : (s.withChain x).ctx k = s.ctx k := rfl
@[simp] theorem State.cmp_withChain (x : ChainSt) (k : Nat) : (s.withChain x).cmp k = s.cmp k := rfl
@[simp] theorem State.queue_withChain (x : ChainSt) (k : Nat) : (s.withChain x).queue k = s.queue k := rfl
@[simp] theorem State.page_withChain (x : ChainSt) (k : Nat) : (s.withChain x).page k = s.page k := rfl
@[simp] theorem State.unit_withChain (x : ChainSt) (k : Nat) : (s.withChain x).unit k = s.unit k := rfl
@[simp] theorem State.dom_withChain (x : ChainSt) (k : Nat) : (s.withChain x).dom k = s.dom k := rfl
@[simp] theorem State.gs_withChain (x : ChainSt) (k : Nat) : (s.withChain x).gs k = s.gs k := rfl
@[simp] theorem State.rd_withChain (x : ChainSt) (k : Nat) : (s.withChain x).rd k = s.rd k := rfl
@[simp] theorem State.memByte_withChain (x : ChainSt) (k : Nat) : (s.withChain x).memByte k = s.memByte k := rfl
@[simp] theorem State.lpByte_withChain (x : ChainSt) (k : Nat) : (s.withChain x).lpByte k = s.lpByte k := rfl

@[simp] theorem State.withCfg_pending (x : CfgSt) : (s.withCfg x).pending = s.pending := rfl
@[simp] theorem State.withCfg_free (x : CfgSt) : (s.withCfg x).free = s.free := rfl
@[simp] theorem State.withCfg_perst (x : CfgSt) : (s.withCfg x).perst = s.perst := rfl
@[simp] theorem State.withCfg_powered (x : CfgSt) : (s.withCfg x).powered = s.powered := rfl
@[simp] theorem State.withCfg_railOk (x : CfgSt) : (s.withCfg x).railOk = s.railOk := rfl
@[simp] theorem State.withCfg_regs (x : CfgSt) : (s.withCfg x).regs = s.regs := rfl
@[simp] theorem State.withCfg_pages (x : CfgSt) : (s.withCfg x).pages = s.pages := rfl
@[simp] theorem State.withCfg_queues (x : CfgSt) : (s.withCfg x).queues = s.queues := rfl
@[simp] theorem State.withCfg_host (x : CfgSt) : (s.withCfg x).host = s.host := rfl
@[simp] theorem State.withCfg_mem (x : CfgSt) : (s.withCfg x).mem = s.mem := rfl
@[simp] theorem State.withCfg_parBad (x : CfgSt) : (s.withCfg x).parBad = s.parBad := rfl
@[simp] theorem State.withCfg_lpmem (x : CfgSt) : (s.withCfg x).lpmem = s.lpmem := rfl
@[simp] theorem State.withCfg_lpBad (x : CfgSt) : (s.withCfg x).lpBad = s.lpBad := rfl
@[simp] theorem State.withCfg_arrays (x : CfgSt) : (s.withCfg x).arrays = s.arrays := rfl
@[simp] theorem State.withCfg_tiles (x : CfgSt) : (s.withCfg x).tiles = s.tiles := rfl
@[simp] theorem State.withCfg_clus (x : CfgSt) : (s.withCfg x).clus = s.clus := rfl
@[simp] theorem State.withCfg_ctxs (x : CfgSt) : (s.withCfg x).ctxs = s.ctxs := rfl
@[simp] theorem State.withCfg_cmps (x : CfgSt) : (s.withCfg x).cmps = s.cmps := rfl
@[simp] theorem State.withCfg_ops (x : CfgSt) : (s.withCfg x).ops = s.ops := rfl
@[simp] theorem State.withCfg_nextOp (x : CfgSt) : (s.withCfg x).nextOp = s.nextOp := rfl
@[simp] theorem State.withCfg_gsem (x : CfgSt) : (s.withCfg x).gsem = s.gsem := rfl
@[simp] theorem State.withCfg_units (x : CfgSt) : (s.withCfg x).units = s.units := rfl
@[simp] theorem State.withCfg_reports (x : CfgSt) : (s.withCfg x).reports = s.reports := rfl
@[simp] theorem State.withCfg_events (x : CfgSt) : (s.withCfg x).events = s.events := rfl
@[simp] theorem State.withCfg_invAll (x : CfgSt) : (s.withCfg x).invAll = s.invAll := rfl
@[simp] theorem State.withCfg_epochCtr (x : CfgSt) : (s.withCfg x).epochCtr = s.epochCtr := rfl
@[simp] theorem State.withCfg_jobs (x : CfgSt) : (s.withCfg x).jobs = s.jobs := rfl
@[simp] theorem State.withCfg_carriers (x : CfgSt) : (s.withCfg x).carriers = s.carriers := rfl
@[simp] theorem State.withCfg_fhp (x : CfgSt) : (s.withCfg x).fhp = s.fhp := rfl
@[simp] theorem State.withCfg_col (x : CfgSt) : (s.withCfg x).col = s.col := rfl
@[simp] theorem State.withCfg_hld (x : CfgSt) : (s.withCfg x).hld = s.hld := rfl
@[simp] theorem State.withCfg_hkc (x : CfgSt) : (s.withCfg x).hkc = s.hkc := rfl
@[simp] theorem State.withCfg_thm (x : CfgSt) : (s.withCfg x).thm = s.thm := rfl
@[simp] theorem State.withCfg_doms (x : CfgSt) : (s.withCfg x).doms = s.doms := rfl
@[simp] theorem State.withCfg_xng (x : CfgSt) : (s.withCfg x).xng = s.xng := rfl
@[simp] theorem State.withCfg_qfreq (x : CfgSt) : (s.withCfg x).qfreq = s.qfreq := rfl
@[simp] theorem State.withCfg_lpx (x : CfgSt) : (s.withCfg x).lpx = s.lpx := rfl
@[simp] theorem State.withCfg_dsy (x : CfgSt) : (s.withCfg x).dsy = s.dsy := rfl
@[simp] theorem State.withCfg_chain (x : CfgSt) : (s.withCfg x).chain = s.chain := rfl
@[simp] theorem State.withCfg_sec (x : CfgSt) : (s.withCfg x).sec = s.sec := rfl
@[simp] theorem State.withCfg_tap (x : CfgSt) : (s.withCfg x).tap = s.tap := rfl
@[simp] theorem State.arr_withCfg (x : CfgSt) (k : Nat) : (s.withCfg x).arr k = s.arr k := rfl
@[simp] theorem State.tile_withCfg (x : CfgSt) (k : Nat) : (s.withCfg x).tile k = s.tile k := rfl
@[simp] theorem State.clu_withCfg (x : CfgSt) (k : Nat) : (s.withCfg x).clu k = s.clu k := rfl
@[simp] theorem State.ctx_withCfg (x : CfgSt) (k : Nat) : (s.withCfg x).ctx k = s.ctx k := rfl
@[simp] theorem State.cmp_withCfg (x : CfgSt) (k : Nat) : (s.withCfg x).cmp k = s.cmp k := rfl
@[simp] theorem State.queue_withCfg (x : CfgSt) (k : Nat) : (s.withCfg x).queue k = s.queue k := rfl
@[simp] theorem State.page_withCfg (x : CfgSt) (k : Nat) : (s.withCfg x).page k = s.page k := rfl
@[simp] theorem State.unit_withCfg (x : CfgSt) (k : Nat) : (s.withCfg x).unit k = s.unit k := rfl
@[simp] theorem State.dom_withCfg (x : CfgSt) (k : Nat) : (s.withCfg x).dom k = s.dom k := rfl
@[simp] theorem State.gs_withCfg (x : CfgSt) (k : Nat) : (s.withCfg x).gs k = s.gs k := rfl
@[simp] theorem State.rd_withCfg (x : CfgSt) (k : Nat) : (s.withCfg x).rd k = s.rd k := rfl
@[simp] theorem State.memByte_withCfg (x : CfgSt) (k : Nat) : (s.withCfg x).memByte k = s.memByte k := rfl
@[simp] theorem State.lpByte_withCfg (x : CfgSt) (k : Nat) : (s.withCfg x).lpByte k = s.lpByte k := rfl

@[simp] theorem State.withTap_pending (x : TapSt) : (s.withTap x).pending = s.pending := rfl
@[simp] theorem State.withTap_free (x : TapSt) : (s.withTap x).free = s.free := rfl
@[simp] theorem State.withTap_perst (x : TapSt) : (s.withTap x).perst = s.perst := rfl
@[simp] theorem State.withTap_powered (x : TapSt) : (s.withTap x).powered = s.powered := rfl
@[simp] theorem State.withTap_railOk (x : TapSt) : (s.withTap x).railOk = s.railOk := rfl
@[simp] theorem State.withTap_regs (x : TapSt) : (s.withTap x).regs = s.regs := rfl
@[simp] theorem State.withTap_pages (x : TapSt) : (s.withTap x).pages = s.pages := rfl
@[simp] theorem State.withTap_queues (x : TapSt) : (s.withTap x).queues = s.queues := rfl
@[simp] theorem State.withTap_host (x : TapSt) : (s.withTap x).host = s.host := rfl
@[simp] theorem State.withTap_mem (x : TapSt) : (s.withTap x).mem = s.mem := rfl
@[simp] theorem State.withTap_parBad (x : TapSt) : (s.withTap x).parBad = s.parBad := rfl
@[simp] theorem State.withTap_lpmem (x : TapSt) : (s.withTap x).lpmem = s.lpmem := rfl
@[simp] theorem State.withTap_lpBad (x : TapSt) : (s.withTap x).lpBad = s.lpBad := rfl
@[simp] theorem State.withTap_arrays (x : TapSt) : (s.withTap x).arrays = s.arrays := rfl
@[simp] theorem State.withTap_tiles (x : TapSt) : (s.withTap x).tiles = s.tiles := rfl
@[simp] theorem State.withTap_clus (x : TapSt) : (s.withTap x).clus = s.clus := rfl
@[simp] theorem State.withTap_ctxs (x : TapSt) : (s.withTap x).ctxs = s.ctxs := rfl
@[simp] theorem State.withTap_cmps (x : TapSt) : (s.withTap x).cmps = s.cmps := rfl
@[simp] theorem State.withTap_ops (x : TapSt) : (s.withTap x).ops = s.ops := rfl
@[simp] theorem State.withTap_nextOp (x : TapSt) : (s.withTap x).nextOp = s.nextOp := rfl
@[simp] theorem State.withTap_gsem (x : TapSt) : (s.withTap x).gsem = s.gsem := rfl
@[simp] theorem State.withTap_units (x : TapSt) : (s.withTap x).units = s.units := rfl
@[simp] theorem State.withTap_reports (x : TapSt) : (s.withTap x).reports = s.reports := rfl
@[simp] theorem State.withTap_events (x : TapSt) : (s.withTap x).events = s.events := rfl
@[simp] theorem State.withTap_invAll (x : TapSt) : (s.withTap x).invAll = s.invAll := rfl
@[simp] theorem State.withTap_epochCtr (x : TapSt) : (s.withTap x).epochCtr = s.epochCtr := rfl
@[simp] theorem State.withTap_jobs (x : TapSt) : (s.withTap x).jobs = s.jobs := rfl
@[simp] theorem State.withTap_carriers (x : TapSt) : (s.withTap x).carriers = s.carriers := rfl
@[simp] theorem State.withTap_fhp (x : TapSt) : (s.withTap x).fhp = s.fhp := rfl
@[simp] theorem State.withTap_col (x : TapSt) : (s.withTap x).col = s.col := rfl
@[simp] theorem State.withTap_hld (x : TapSt) : (s.withTap x).hld = s.hld := rfl
@[simp] theorem State.withTap_hkc (x : TapSt) : (s.withTap x).hkc = s.hkc := rfl
@[simp] theorem State.withTap_thm (x : TapSt) : (s.withTap x).thm = s.thm := rfl
@[simp] theorem State.withTap_doms (x : TapSt) : (s.withTap x).doms = s.doms := rfl
@[simp] theorem State.withTap_xng (x : TapSt) : (s.withTap x).xng = s.xng := rfl
@[simp] theorem State.withTap_qfreq (x : TapSt) : (s.withTap x).qfreq = s.qfreq := rfl
@[simp] theorem State.withTap_lpx (x : TapSt) : (s.withTap x).lpx = s.lpx := rfl
@[simp] theorem State.withTap_dsy (x : TapSt) : (s.withTap x).dsy = s.dsy := rfl
@[simp] theorem State.withTap_chain (x : TapSt) : (s.withTap x).chain = s.chain := rfl
@[simp] theorem State.withTap_cfg (x : TapSt) : (s.withTap x).cfg = s.cfg := rfl
@[simp] theorem State.withTap_sec (x : TapSt) : (s.withTap x).sec = s.sec := rfl
@[simp] theorem State.arr_withTap (x : TapSt) (k : Nat) : (s.withTap x).arr k = s.arr k := rfl
@[simp] theorem State.tile_withTap (x : TapSt) (k : Nat) : (s.withTap x).tile k = s.tile k := rfl
@[simp] theorem State.clu_withTap (x : TapSt) (k : Nat) : (s.withTap x).clu k = s.clu k := rfl
@[simp] theorem State.ctx_withTap (x : TapSt) (k : Nat) : (s.withTap x).ctx k = s.ctx k := rfl
@[simp] theorem State.cmp_withTap (x : TapSt) (k : Nat) : (s.withTap x).cmp k = s.cmp k := rfl
@[simp] theorem State.queue_withTap (x : TapSt) (k : Nat) : (s.withTap x).queue k = s.queue k := rfl
@[simp] theorem State.page_withTap (x : TapSt) (k : Nat) : (s.withTap x).page k = s.page k := rfl
@[simp] theorem State.unit_withTap (x : TapSt) (k : Nat) : (s.withTap x).unit k = s.unit k := rfl
@[simp] theorem State.dom_withTap (x : TapSt) (k : Nat) : (s.withTap x).dom k = s.dom k := rfl
@[simp] theorem State.gs_withTap (x : TapSt) (k : Nat) : (s.withTap x).gs k = s.gs k := rfl
@[simp] theorem State.rd_withTap (x : TapSt) (k : Nat) : (s.withTap x).rd k = s.rd k := rfl
@[simp] theorem State.memByte_withTap (x : TapSt) (k : Nat) : (s.withTap x).memByte k = s.memByte k := rfl
@[simp] theorem State.lpByte_withTap (x : TapSt) (k : Nat) : (s.withTap x).lpByte k = s.lpByte k := rfl

@[simp] theorem State.wr_pending (o v : Nat) : (s.wr o v).pending = s.pending := rfl
@[simp] theorem State.wr_free (o v : Nat) : (s.wr o v).free = s.free := rfl
@[simp] theorem State.wr_perst (o v : Nat) : (s.wr o v).perst = s.perst := rfl
@[simp] theorem State.wr_powered (o v : Nat) : (s.wr o v).powered = s.powered := rfl
@[simp] theorem State.wr_railOk (o v : Nat) : (s.wr o v).railOk = s.railOk := rfl
@[simp] theorem State.wr_pages (o v : Nat) : (s.wr o v).pages = s.pages := rfl
@[simp] theorem State.wr_queues (o v : Nat) : (s.wr o v).queues = s.queues := rfl
@[simp] theorem State.wr_host (o v : Nat) : (s.wr o v).host = s.host := rfl
@[simp] theorem State.wr_mem (o v : Nat) : (s.wr o v).mem = s.mem := rfl
@[simp] theorem State.wr_parBad (o v : Nat) : (s.wr o v).parBad = s.parBad := rfl
@[simp] theorem State.wr_lpmem (o v : Nat) : (s.wr o v).lpmem = s.lpmem := rfl
@[simp] theorem State.wr_lpBad (o v : Nat) : (s.wr o v).lpBad = s.lpBad := rfl
@[simp] theorem State.wr_arrays (o v : Nat) : (s.wr o v).arrays = s.arrays := rfl
@[simp] theorem State.wr_tiles (o v : Nat) : (s.wr o v).tiles = s.tiles := rfl
@[simp] theorem State.wr_clus (o v : Nat) : (s.wr o v).clus = s.clus := rfl
@[simp] theorem State.wr_ctxs (o v : Nat) : (s.wr o v).ctxs = s.ctxs := rfl
@[simp] theorem State.wr_cmps (o v : Nat) : (s.wr o v).cmps = s.cmps := rfl
@[simp] theorem State.wr_ops (o v : Nat) : (s.wr o v).ops = s.ops := rfl
@[simp] theorem State.wr_nextOp (o v : Nat) : (s.wr o v).nextOp = s.nextOp := rfl
@[simp] theorem State.wr_gsem (o v : Nat) : (s.wr o v).gsem = s.gsem := rfl
@[simp] theorem State.wr_units (o v : Nat) : (s.wr o v).units = s.units := rfl
@[simp] theorem State.wr_reports (o v : Nat) : (s.wr o v).reports = s.reports := rfl
@[simp] theorem State.wr_events (o v : Nat) : (s.wr o v).events = s.events := rfl
@[simp] theorem State.wr_invAll (o v : Nat) : (s.wr o v).invAll = s.invAll := rfl
@[simp] theorem State.wr_epochCtr (o v : Nat) : (s.wr o v).epochCtr = s.epochCtr := rfl
@[simp] theorem State.wr_jobs (o v : Nat) : (s.wr o v).jobs = s.jobs := rfl
@[simp] theorem State.wr_carriers (o v : Nat) : (s.wr o v).carriers = s.carriers := rfl
@[simp] theorem State.wr_fhp (o v : Nat) : (s.wr o v).fhp = s.fhp := rfl
@[simp] theorem State.wr_col (o v : Nat) : (s.wr o v).col = s.col := rfl
@[simp] theorem State.wr_hld (o v : Nat) : (s.wr o v).hld = s.hld := rfl
@[simp] theorem State.wr_hkc (o v : Nat) : (s.wr o v).hkc = s.hkc := rfl
@[simp] theorem State.wr_thm (o v : Nat) : (s.wr o v).thm = s.thm := rfl
@[simp] theorem State.wr_doms (o v : Nat) : (s.wr o v).doms = s.doms := rfl
@[simp] theorem State.wr_xng (o v : Nat) : (s.wr o v).xng = s.xng := rfl
@[simp] theorem State.wr_qfreq (o v : Nat) : (s.wr o v).qfreq = s.qfreq := rfl
@[simp] theorem State.wr_lpx (o v : Nat) : (s.wr o v).lpx = s.lpx := rfl
@[simp] theorem State.wr_dsy (o v : Nat) : (s.wr o v).dsy = s.dsy := rfl
@[simp] theorem State.wr_chain (o v : Nat) : (s.wr o v).chain = s.chain := rfl
@[simp] theorem State.wr_cfg (o v : Nat) : (s.wr o v).cfg = s.cfg := rfl
@[simp] theorem State.wr_sec (o v : Nat) : (s.wr o v).sec = s.sec := rfl
@[simp] theorem State.wr_tap (o v : Nat) : (s.wr o v).tap = s.tap := rfl
@[simp] theorem State.arr_wr (o v : Nat) (k : Nat) : (s.wr o v).arr k = s.arr k := rfl
@[simp] theorem State.tile_wr (o v : Nat) (k : Nat) : (s.wr o v).tile k = s.tile k := rfl
@[simp] theorem State.clu_wr (o v : Nat) (k : Nat) : (s.wr o v).clu k = s.clu k := rfl
@[simp] theorem State.ctx_wr (o v : Nat) (k : Nat) : (s.wr o v).ctx k = s.ctx k := rfl
@[simp] theorem State.cmp_wr (o v : Nat) (k : Nat) : (s.wr o v).cmp k = s.cmp k := rfl
@[simp] theorem State.queue_wr (o v : Nat) (k : Nat) : (s.wr o v).queue k = s.queue k := rfl
@[simp] theorem State.page_wr (o v : Nat) (k : Nat) : (s.wr o v).page k = s.page k := rfl
@[simp] theorem State.unit_wr (o v : Nat) (k : Nat) : (s.wr o v).unit k = s.unit k := rfl
@[simp] theorem State.dom_wr (o v : Nat) (k : Nat) : (s.wr o v).dom k = s.dom k := rfl
@[simp] theorem State.gs_wr (o v : Nat) (k : Nat) : (s.wr o v).gs k = s.gs k := rfl
@[simp] theorem State.memByte_wr (o v : Nat) (k : Nat) : (s.wr o v).memByte k = s.memByte k := rfl
@[simp] theorem State.lpByte_wr (o v : Nat) (k : Nat) : (s.wr o v).lpByte k = s.lpByte k := rfl

@[simp] theorem State.wr64_pending (o v : Nat) : (s.wr64 o v).pending = s.pending := by unfold State.wr64 State.put64; rw [State.modPage_pending, State.wr_pending, State.wr_pending]
@[simp] theorem State.wr64_free (o v : Nat) : (s.wr64 o v).free = s.free := by unfold State.wr64 State.put64; rw [State.modPage_free, State.wr_free, State.wr_free]
@[simp] theorem State.wr64_perst (o v : Nat) : (s.wr64 o v).perst = s.perst := by unfold State.wr64 State.put64; rw [State.modPage_perst, State.wr_perst, State.wr_perst]
@[simp] theorem State.wr64_powered (o v : Nat) : (s.wr64 o v).powered = s.powered := by unfold State.wr64 State.put64; rw [State.modPage_powered, State.wr_powered, State.wr_powered]
@[simp] theorem State.wr64_railOk (o v : Nat) : (s.wr64 o v).railOk = s.railOk := by unfold State.wr64 State.put64; rw [State.modPage_railOk, State.wr_railOk, State.wr_railOk]
@[simp] theorem State.wr64_queues (o v : Nat) : (s.wr64 o v).queues = s.queues := by unfold State.wr64 State.put64; rw [State.modPage_queues, State.wr_queues, State.wr_queues]
@[simp] theorem State.wr64_host (o v : Nat) : (s.wr64 o v).host = s.host := by unfold State.wr64 State.put64; rw [State.modPage_host, State.wr_host, State.wr_host]
@[simp] theorem State.wr64_mem (o v : Nat) : (s.wr64 o v).mem = s.mem := by unfold State.wr64 State.put64; rw [State.modPage_mem, State.wr_mem, State.wr_mem]
@[simp] theorem State.wr64_parBad (o v : Nat) : (s.wr64 o v).parBad = s.parBad := by unfold State.wr64 State.put64; rw [State.modPage_parBad, State.wr_parBad, State.wr_parBad]
@[simp] theorem State.wr64_lpmem (o v : Nat) : (s.wr64 o v).lpmem = s.lpmem := by unfold State.wr64 State.put64; rw [State.modPage_lpmem, State.wr_lpmem, State.wr_lpmem]
@[simp] theorem State.wr64_lpBad (o v : Nat) : (s.wr64 o v).lpBad = s.lpBad := by unfold State.wr64 State.put64; rw [State.modPage_lpBad, State.wr_lpBad, State.wr_lpBad]
@[simp] theorem State.wr64_arrays (o v : Nat) : (s.wr64 o v).arrays = s.arrays := by unfold State.wr64 State.put64; rw [State.modPage_arrays, State.wr_arrays, State.wr_arrays]
@[simp] theorem State.wr64_tiles (o v : Nat) : (s.wr64 o v).tiles = s.tiles := by unfold State.wr64 State.put64; rw [State.modPage_tiles, State.wr_tiles, State.wr_tiles]
@[simp] theorem State.wr64_clus (o v : Nat) : (s.wr64 o v).clus = s.clus := by unfold State.wr64 State.put64; rw [State.modPage_clus, State.wr_clus, State.wr_clus]
@[simp] theorem State.wr64_ctxs (o v : Nat) : (s.wr64 o v).ctxs = s.ctxs := by unfold State.wr64 State.put64; rw [State.modPage_ctxs, State.wr_ctxs, State.wr_ctxs]
@[simp] theorem State.wr64_cmps (o v : Nat) : (s.wr64 o v).cmps = s.cmps := by unfold State.wr64 State.put64; rw [State.modPage_cmps, State.wr_cmps, State.wr_cmps]
@[simp] theorem State.wr64_ops (o v : Nat) : (s.wr64 o v).ops = s.ops := by unfold State.wr64 State.put64; rw [State.modPage_ops, State.wr_ops, State.wr_ops]
@[simp] theorem State.wr64_nextOp (o v : Nat) : (s.wr64 o v).nextOp = s.nextOp := by unfold State.wr64 State.put64; rw [State.modPage_nextOp, State.wr_nextOp, State.wr_nextOp]
@[simp] theorem State.wr64_gsem (o v : Nat) : (s.wr64 o v).gsem = s.gsem := by unfold State.wr64 State.put64; rw [State.modPage_gsem, State.wr_gsem, State.wr_gsem]
@[simp] theorem State.wr64_units (o v : Nat) : (s.wr64 o v).units = s.units := by unfold State.wr64 State.put64; rw [State.modPage_units, State.wr_units, State.wr_units]
@[simp] theorem State.wr64_reports (o v : Nat) : (s.wr64 o v).reports = s.reports := by unfold State.wr64 State.put64; rw [State.modPage_reports, State.wr_reports, State.wr_reports]
@[simp] theorem State.wr64_events (o v : Nat) : (s.wr64 o v).events = s.events := by unfold State.wr64 State.put64; rw [State.modPage_events, State.wr_events, State.wr_events]
@[simp] theorem State.wr64_invAll (o v : Nat) : (s.wr64 o v).invAll = s.invAll := by unfold State.wr64 State.put64; rw [State.modPage_invAll, State.wr_invAll, State.wr_invAll]
@[simp] theorem State.wr64_epochCtr (o v : Nat) : (s.wr64 o v).epochCtr = s.epochCtr := by unfold State.wr64 State.put64; rw [State.modPage_epochCtr, State.wr_epochCtr, State.wr_epochCtr]
@[simp] theorem State.wr64_jobs (o v : Nat) : (s.wr64 o v).jobs = s.jobs := by unfold State.wr64 State.put64; rw [State.modPage_jobs, State.wr_jobs, State.wr_jobs]
@[simp] theorem State.wr64_carriers (o v : Nat) : (s.wr64 o v).carriers = s.carriers := by unfold State.wr64 State.put64; rw [State.modPage_carriers, State.wr_carriers, State.wr_carriers]
@[simp] theorem State.wr64_fhp (o v : Nat) : (s.wr64 o v).fhp = s.fhp := by unfold State.wr64 State.put64; rw [State.modPage_fhp, State.wr_fhp, State.wr_fhp]
@[simp] theorem State.wr64_col (o v : Nat) : (s.wr64 o v).col = s.col := by unfold State.wr64 State.put64; rw [State.modPage_col, State.wr_col, State.wr_col]
@[simp] theorem State.wr64_hld (o v : Nat) : (s.wr64 o v).hld = s.hld := by unfold State.wr64 State.put64; rw [State.modPage_hld, State.wr_hld, State.wr_hld]
@[simp] theorem State.wr64_hkc (o v : Nat) : (s.wr64 o v).hkc = s.hkc := by unfold State.wr64 State.put64; rw [State.modPage_hkc, State.wr_hkc, State.wr_hkc]
@[simp] theorem State.wr64_thm (o v : Nat) : (s.wr64 o v).thm = s.thm := by unfold State.wr64 State.put64; rw [State.modPage_thm, State.wr_thm, State.wr_thm]
@[simp] theorem State.wr64_doms (o v : Nat) : (s.wr64 o v).doms = s.doms := by unfold State.wr64 State.put64; rw [State.modPage_doms, State.wr_doms, State.wr_doms]
@[simp] theorem State.wr64_xng (o v : Nat) : (s.wr64 o v).xng = s.xng := by unfold State.wr64 State.put64; rw [State.modPage_xng, State.wr_xng, State.wr_xng]
@[simp] theorem State.wr64_qfreq (o v : Nat) : (s.wr64 o v).qfreq = s.qfreq := by unfold State.wr64 State.put64; rw [State.modPage_qfreq, State.wr_qfreq, State.wr_qfreq]
@[simp] theorem State.wr64_lpx (o v : Nat) : (s.wr64 o v).lpx = s.lpx := by unfold State.wr64 State.put64; rw [State.modPage_lpx, State.wr_lpx, State.wr_lpx]
@[simp] theorem State.wr64_dsy (o v : Nat) : (s.wr64 o v).dsy = s.dsy := by unfold State.wr64 State.put64; rw [State.modPage_dsy, State.wr_dsy, State.wr_dsy]
@[simp] theorem State.wr64_chain (o v : Nat) : (s.wr64 o v).chain = s.chain := by unfold State.wr64 State.put64; rw [State.modPage_chain, State.wr_chain, State.wr_chain]
@[simp] theorem State.wr64_cfg (o v : Nat) : (s.wr64 o v).cfg = s.cfg := by unfold State.wr64 State.put64; rw [State.modPage_cfg, State.wr_cfg, State.wr_cfg]
@[simp] theorem State.wr64_sec (o v : Nat) : (s.wr64 o v).sec = s.sec := by unfold State.wr64 State.put64; rw [State.modPage_sec, State.wr_sec, State.wr_sec]
@[simp] theorem State.wr64_tap (o v : Nat) : (s.wr64 o v).tap = s.tap := by unfold State.wr64 State.put64; rw [State.modPage_tap, State.wr_tap, State.wr_tap]
@[simp] theorem State.arr_wr64 (o v : Nat) (k : Nat) : (s.wr64 o v).arr k = s.arr k := by unfold State.wr64 State.put64; rw [State.arr_modPage, State.arr_wr, State.arr_wr]
@[simp] theorem State.tile_wr64 (o v : Nat) (k : Nat) : (s.wr64 o v).tile k = s.tile k := by unfold State.wr64 State.put64; rw [State.tile_modPage, State.tile_wr, State.tile_wr]
@[simp] theorem State.clu_wr64 (o v : Nat) (k : Nat) : (s.wr64 o v).clu k = s.clu k := by unfold State.wr64 State.put64; rw [State.clu_modPage, State.clu_wr, State.clu_wr]
@[simp] theorem State.ctx_wr64 (o v : Nat) (k : Nat) : (s.wr64 o v).ctx k = s.ctx k := by unfold State.wr64 State.put64; rw [State.ctx_modPage, State.ctx_wr, State.ctx_wr]
@[simp] theorem State.cmp_wr64 (o v : Nat) (k : Nat) : (s.wr64 o v).cmp k = s.cmp k := by unfold State.wr64 State.put64; rw [State.cmp_modPage, State.cmp_wr, State.cmp_wr]
@[simp] theorem State.queue_wr64 (o v : Nat) (k : Nat) : (s.wr64 o v).queue k = s.queue k := by unfold State.wr64 State.put64; rw [State.queue_modPage, State.queue_wr, State.queue_wr]
@[simp] theorem State.unit_wr64 (o v : Nat) (k : Nat) : (s.wr64 o v).unit k = s.unit k := by unfold State.wr64 State.put64; rw [State.unit_modPage, State.unit_wr, State.unit_wr]
@[simp] theorem State.dom_wr64 (o v : Nat) (k : Nat) : (s.wr64 o v).dom k = s.dom k := by unfold State.wr64 State.put64; rw [State.dom_modPage, State.dom_wr, State.dom_wr]
@[simp] theorem State.gs_wr64 (o v : Nat) (k : Nat) : (s.wr64 o v).gs k = s.gs k := by unfold State.wr64 State.put64; rw [State.gs_modPage, State.gs_wr, State.gs_wr]
@[simp] theorem State.memByte_wr64 (o v : Nat) (k : Nat) : (s.wr64 o v).memByte k = s.memByte k := by unfold State.wr64 State.put64; rw [State.memByte_modPage, State.memByte_wr, State.memByte_wr]
@[simp] theorem State.lpByte_wr64 (o v : Nat) (k : Nat) : (s.wr64 o v).lpByte k = s.lpByte k := by unfold State.wr64 State.put64; rw [State.lpByte_modPage, State.lpByte_wr, State.lpByte_wr]

@[simp] theorem State.report_pending (r : Report) : (s.report r).pending = s.pending := rfl
@[simp] theorem State.report_free (r : Report) : (s.report r).free = s.free := rfl
@[simp] theorem State.report_perst (r : Report) : (s.report r).perst = s.perst := rfl
@[simp] theorem State.report_powered (r : Report) : (s.report r).powered = s.powered := rfl
@[simp] theorem State.report_railOk (r : Report) : (s.report r).railOk = s.railOk := rfl
@[simp] theorem State.report_regs (r : Report) : (s.report r).regs = s.regs := rfl
@[simp] theorem State.report_pages (r : Report) : (s.report r).pages = s.pages := rfl
@[simp] theorem State.report_queues (r : Report) : (s.report r).queues = s.queues := rfl
@[simp] theorem State.report_host (r : Report) : (s.report r).host = s.host := rfl
@[simp] theorem State.report_mem (r : Report) : (s.report r).mem = s.mem := rfl
@[simp] theorem State.report_parBad (r : Report) : (s.report r).parBad = s.parBad := rfl
@[simp] theorem State.report_lpmem (r : Report) : (s.report r).lpmem = s.lpmem := rfl
@[simp] theorem State.report_lpBad (r : Report) : (s.report r).lpBad = s.lpBad := rfl
@[simp] theorem State.report_arrays (r : Report) : (s.report r).arrays = s.arrays := rfl
@[simp] theorem State.report_tiles (r : Report) : (s.report r).tiles = s.tiles := rfl
@[simp] theorem State.report_clus (r : Report) : (s.report r).clus = s.clus := rfl
@[simp] theorem State.report_ctxs (r : Report) : (s.report r).ctxs = s.ctxs := rfl
@[simp] theorem State.report_cmps (r : Report) : (s.report r).cmps = s.cmps := rfl
@[simp] theorem State.report_ops (r : Report) : (s.report r).ops = s.ops := rfl
@[simp] theorem State.report_nextOp (r : Report) : (s.report r).nextOp = s.nextOp := rfl
@[simp] theorem State.report_gsem (r : Report) : (s.report r).gsem = s.gsem := rfl
@[simp] theorem State.report_units (r : Report) : (s.report r).units = s.units := rfl
@[simp] theorem State.report_events (r : Report) : (s.report r).events = s.events := rfl
@[simp] theorem State.report_invAll (r : Report) : (s.report r).invAll = s.invAll := rfl
@[simp] theorem State.report_epochCtr (r : Report) : (s.report r).epochCtr = s.epochCtr := rfl
@[simp] theorem State.report_jobs (r : Report) : (s.report r).jobs = s.jobs := rfl
@[simp] theorem State.report_carriers (r : Report) : (s.report r).carriers = s.carriers := rfl
@[simp] theorem State.report_fhp (r : Report) : (s.report r).fhp = s.fhp := rfl
@[simp] theorem State.report_col (r : Report) : (s.report r).col = s.col := rfl
@[simp] theorem State.report_hld (r : Report) : (s.report r).hld = s.hld := rfl
@[simp] theorem State.report_hkc (r : Report) : (s.report r).hkc = s.hkc := rfl
@[simp] theorem State.report_thm (r : Report) : (s.report r).thm = s.thm := rfl
@[simp] theorem State.report_doms (r : Report) : (s.report r).doms = s.doms := rfl
@[simp] theorem State.report_xng (r : Report) : (s.report r).xng = s.xng := rfl
@[simp] theorem State.report_qfreq (r : Report) : (s.report r).qfreq = s.qfreq := rfl
@[simp] theorem State.report_lpx (r : Report) : (s.report r).lpx = s.lpx := rfl
@[simp] theorem State.report_dsy (r : Report) : (s.report r).dsy = s.dsy := rfl
@[simp] theorem State.report_chain (r : Report) : (s.report r).chain = s.chain := rfl
@[simp] theorem State.report_cfg (r : Report) : (s.report r).cfg = s.cfg := rfl
@[simp] theorem State.report_sec (r : Report) : (s.report r).sec = s.sec := rfl
@[simp] theorem State.report_tap (r : Report) : (s.report r).tap = s.tap := rfl
@[simp] theorem State.arr_report (r : Report) (k : Nat) : (s.report r).arr k = s.arr k := rfl
@[simp] theorem State.tile_report (r : Report) (k : Nat) : (s.report r).tile k = s.tile k := rfl
@[simp] theorem State.clu_report (r : Report) (k : Nat) : (s.report r).clu k = s.clu k := rfl
@[simp] theorem State.ctx_report (r : Report) (k : Nat) : (s.report r).ctx k = s.ctx k := rfl
@[simp] theorem State.cmp_report (r : Report) (k : Nat) : (s.report r).cmp k = s.cmp k := rfl
@[simp] theorem State.queue_report (r : Report) (k : Nat) : (s.report r).queue k = s.queue k := rfl
@[simp] theorem State.page_report (r : Report) (k : Nat) : (s.report r).page k = s.page k := rfl
@[simp] theorem State.unit_report (r : Report) (k : Nat) : (s.report r).unit k = s.unit k := rfl
@[simp] theorem State.dom_report (r : Report) (k : Nat) : (s.report r).dom k = s.dom k := rfl
@[simp] theorem State.gs_report (r : Report) (k : Nat) : (s.report r).gs k = s.gs k := rfl
@[simp] theorem State.rd_report (r : Report) (k : Nat) : (s.report r).rd k = s.rd k := rfl
@[simp] theorem State.memByte_report (r : Report) (k : Nat) : (s.report r).memByte k = s.memByte k := rfl
@[simp] theorem State.lpByte_report (r : Report) (k : Nat) : (s.report r).lpByte k = s.lpByte k := rfl

@[simp] theorem State.memWrite_pending (a : Nat) (bs : List Byte) : (s.memWrite a bs).pending = s.pending := rfl
@[simp] theorem State.memWrite_free (a : Nat) (bs : List Byte) : (s.memWrite a bs).free = s.free := rfl
@[simp] theorem State.memWrite_perst (a : Nat) (bs : List Byte) : (s.memWrite a bs).perst = s.perst := rfl
@[simp] theorem State.memWrite_powered (a : Nat) (bs : List Byte) : (s.memWrite a bs).powered = s.powered := rfl
@[simp] theorem State.memWrite_railOk (a : Nat) (bs : List Byte) : (s.memWrite a bs).railOk = s.railOk := rfl
@[simp] theorem State.memWrite_regs (a : Nat) (bs : List Byte) : (s.memWrite a bs).regs = s.regs := rfl
@[simp] theorem State.memWrite_pages (a : Nat) (bs : List Byte) : (s.memWrite a bs).pages = s.pages := rfl
@[simp] theorem State.memWrite_queues (a : Nat) (bs : List Byte) : (s.memWrite a bs).queues = s.queues := rfl
@[simp] theorem State.memWrite_host (a : Nat) (bs : List Byte) : (s.memWrite a bs).host = s.host := rfl
@[simp] theorem State.memWrite_lpmem (a : Nat) (bs : List Byte) : (s.memWrite a bs).lpmem = s.lpmem := rfl
@[simp] theorem State.memWrite_lpBad (a : Nat) (bs : List Byte) : (s.memWrite a bs).lpBad = s.lpBad := rfl
@[simp] theorem State.memWrite_arrays (a : Nat) (bs : List Byte) : (s.memWrite a bs).arrays = s.arrays := rfl
@[simp] theorem State.memWrite_tiles (a : Nat) (bs : List Byte) : (s.memWrite a bs).tiles = s.tiles := rfl
@[simp] theorem State.memWrite_clus (a : Nat) (bs : List Byte) : (s.memWrite a bs).clus = s.clus := rfl
@[simp] theorem State.memWrite_ctxs (a : Nat) (bs : List Byte) : (s.memWrite a bs).ctxs = s.ctxs := rfl
@[simp] theorem State.memWrite_cmps (a : Nat) (bs : List Byte) : (s.memWrite a bs).cmps = s.cmps := rfl
@[simp] theorem State.memWrite_ops (a : Nat) (bs : List Byte) : (s.memWrite a bs).ops = s.ops := rfl
@[simp] theorem State.memWrite_nextOp (a : Nat) (bs : List Byte) : (s.memWrite a bs).nextOp = s.nextOp := rfl
@[simp] theorem State.memWrite_gsem (a : Nat) (bs : List Byte) : (s.memWrite a bs).gsem = s.gsem := rfl
@[simp] theorem State.memWrite_units (a : Nat) (bs : List Byte) : (s.memWrite a bs).units = s.units := rfl
@[simp] theorem State.memWrite_reports (a : Nat) (bs : List Byte) : (s.memWrite a bs).reports = s.reports := rfl
@[simp] theorem State.memWrite_events (a : Nat) (bs : List Byte) : (s.memWrite a bs).events = s.events := rfl
@[simp] theorem State.memWrite_invAll (a : Nat) (bs : List Byte) : (s.memWrite a bs).invAll = s.invAll := rfl
@[simp] theorem State.memWrite_epochCtr (a : Nat) (bs : List Byte) : (s.memWrite a bs).epochCtr = s.epochCtr := rfl
@[simp] theorem State.memWrite_jobs (a : Nat) (bs : List Byte) : (s.memWrite a bs).jobs = s.jobs := rfl
@[simp] theorem State.memWrite_carriers (a : Nat) (bs : List Byte) : (s.memWrite a bs).carriers = s.carriers := rfl
@[simp] theorem State.memWrite_fhp (a : Nat) (bs : List Byte) : (s.memWrite a bs).fhp = s.fhp := rfl
@[simp] theorem State.memWrite_col (a : Nat) (bs : List Byte) : (s.memWrite a bs).col = s.col := rfl
@[simp] theorem State.memWrite_hld (a : Nat) (bs : List Byte) : (s.memWrite a bs).hld = s.hld := rfl
@[simp] theorem State.memWrite_hkc (a : Nat) (bs : List Byte) : (s.memWrite a bs).hkc = s.hkc := rfl
@[simp] theorem State.memWrite_thm (a : Nat) (bs : List Byte) : (s.memWrite a bs).thm = s.thm := rfl
@[simp] theorem State.memWrite_doms (a : Nat) (bs : List Byte) : (s.memWrite a bs).doms = s.doms := rfl
@[simp] theorem State.memWrite_xng (a : Nat) (bs : List Byte) : (s.memWrite a bs).xng = s.xng := rfl
@[simp] theorem State.memWrite_qfreq (a : Nat) (bs : List Byte) : (s.memWrite a bs).qfreq = s.qfreq := rfl
@[simp] theorem State.memWrite_lpx (a : Nat) (bs : List Byte) : (s.memWrite a bs).lpx = s.lpx := rfl
@[simp] theorem State.memWrite_dsy (a : Nat) (bs : List Byte) : (s.memWrite a bs).dsy = s.dsy := rfl
@[simp] theorem State.memWrite_chain (a : Nat) (bs : List Byte) : (s.memWrite a bs).chain = s.chain := rfl
@[simp] theorem State.memWrite_cfg (a : Nat) (bs : List Byte) : (s.memWrite a bs).cfg = s.cfg := rfl
@[simp] theorem State.memWrite_sec (a : Nat) (bs : List Byte) : (s.memWrite a bs).sec = s.sec := rfl
@[simp] theorem State.memWrite_tap (a : Nat) (bs : List Byte) : (s.memWrite a bs).tap = s.tap := rfl
@[simp] theorem State.arr_memWrite (a : Nat) (bs : List Byte) (k : Nat) : (s.memWrite a bs).arr k = s.arr k := rfl
@[simp] theorem State.tile_memWrite (a : Nat) (bs : List Byte) (k : Nat) : (s.memWrite a bs).tile k = s.tile k := rfl
@[simp] theorem State.clu_memWrite (a : Nat) (bs : List Byte) (k : Nat) : (s.memWrite a bs).clu k = s.clu k := rfl
@[simp] theorem State.ctx_memWrite (a : Nat) (bs : List Byte) (k : Nat) : (s.memWrite a bs).ctx k = s.ctx k := rfl
@[simp] theorem State.cmp_memWrite (a : Nat) (bs : List Byte) (k : Nat) : (s.memWrite a bs).cmp k = s.cmp k := rfl
@[simp] theorem State.queue_memWrite (a : Nat) (bs : List Byte) (k : Nat) : (s.memWrite a bs).queue k = s.queue k := rfl
@[simp] theorem State.page_memWrite (a : Nat) (bs : List Byte) (k : Nat) : (s.memWrite a bs).page k = s.page k := rfl
@[simp] theorem State.unit_memWrite (a : Nat) (bs : List Byte) (k : Nat) : (s.memWrite a bs).unit k = s.unit k := rfl
@[simp] theorem State.dom_memWrite (a : Nat) (bs : List Byte) (k : Nat) : (s.memWrite a bs).dom k = s.dom k := rfl
@[simp] theorem State.gs_memWrite (a : Nat) (bs : List Byte) (k : Nat) : (s.memWrite a bs).gs k = s.gs k := rfl
@[simp] theorem State.rd_memWrite (a : Nat) (bs : List Byte) (k : Nat) : (s.memWrite a bs).rd k = s.rd k := rfl
@[simp] theorem State.lpByte_memWrite (a : Nat) (bs : List Byte) (k : Nat) : (s.memWrite a bs).lpByte k = s.lpByte k := rfl

@[simp] theorem State.hostWrite_pending (a : Nat) (bs : List Byte) : (s.hostWrite a bs).pending = s.pending := by unfold State.hostWrite; split <;> rfl
@[simp] theorem State.hostWrite_free (a : Nat) (bs : List Byte) : (s.hostWrite a bs).free = s.free := by unfold State.hostWrite; split <;> rfl
@[simp] theorem State.hostWrite_perst (a : Nat) (bs : List Byte) : (s.hostWrite a bs).perst = s.perst := by unfold State.hostWrite; split <;> rfl
@[simp] theorem State.hostWrite_powered (a : Nat) (bs : List Byte) : (s.hostWrite a bs).powered = s.powered := by unfold State.hostWrite; split <;> rfl
@[simp] theorem State.hostWrite_railOk (a : Nat) (bs : List Byte) : (s.hostWrite a bs).railOk = s.railOk := by unfold State.hostWrite; split <;> rfl
@[simp] theorem State.hostWrite_regs (a : Nat) (bs : List Byte) : (s.hostWrite a bs).regs = s.regs := by unfold State.hostWrite; split <;> rfl
@[simp] theorem State.hostWrite_pages (a : Nat) (bs : List Byte) : (s.hostWrite a bs).pages = s.pages := by unfold State.hostWrite; split <;> rfl
@[simp] theorem State.hostWrite_queues (a : Nat) (bs : List Byte) : (s.hostWrite a bs).queues = s.queues := by unfold State.hostWrite; split <;> rfl
@[simp] theorem State.hostWrite_mem (a : Nat) (bs : List Byte) : (s.hostWrite a bs).mem = s.mem := by unfold State.hostWrite; split <;> rfl
@[simp] theorem State.hostWrite_parBad (a : Nat) (bs : List Byte) : (s.hostWrite a bs).parBad = s.parBad := by unfold State.hostWrite; split <;> rfl
@[simp] theorem State.hostWrite_lpmem (a : Nat) (bs : List Byte) : (s.hostWrite a bs).lpmem = s.lpmem := by unfold State.hostWrite; split <;> rfl
@[simp] theorem State.hostWrite_lpBad (a : Nat) (bs : List Byte) : (s.hostWrite a bs).lpBad = s.lpBad := by unfold State.hostWrite; split <;> rfl
@[simp] theorem State.hostWrite_arrays (a : Nat) (bs : List Byte) : (s.hostWrite a bs).arrays = s.arrays := by unfold State.hostWrite; split <;> rfl
@[simp] theorem State.hostWrite_tiles (a : Nat) (bs : List Byte) : (s.hostWrite a bs).tiles = s.tiles := by unfold State.hostWrite; split <;> rfl
@[simp] theorem State.hostWrite_clus (a : Nat) (bs : List Byte) : (s.hostWrite a bs).clus = s.clus := by unfold State.hostWrite; split <;> rfl
@[simp] theorem State.hostWrite_ctxs (a : Nat) (bs : List Byte) : (s.hostWrite a bs).ctxs = s.ctxs := by unfold State.hostWrite; split <;> rfl
@[simp] theorem State.hostWrite_cmps (a : Nat) (bs : List Byte) : (s.hostWrite a bs).cmps = s.cmps := by unfold State.hostWrite; split <;> rfl
@[simp] theorem State.hostWrite_ops (a : Nat) (bs : List Byte) : (s.hostWrite a bs).ops = s.ops := by unfold State.hostWrite; split <;> rfl
@[simp] theorem State.hostWrite_nextOp (a : Nat) (bs : List Byte) : (s.hostWrite a bs).nextOp = s.nextOp := by unfold State.hostWrite; split <;> rfl
@[simp] theorem State.hostWrite_gsem (a : Nat) (bs : List Byte) : (s.hostWrite a bs).gsem = s.gsem := by unfold State.hostWrite; split <;> rfl
@[simp] theorem State.hostWrite_units (a : Nat) (bs : List Byte) : (s.hostWrite a bs).units = s.units := by unfold State.hostWrite; split <;> rfl
@[simp] theorem State.hostWrite_reports (a : Nat) (bs : List Byte) : (s.hostWrite a bs).reports = s.reports := by unfold State.hostWrite; split <;> rfl
@[simp] theorem State.hostWrite_events (a : Nat) (bs : List Byte) : (s.hostWrite a bs).events = s.events := by unfold State.hostWrite; split <;> rfl
@[simp] theorem State.hostWrite_invAll (a : Nat) (bs : List Byte) : (s.hostWrite a bs).invAll = s.invAll := by unfold State.hostWrite; split <;> rfl
@[simp] theorem State.hostWrite_epochCtr (a : Nat) (bs : List Byte) : (s.hostWrite a bs).epochCtr = s.epochCtr := by unfold State.hostWrite; split <;> rfl
@[simp] theorem State.hostWrite_jobs (a : Nat) (bs : List Byte) : (s.hostWrite a bs).jobs = s.jobs := by unfold State.hostWrite; split <;> rfl
@[simp] theorem State.hostWrite_carriers (a : Nat) (bs : List Byte) : (s.hostWrite a bs).carriers = s.carriers := by unfold State.hostWrite; split <;> rfl
@[simp] theorem State.hostWrite_fhp (a : Nat) (bs : List Byte) : (s.hostWrite a bs).fhp = s.fhp := by unfold State.hostWrite; split <;> rfl
@[simp] theorem State.hostWrite_col (a : Nat) (bs : List Byte) : (s.hostWrite a bs).col = s.col := by unfold State.hostWrite; split <;> rfl
@[simp] theorem State.hostWrite_hld (a : Nat) (bs : List Byte) : (s.hostWrite a bs).hld = s.hld := by unfold State.hostWrite; split <;> rfl
@[simp] theorem State.hostWrite_hkc (a : Nat) (bs : List Byte) : (s.hostWrite a bs).hkc = s.hkc := by unfold State.hostWrite; split <;> rfl
@[simp] theorem State.hostWrite_thm (a : Nat) (bs : List Byte) : (s.hostWrite a bs).thm = s.thm := by unfold State.hostWrite; split <;> rfl
@[simp] theorem State.hostWrite_doms (a : Nat) (bs : List Byte) : (s.hostWrite a bs).doms = s.doms := by unfold State.hostWrite; split <;> rfl
@[simp] theorem State.hostWrite_xng (a : Nat) (bs : List Byte) : (s.hostWrite a bs).xng = s.xng := by unfold State.hostWrite; split <;> rfl
@[simp] theorem State.hostWrite_qfreq (a : Nat) (bs : List Byte) : (s.hostWrite a bs).qfreq = s.qfreq := by unfold State.hostWrite; split <;> rfl
@[simp] theorem State.hostWrite_lpx (a : Nat) (bs : List Byte) : (s.hostWrite a bs).lpx = s.lpx := by unfold State.hostWrite; split <;> rfl
@[simp] theorem State.hostWrite_dsy (a : Nat) (bs : List Byte) : (s.hostWrite a bs).dsy = s.dsy := by unfold State.hostWrite; split <;> rfl
@[simp] theorem State.hostWrite_chain (a : Nat) (bs : List Byte) : (s.hostWrite a bs).chain = s.chain := by unfold State.hostWrite; split <;> rfl
@[simp] theorem State.hostWrite_cfg (a : Nat) (bs : List Byte) : (s.hostWrite a bs).cfg = s.cfg := by unfold State.hostWrite; split <;> rfl
@[simp] theorem State.hostWrite_sec (a : Nat) (bs : List Byte) : (s.hostWrite a bs).sec = s.sec := by unfold State.hostWrite; split <;> rfl
@[simp] theorem State.hostWrite_tap (a : Nat) (bs : List Byte) : (s.hostWrite a bs).tap = s.tap := by unfold State.hostWrite; split <;> rfl
@[simp] theorem State.arr_hostWrite (a : Nat) (bs : List Byte) (k : Nat) : (s.hostWrite a bs).arr k = s.arr k := by unfold State.hostWrite; split <;> rfl
@[simp] theorem State.tile_hostWrite (a : Nat) (bs : List Byte) (k : Nat) : (s.hostWrite a bs).tile k = s.tile k := by unfold State.hostWrite; split <;> rfl
@[simp] theorem State.clu_hostWrite (a : Nat) (bs : List Byte) (k : Nat) : (s.hostWrite a bs).clu k = s.clu k := by unfold State.hostWrite; split <;> rfl
@[simp] theorem State.ctx_hostWrite (a : Nat) (bs : List Byte) (k : Nat) : (s.hostWrite a bs).ctx k = s.ctx k := by unfold State.hostWrite; split <;> rfl
@[simp] theorem State.cmp_hostWrite (a : Nat) (bs : List Byte) (k : Nat) : (s.hostWrite a bs).cmp k = s.cmp k := by unfold State.hostWrite; split <;> rfl
@[simp] theorem State.queue_hostWrite (a : Nat) (bs : List Byte) (k : Nat) : (s.hostWrite a bs).queue k = s.queue k := by unfold State.hostWrite; split <;> rfl
@[simp] theorem State.page_hostWrite (a : Nat) (bs : List Byte) (k : Nat) : (s.hostWrite a bs).page k = s.page k := by unfold State.hostWrite; split <;> rfl
@[simp] theorem State.unit_hostWrite (a : Nat) (bs : List Byte) (k : Nat) : (s.hostWrite a bs).unit k = s.unit k := by unfold State.hostWrite; split <;> rfl
@[simp] theorem State.dom_hostWrite (a : Nat) (bs : List Byte) (k : Nat) : (s.hostWrite a bs).dom k = s.dom k := by unfold State.hostWrite; split <;> rfl
@[simp] theorem State.gs_hostWrite (a : Nat) (bs : List Byte) (k : Nat) : (s.hostWrite a bs).gs k = s.gs k := by unfold State.hostWrite; split <;> rfl
@[simp] theorem State.rd_hostWrite (a : Nat) (bs : List Byte) (k : Nat) : (s.hostWrite a bs).rd k = s.rd k := by unfold State.hostWrite; split <;> rfl
@[simp] theorem State.memByte_hostWrite (a : Nat) (bs : List Byte) (k : Nat) : (s.hostWrite a bs).memByte k = s.memByte k := by unfold State.hostWrite; split <;> rfl
@[simp] theorem State.lpByte_hostWrite (a : Nat) (bs : List Byte) (k : Nat) : (s.hostWrite a bs).lpByte k = s.lpByte k := by unfold State.hostWrite; split <;> rfl

@[simp] theorem State.bump_pending (t : PType) (i o n : Nat) : (s.bump t i o n).pending = s.pending := by unfold State.bump; split <;> [rfl; exact State.wr_pending _ _ _]
@[simp] theorem State.bump_free (t : PType) (i o n : Nat) : (s.bump t i o n).free = s.free := by unfold State.bump; split <;> [rfl; exact State.wr_free _ _ _]
@[simp] theorem State.bump_perst (t : PType) (i o n : Nat) : (s.bump t i o n).perst = s.perst := by unfold State.bump; split <;> [rfl; exact State.wr_perst _ _ _]
@[simp] theorem State.bump_powered (t : PType) (i o n : Nat) : (s.bump t i o n).powered = s.powered := by unfold State.bump; split <;> [rfl; exact State.wr_powered _ _ _]
@[simp] theorem State.bump_railOk (t : PType) (i o n : Nat) : (s.bump t i o n).railOk = s.railOk := by unfold State.bump; split <;> [rfl; exact State.wr_railOk _ _ _]
@[simp] theorem State.bump_pages (t : PType) (i o n : Nat) : (s.bump t i o n).pages = s.pages := by unfold State.bump; split <;> [rfl; exact State.wr_pages _ _ _]
@[simp] theorem State.bump_queues (t : PType) (i o n : Nat) : (s.bump t i o n).queues = s.queues := by unfold State.bump; split <;> [rfl; exact State.wr_queues _ _ _]
@[simp] theorem State.bump_host (t : PType) (i o n : Nat) : (s.bump t i o n).host = s.host := by unfold State.bump; split <;> [rfl; exact State.wr_host _ _ _]
@[simp] theorem State.bump_mem (t : PType) (i o n : Nat) : (s.bump t i o n).mem = s.mem := by unfold State.bump; split <;> [rfl; exact State.wr_mem _ _ _]
@[simp] theorem State.bump_parBad (t : PType) (i o n : Nat) : (s.bump t i o n).parBad = s.parBad := by unfold State.bump; split <;> [rfl; exact State.wr_parBad _ _ _]
@[simp] theorem State.bump_lpmem (t : PType) (i o n : Nat) : (s.bump t i o n).lpmem = s.lpmem := by unfold State.bump; split <;> [rfl; exact State.wr_lpmem _ _ _]
@[simp] theorem State.bump_lpBad (t : PType) (i o n : Nat) : (s.bump t i o n).lpBad = s.lpBad := by unfold State.bump; split <;> [rfl; exact State.wr_lpBad _ _ _]
@[simp] theorem State.bump_arrays (t : PType) (i o n : Nat) : (s.bump t i o n).arrays = s.arrays := by unfold State.bump; split <;> [rfl; exact State.wr_arrays _ _ _]
@[simp] theorem State.bump_tiles (t : PType) (i o n : Nat) : (s.bump t i o n).tiles = s.tiles := by unfold State.bump; split <;> [rfl; exact State.wr_tiles _ _ _]
@[simp] theorem State.bump_clus (t : PType) (i o n : Nat) : (s.bump t i o n).clus = s.clus := by unfold State.bump; split <;> [rfl; exact State.wr_clus _ _ _]
@[simp] theorem State.bump_ctxs (t : PType) (i o n : Nat) : (s.bump t i o n).ctxs = s.ctxs := by unfold State.bump; split <;> [rfl; exact State.wr_ctxs _ _ _]
@[simp] theorem State.bump_cmps (t : PType) (i o n : Nat) : (s.bump t i o n).cmps = s.cmps := by unfold State.bump; split <;> [rfl; exact State.wr_cmps _ _ _]
@[simp] theorem State.bump_ops (t : PType) (i o n : Nat) : (s.bump t i o n).ops = s.ops := by unfold State.bump; split <;> [rfl; exact State.wr_ops _ _ _]
@[simp] theorem State.bump_nextOp (t : PType) (i o n : Nat) : (s.bump t i o n).nextOp = s.nextOp := by unfold State.bump; split <;> [rfl; exact State.wr_nextOp _ _ _]
@[simp] theorem State.bump_gsem (t : PType) (i o n : Nat) : (s.bump t i o n).gsem = s.gsem := by unfold State.bump; split <;> [rfl; exact State.wr_gsem _ _ _]
@[simp] theorem State.bump_units (t : PType) (i o n : Nat) : (s.bump t i o n).units = s.units := by unfold State.bump; split <;> [rfl; exact State.wr_units _ _ _]
@[simp] theorem State.bump_reports (t : PType) (i o n : Nat) : (s.bump t i o n).reports = s.reports := by unfold State.bump; split <;> [rfl; exact State.wr_reports _ _ _]
@[simp] theorem State.bump_events (t : PType) (i o n : Nat) : (s.bump t i o n).events = s.events := by unfold State.bump; split <;> [rfl; exact State.wr_events _ _ _]
@[simp] theorem State.bump_invAll (t : PType) (i o n : Nat) : (s.bump t i o n).invAll = s.invAll := by unfold State.bump; split <;> [rfl; exact State.wr_invAll _ _ _]
@[simp] theorem State.bump_epochCtr (t : PType) (i o n : Nat) : (s.bump t i o n).epochCtr = s.epochCtr := by unfold State.bump; split <;> [rfl; exact State.wr_epochCtr _ _ _]
@[simp] theorem State.bump_jobs (t : PType) (i o n : Nat) : (s.bump t i o n).jobs = s.jobs := by unfold State.bump; split <;> [rfl; exact State.wr_jobs _ _ _]
@[simp] theorem State.bump_carriers (t : PType) (i o n : Nat) : (s.bump t i o n).carriers = s.carriers := by unfold State.bump; split <;> [rfl; exact State.wr_carriers _ _ _]
@[simp] theorem State.bump_fhp (t : PType) (i o n : Nat) : (s.bump t i o n).fhp = s.fhp := by unfold State.bump; split <;> [rfl; exact State.wr_fhp _ _ _]
@[simp] theorem State.bump_col (t : PType) (i o n : Nat) : (s.bump t i o n).col = s.col := by unfold State.bump; split <;> [rfl; exact State.wr_col _ _ _]
@[simp] theorem State.bump_hld (t : PType) (i o n : Nat) : (s.bump t i o n).hld = s.hld := by unfold State.bump; split <;> [rfl; exact State.wr_hld _ _ _]
@[simp] theorem State.bump_hkc (t : PType) (i o n : Nat) : (s.bump t i o n).hkc = s.hkc := by unfold State.bump; split <;> [rfl; exact State.wr_hkc _ _ _]
@[simp] theorem State.bump_thm (t : PType) (i o n : Nat) : (s.bump t i o n).thm = s.thm := by unfold State.bump; split <;> [rfl; exact State.wr_thm _ _ _]
@[simp] theorem State.bump_doms (t : PType) (i o n : Nat) : (s.bump t i o n).doms = s.doms := by unfold State.bump; split <;> [rfl; exact State.wr_doms _ _ _]
@[simp] theorem State.bump_xng (t : PType) (i o n : Nat) : (s.bump t i o n).xng = s.xng := by unfold State.bump; split <;> [rfl; exact State.wr_xng _ _ _]
@[simp] theorem State.bump_qfreq (t : PType) (i o n : Nat) : (s.bump t i o n).qfreq = s.qfreq := by unfold State.bump; split <;> [rfl; exact State.wr_qfreq _ _ _]
@[simp] theorem State.bump_lpx (t : PType) (i o n : Nat) : (s.bump t i o n).lpx = s.lpx := by unfold State.bump; split <;> [rfl; exact State.wr_lpx _ _ _]
@[simp] theorem State.bump_dsy (t : PType) (i o n : Nat) : (s.bump t i o n).dsy = s.dsy := by unfold State.bump; split <;> [rfl; exact State.wr_dsy _ _ _]
@[simp] theorem State.bump_chain (t : PType) (i o n : Nat) : (s.bump t i o n).chain = s.chain := by unfold State.bump; split <;> [rfl; exact State.wr_chain _ _ _]
@[simp] theorem State.bump_cfg (t : PType) (i o n : Nat) : (s.bump t i o n).cfg = s.cfg := by unfold State.bump; split <;> [rfl; exact State.wr_cfg _ _ _]
@[simp] theorem State.bump_sec (t : PType) (i o n : Nat) : (s.bump t i o n).sec = s.sec := by unfold State.bump; split <;> [rfl; exact State.wr_sec _ _ _]
@[simp] theorem State.bump_tap (t : PType) (i o n : Nat) : (s.bump t i o n).tap = s.tap := by unfold State.bump; split <;> [rfl; exact State.wr_tap _ _ _]
@[simp] theorem State.arr_bump (t : PType) (i o n : Nat) (k : Nat) : (s.bump t i o n).arr k = s.arr k := by unfold State.bump; split <;> [rfl; exact State.arr_wr _ _ _ _]
@[simp] theorem State.tile_bump (t : PType) (i o n : Nat) (k : Nat) : (s.bump t i o n).tile k = s.tile k := by unfold State.bump; split <;> [rfl; exact State.tile_wr _ _ _ _]
@[simp] theorem State.clu_bump (t : PType) (i o n : Nat) (k : Nat) : (s.bump t i o n).clu k = s.clu k := by unfold State.bump; split <;> [rfl; exact State.clu_wr _ _ _ _]
@[simp] theorem State.ctx_bump (t : PType) (i o n : Nat) (k : Nat) : (s.bump t i o n).ctx k = s.ctx k := by unfold State.bump; split <;> [rfl; exact State.ctx_wr _ _ _ _]
@[simp] theorem State.cmp_bump (t : PType) (i o n : Nat) (k : Nat) : (s.bump t i o n).cmp k = s.cmp k := by unfold State.bump; split <;> [rfl; exact State.cmp_wr _ _ _ _]
@[simp] theorem State.queue_bump (t : PType) (i o n : Nat) (k : Nat) : (s.bump t i o n).queue k = s.queue k := by unfold State.bump; split <;> [rfl; exact State.queue_wr _ _ _ _]
@[simp] theorem State.page_bump (t : PType) (i o n : Nat) (k : Nat) : (s.bump t i o n).page k = s.page k := by unfold State.bump; split <;> [rfl; exact State.page_wr _ _ _ _]
@[simp] theorem State.unit_bump (t : PType) (i o n : Nat) (k : Nat) : (s.bump t i o n).unit k = s.unit k := by unfold State.bump; split <;> [rfl; exact State.unit_wr _ _ _ _]
@[simp] theorem State.dom_bump (t : PType) (i o n : Nat) (k : Nat) : (s.bump t i o n).dom k = s.dom k := by unfold State.bump; split <;> [rfl; exact State.dom_wr _ _ _ _]
@[simp] theorem State.gs_bump (t : PType) (i o n : Nat) (k : Nat) : (s.bump t i o n).gs k = s.gs k := by unfold State.bump; split <;> [rfl; exact State.gs_wr _ _ _ _]
@[simp] theorem State.memByte_bump (t : PType) (i o n : Nat) (k : Nat) : (s.bump t i o n).memByte k = s.memByte k := by unfold State.bump; split <;> [rfl; exact State.memByte_wr _ _ _ _]
@[simp] theorem State.lpByte_bump (t : PType) (i o n : Nat) (k : Nat) : (s.bump t i o n).lpByte k = s.lpByte k := by unfold State.bump; split <;> [rfl; exact State.lpByte_wr _ _ _ _]

@[simp] theorem State.bump64_pending (t : PType) (i o n : Nat) : (s.bump64 t i o n).pending = s.pending := by unfold State.bump64; split <;> [rfl; exact State.wr64_pending _ _ _]
@[simp] theorem State.bump64_free (t : PType) (i o n : Nat) : (s.bump64 t i o n).free = s.free := by unfold State.bump64; split <;> [rfl; exact State.wr64_free _ _ _]
@[simp] theorem State.bump64_perst (t : PType) (i o n : Nat) : (s.bump64 t i o n).perst = s.perst := by unfold State.bump64; split <;> [rfl; exact State.wr64_perst _ _ _]
@[simp] theorem State.bump64_powered (t : PType) (i o n : Nat) : (s.bump64 t i o n).powered = s.powered := by unfold State.bump64; split <;> [rfl; exact State.wr64_powered _ _ _]
@[simp] theorem State.bump64_railOk (t : PType) (i o n : Nat) : (s.bump64 t i o n).railOk = s.railOk := by unfold State.bump64; split <;> [rfl; exact State.wr64_railOk _ _ _]
@[simp] theorem State.bump64_queues (t : PType) (i o n : Nat) : (s.bump64 t i o n).queues = s.queues := by unfold State.bump64; split <;> [rfl; exact State.wr64_queues _ _ _]
@[simp] theorem State.bump64_host (t : PType) (i o n : Nat) : (s.bump64 t i o n).host = s.host := by unfold State.bump64; split <;> [rfl; exact State.wr64_host _ _ _]
@[simp] theorem State.bump64_mem (t : PType) (i o n : Nat) : (s.bump64 t i o n).mem = s.mem := by unfold State.bump64; split <;> [rfl; exact State.wr64_mem _ _ _]
@[simp] theorem State.bump64_parBad (t : PType) (i o n : Nat) : (s.bump64 t i o n).parBad = s.parBad := by unfold State.bump64; split <;> [rfl; exact State.wr64_parBad _ _ _]
@[simp] theorem State.bump64_lpmem (t : PType) (i o n : Nat) : (s.bump64 t i o n).lpmem = s.lpmem := by unfold State.bump64; split <;> [rfl; exact State.wr64_lpmem _ _ _]
@[simp] theorem State.bump64_lpBad (t : PType) (i o n : Nat) : (s.bump64 t i o n).lpBad = s.lpBad := by unfold State.bump64; split <;> [rfl; exact State.wr64_lpBad _ _ _]
@[simp] theorem State.bump64_arrays (t : PType) (i o n : Nat) : (s.bump64 t i o n).arrays = s.arrays := by unfold State.bump64; split <;> [rfl; exact State.wr64_arrays _ _ _]
@[simp] theorem State.bump64_tiles (t : PType) (i o n : Nat) : (s.bump64 t i o n).tiles = s.tiles := by unfold State.bump64; split <;> [rfl; exact State.wr64_tiles _ _ _]
@[simp] theorem State.bump64_clus (t : PType) (i o n : Nat) : (s.bump64 t i o n).clus = s.clus := by unfold State.bump64; split <;> [rfl; exact State.wr64_clus _ _ _]
@[simp] theorem State.bump64_ctxs (t : PType) (i o n : Nat) : (s.bump64 t i o n).ctxs = s.ctxs := by unfold State.bump64; split <;> [rfl; exact State.wr64_ctxs _ _ _]
@[simp] theorem State.bump64_cmps (t : PType) (i o n : Nat) : (s.bump64 t i o n).cmps = s.cmps := by unfold State.bump64; split <;> [rfl; exact State.wr64_cmps _ _ _]
@[simp] theorem State.bump64_ops (t : PType) (i o n : Nat) : (s.bump64 t i o n).ops = s.ops := by unfold State.bump64; split <;> [rfl; exact State.wr64_ops _ _ _]
@[simp] theorem State.bump64_nextOp (t : PType) (i o n : Nat) : (s.bump64 t i o n).nextOp = s.nextOp := by unfold State.bump64; split <;> [rfl; exact State.wr64_nextOp _ _ _]
@[simp] theorem State.bump64_gsem (t : PType) (i o n : Nat) : (s.bump64 t i o n).gsem = s.gsem := by unfold State.bump64; split <;> [rfl; exact State.wr64_gsem _ _ _]
@[simp] theorem State.bump64_units (t : PType) (i o n : Nat) : (s.bump64 t i o n).units = s.units := by unfold State.bump64; split <;> [rfl; exact State.wr64_units _ _ _]
@[simp] theorem State.bump64_reports (t : PType) (i o n : Nat) : (s.bump64 t i o n).reports = s.reports := by unfold State.bump64; split <;> [rfl; exact State.wr64_reports _ _ _]
@[simp] theorem State.bump64_events (t : PType) (i o n : Nat) : (s.bump64 t i o n).events = s.events := by unfold State.bump64; split <;> [rfl; exact State.wr64_events _ _ _]
@[simp] theorem State.bump64_invAll (t : PType) (i o n : Nat) : (s.bump64 t i o n).invAll = s.invAll := by unfold State.bump64; split <;> [rfl; exact State.wr64_invAll _ _ _]
@[simp] theorem State.bump64_epochCtr (t : PType) (i o n : Nat) : (s.bump64 t i o n).epochCtr = s.epochCtr := by unfold State.bump64; split <;> [rfl; exact State.wr64_epochCtr _ _ _]
@[simp] theorem State.bump64_jobs (t : PType) (i o n : Nat) : (s.bump64 t i o n).jobs = s.jobs := by unfold State.bump64; split <;> [rfl; exact State.wr64_jobs _ _ _]
@[simp] theorem State.bump64_carriers (t : PType) (i o n : Nat) : (s.bump64 t i o n).carriers = s.carriers := by unfold State.bump64; split <;> [rfl; exact State.wr64_carriers _ _ _]
@[simp] theorem State.bump64_fhp (t : PType) (i o n : Nat) : (s.bump64 t i o n).fhp = s.fhp := by unfold State.bump64; split <;> [rfl; exact State.wr64_fhp _ _ _]
@[simp] theorem State.bump64_col (t : PType) (i o n : Nat) : (s.bump64 t i o n).col = s.col := by unfold State.bump64; split <;> [rfl; exact State.wr64_col _ _ _]
@[simp] theorem State.bump64_hld (t : PType) (i o n : Nat) : (s.bump64 t i o n).hld = s.hld := by unfold State.bump64; split <;> [rfl; exact State.wr64_hld _ _ _]
@[simp] theorem State.bump64_hkc (t : PType) (i o n : Nat) : (s.bump64 t i o n).hkc = s.hkc := by unfold State.bump64; split <;> [rfl; exact State.wr64_hkc _ _ _]
@[simp] theorem State.bump64_thm (t : PType) (i o n : Nat) : (s.bump64 t i o n).thm = s.thm := by unfold State.bump64; split <;> [rfl; exact State.wr64_thm _ _ _]
@[simp] theorem State.bump64_doms (t : PType) (i o n : Nat) : (s.bump64 t i o n).doms = s.doms := by unfold State.bump64; split <;> [rfl; exact State.wr64_doms _ _ _]
@[simp] theorem State.bump64_xng (t : PType) (i o n : Nat) : (s.bump64 t i o n).xng = s.xng := by unfold State.bump64; split <;> [rfl; exact State.wr64_xng _ _ _]
@[simp] theorem State.bump64_qfreq (t : PType) (i o n : Nat) : (s.bump64 t i o n).qfreq = s.qfreq := by unfold State.bump64; split <;> [rfl; exact State.wr64_qfreq _ _ _]
@[simp] theorem State.bump64_lpx (t : PType) (i o n : Nat) : (s.bump64 t i o n).lpx = s.lpx := by unfold State.bump64; split <;> [rfl; exact State.wr64_lpx _ _ _]
@[simp] theorem State.bump64_dsy (t : PType) (i o n : Nat) : (s.bump64 t i o n).dsy = s.dsy := by unfold State.bump64; split <;> [rfl; exact State.wr64_dsy _ _ _]
@[simp] theorem State.bump64_chain (t : PType) (i o n : Nat) : (s.bump64 t i o n).chain = s.chain := by unfold State.bump64; split <;> [rfl; exact State.wr64_chain _ _ _]
@[simp] theorem State.bump64_cfg (t : PType) (i o n : Nat) : (s.bump64 t i o n).cfg = s.cfg := by unfold State.bump64; split <;> [rfl; exact State.wr64_cfg _ _ _]
@[simp] theorem State.bump64_sec (t : PType) (i o n : Nat) : (s.bump64 t i o n).sec = s.sec := by unfold State.bump64; split <;> [rfl; exact State.wr64_sec _ _ _]
@[simp] theorem State.bump64_tap (t : PType) (i o n : Nat) : (s.bump64 t i o n).tap = s.tap := by unfold State.bump64; split <;> [rfl; exact State.wr64_tap _ _ _]
@[simp] theorem State.arr_bump64 (t : PType) (i o n : Nat) (k : Nat) : (s.bump64 t i o n).arr k = s.arr k := by unfold State.bump64; split <;> [rfl; exact State.arr_wr64 _ _ _ _]
@[simp] theorem State.tile_bump64 (t : PType) (i o n : Nat) (k : Nat) : (s.bump64 t i o n).tile k = s.tile k := by unfold State.bump64; split <;> [rfl; exact State.tile_wr64 _ _ _ _]
@[simp] theorem State.clu_bump64 (t : PType) (i o n : Nat) (k : Nat) : (s.bump64 t i o n).clu k = s.clu k := by unfold State.bump64; split <;> [rfl; exact State.clu_wr64 _ _ _ _]
@[simp] theorem State.ctx_bump64 (t : PType) (i o n : Nat) (k : Nat) : (s.bump64 t i o n).ctx k = s.ctx k := by unfold State.bump64; split <;> [rfl; exact State.ctx_wr64 _ _ _ _]
@[simp] theorem State.cmp_bump64 (t : PType) (i o n : Nat) (k : Nat) : (s.bump64 t i o n).cmp k = s.cmp k := by unfold State.bump64; split <;> [rfl; exact State.cmp_wr64 _ _ _ _]
@[simp] theorem State.queue_bump64 (t : PType) (i o n : Nat) (k : Nat) : (s.bump64 t i o n).queue k = s.queue k := by unfold State.bump64; split <;> [rfl; exact State.queue_wr64 _ _ _ _]
@[simp] theorem State.unit_bump64 (t : PType) (i o n : Nat) (k : Nat) : (s.bump64 t i o n).unit k = s.unit k := by unfold State.bump64; split <;> [rfl; exact State.unit_wr64 _ _ _ _]
@[simp] theorem State.dom_bump64 (t : PType) (i o n : Nat) (k : Nat) : (s.bump64 t i o n).dom k = s.dom k := by unfold State.bump64; split <;> [rfl; exact State.dom_wr64 _ _ _ _]
@[simp] theorem State.gs_bump64 (t : PType) (i o n : Nat) (k : Nat) : (s.bump64 t i o n).gs k = s.gs k := by unfold State.bump64; split <;> [rfl; exact State.gs_wr64 _ _ _ _]
@[simp] theorem State.memByte_bump64 (t : PType) (i o n : Nat) (k : Nat) : (s.bump64 t i o n).memByte k = s.memByte k := by unfold State.bump64; split <;> [rfl; exact State.memByte_wr64 _ _ _ _]
@[simp] theorem State.lpByte_bump64 (t : PType) (i o n : Nat) (k : Nat) : (s.bump64 t i o n).lpByte k = s.lpByte k := by unfold State.bump64; split <;> [rfl; exact State.lpByte_wr64 _ _ _ _]

end Sys2Proof.Machine
end

