-- ==== Sys2Proof/Laws/Memory.lean ====
section
/-!
SUPPORT. Sys2Proof/Laws/Memory.lean: what the memory operations do, once each: the bytes read after a write, and the
canonical form that every one of them keeps.
-/
namespace Sys2Proof.Machine

/-! ### Canonical form -/

theorem memWrite_wf (s : State) (a : Nat) (bs : List Byte) (h : Memory.wf s.mem = true) : Memory.wf (s.memWrite a bs).mem = true :=
  writeBytes_wf 0 bs s.mem a h

/-- Bytes cleared by a march or by a loss of power leave the canonical form. -/
theorem memory_filter_wf (p : Nat × Byte → Bool) (m : FMap Byte) (h : Memory.wf m = true) : Memory.wf (m.filter p) = true :=
  FMap.wf_filter _ p m h

/-- A run of equal bytes written over an extent keeps the canonical form. -/
theorem fillBytes_wf (m : FMap Byte) (a n : Nat) (b : Byte) (h : Memory.wf m = true) : Memory.wf (fillBytes 0 m a n b) = true := by
  have hlo : ∀ p ∈ m.filter (fun p => decide (p.1 < a)), p.1 < a := fun p hp => by simpa using (List.mem_filter.mp hp).2
  have hhi : ∀ p ∈ m.filter (fun p => decide (a + n ≤ p.1)), a + n ≤ p.1 := fun p hp => by simpa using (List.mem_filter.mp hp).2
  have wlo := FMap.wf_filter (fun _ => 0#8) (fun p => decide (p.1 < a)) m h
  have whi := FMap.wf_filter (fun _ => 0#8) (fun p => decide (a + n ≤ p.1)) m h
  unfold fillBytes
  split
  · rw [List.append_nil]
    exact FMap.wfFrom_append _ a _ whi (fun p hp => le_trans (Nat.le_add_right a n) (hhi p hp)) _ none (by simp) hlo wlo
  · next hb =>
    have hrun := FMap.wf_run (0#8) b hb a n
    rw [List.append_assoc]
    refine FMap.wfFrom_append _ a _ ?_ ?_ _ none (by simp) hlo wlo
    · refine FMap.wfFrom_append _ (a + n) _ whi hhi _ none (by simp) ?_ hrun
      intro p hp
      obtain ⟨i, hi, rfl⟩ := List.mem_map.mp hp
      have := List.mem_range.mp hi
      show a + i < a + n
      omega
    · intro p hp
      rcases List.mem_append.mp hp with hp | hp
      · obtain ⟨i, _, rfl⟩ := List.mem_map.mp hp
        exact Nat.le_add_right a i
      · exact le_trans (Nat.le_add_right a n) (hhi p hp)

/-! ### Bytes read after a write -/

/-- After a write, a byte inside the extent reads as written and every other byte as before. -/
theorem memByte_memWrite (s : State) (a : Nat) (bs : List Byte) (x : Nat) :
    (s.memWrite a bs).memByte x = if a ≤ x ∧ x < a + bs.length then nth 0#8 bs (x - a) else s.memByte x :=
  get_writeBytes 0#8 bs s.mem a x

@[simp] theorem lpByte_memWrite (s : State) (a : Nat) (bs : List Byte) (x : Nat) : (s.memWrite a bs).lpByte x = s.lpByte x := rfl

/-- An engine's write at an address whose top bit is clear goes to the galley and the scratchpads. -/
theorem memByte_engWrite (s : State) {a : Nat} (bs : List Byte) (x : Nat) (h : a < 2 ^ 63) :
    (s.engWrite a bs).memByte x = if a ≤ x ∧ x < a + bs.length then nth 0#8 bs (x - a) else s.memByte x := by
  unfold State.engWrite
  rw [if_neg (by omega)]
  exact memByte_memWrite s a bs x

theorem lpByte_lpWrite (s : State) (a : Nat) (bs : List Byte) (x : Nat) :
    (s.lpWrite a bs).lpByte x = if a ≤ x ∧ x < a + bs.length then nth 0#8 bs (x - a) else s.lpByte x := by
  unfold State.lpWrite
  simp only [State.lpByte_bump64]
  exact get_writeBytes 0#8 bs s.lpmem a x

/-- With it set, it goes to the LPDDR5X (R290). -/
theorem lpByte_engWrite (s : State) {a : Nat} (bs : List Byte) (x : Nat) (h : 2 ^ 63 ≤ a) :
    (s.engWrite a bs).lpByte x = if a % 2 ^ 63 ≤ x ∧ x < a % 2 ^ 63 + bs.length then nth 0#8 bs (x - a % 2 ^ 63) else s.lpByte x := by
  unfold State.engWrite
  rw [if_pos h]
  exact lpByte_lpWrite s _ bs x

/-- What an engine's write leaves in memory depends on memory alone. -/
theorem engWrite_mem_congr {s u : State} (a : Nat) (bs : List Byte) (h : u.mem = s.mem) : (u.engWrite a bs).mem = (s.engWrite a bs).mem := by
  unfold State.engWrite State.lpWrite State.memWrite
  split
  · simp [h]
  · simp [h]
theorem engWrite_lpmem_congr {s u : State} (a : Nat) (bs : List Byte) (h : u.lpmem = s.lpmem) : (u.engWrite a bs).lpmem = (s.engWrite a bs).lpmem := by
  unfold State.engWrite State.lpWrite State.memWrite
  split
  · simp [h]
  · simp [h]

end Sys2Proof.Machine
end

