-- ==== Sys2Proof/Laws/Issue.lean ====
section
/-!
SUPPORT. Sys2Proof/Laws/Issue.lean: the issuing and retiring of instructions: what each shared operation leaves as it was, and
what it does to its stream, its semaphore and the operations under way.
-/
set_option linter.all false
namespace Sys2Proof.Machine

variable (s : State)

theorem State.setStream_keep (s : State) (ctx i : Nat) (st : StreamSt) : (s.setStream ctx i st).regs = s.regs ∧ (s.setStream ctx i st).pages = s.pages ∧ (s.setStream ctx i st).queues = s.queues ∧ (s.setStream ctx i st).host = s.host ∧ (s.setStream ctx i st).mem = s.mem ∧ (s.setStream ctx i st).parBad = s.parBad ∧ (s.setStream ctx i st).lpmem = s.lpmem ∧ (s.setStream ctx i st).lpBad = s.lpBad ∧ (s.setStream ctx i st).arrays = s.arrays ∧ (s.setStream ctx i st).tiles = s.tiles ∧ (s.setStream ctx i st).clus = s.clus ∧ (s.setStream ctx i st).ops = s.ops ∧ (s.setStream ctx i st).gsem = s.gsem ∧ (s.setStream ctx i st).reports = s.reports ∧ (s.setStream ctx i st).events = s.events ∧ (s.setStream ctx i st).jobs = s.jobs ∧ (s.setStream ctx i st).doms = s.doms ∧ (s.setStream ctx i st).chain = s.chain := by unfold State.setStream; (try dsimp only); (repeat' split) <;> simp
@[simp] theorem State.setStream_regs (s : State) (ctx i : Nat) (st : StreamSt) : (s.setStream ctx i st).regs = s.regs := (State.setStream_keep s ctx i st).1
@[simp] theorem State.setStream_pages (s : State) (ctx i : Nat) (st : StreamSt) : (s.setStream ctx i st).pages = s.pages := (State.setStream_keep s ctx i st).2.1
@[simp] theorem State.setStream_queues (s : State) (ctx i : Nat) (st : StreamSt) : (s.setStream ctx i st).queues = s.queues := (State.setStream_keep s ctx i st).2.2.1
@[simp] theorem State.setStream_host (s : State) (ctx i : Nat) (st : StreamSt) : (s.setStream ctx i st).host = s.host := (State.setStream_keep s ctx i st).2.2.2.1
@[simp] theorem State.setStream_mem (s : State) (ctx i : Nat) (st : StreamSt) : (s.setStream ctx i st).mem = s.mem := (State.setStream_keep s ctx i st).2.2.2.2.1
@[simp] theorem State.setStream_parBad (s : State) (ctx i : Nat) (st : StreamSt) : (s.setStream ctx i st).parBad = s.parBad := (State.setStream_keep s ctx i st).2.2.2.2.2.1
@[simp] theorem State.setStream_lpmem (s : State) (ctx i : Nat) (st : StreamSt) : (s.setStream ctx i st).lpmem = s.lpmem := (State.setStream_keep s ctx i st).2.2.2.2.2.2.1
@[simp] theorem State.setStream_lpBad (s : State) (ctx i : Nat) (st : StreamSt) : (s.setStream ctx i st).lpBad = s.lpBad := (State.setStream_keep s ctx i st).2.2.2.2.2.2.2.1
@[simp] theorem State.setStream_arrays (s : State) (ctx i : Nat) (st : StreamSt) : (s.setStream ctx i st).arrays = s.arrays := (State.setStream_keep s ctx i st).2.2.2.2.2.2.2.2.1
@[simp] theorem State.setStream_tiles (s : State) (ctx i : Nat) (st : StreamSt) : (s.setStream ctx i st).tiles = s.tiles := (State.setStream_keep s ctx i st).2.2.2.2.2.2.2.2.2.1
@[simp] theorem State.setStream_clus (s : State) (ctx i : Nat) (st : StreamSt) : (s.setStream ctx i st).clus = s.clus := (State.setStream_keep s ctx i st).2.2.2.2.2.2.2.2.2.2.1
@[simp] theorem State.setStream_ops (s : State) (ctx i : Nat) (st : StreamSt) : (s.setStream ctx i st).ops = s.ops := (State.setStream_keep s ctx i st).2.2.2.2.2.2.2.2.2.2.2.1
@[simp] theorem State.setStream_gsem (s : State) (ctx i : Nat) (st : StreamSt) : (s.setStream ctx i st).gsem = s.gsem := (State.setStream_keep s ctx i st).2.2.2.2.2.2.2.2.2.2.2.2.1
@[simp] theorem State.setStream_reports (s : State) (ctx i : Nat) (st : StreamSt) : (s.setStream ctx i st).reports = s.reports := (State.setStream_keep s ctx i st).2.2.2.2.2.2.2.2.2.2.2.2.2.1
@[simp] theorem State.setStream_events (s : State) (ctx i : Nat) (st : StreamSt) : (s.setStream ctx i st).events = s.events := (State.setStream_keep s ctx i st).2.2.2.2.2.2.2.2.2.2.2.2.2.2.1
@[simp] theorem State.setStream_jobs (s : State) (ctx i : Nat) (st : StreamSt) : (s.setStream ctx i st).jobs = s.jobs := (State.setStream_keep s ctx i st).2.2.2.2.2.2.2.2.2.2.2.2.2.2.2.1
@[simp] theorem State.setStream_doms (s : State) (ctx i : Nat) (st : StreamSt) : (s.setStream ctx i st).doms = s.doms := (State.setStream_keep s ctx i st).2.2.2.2.2.2.2.2.2.2.2.2.2.2.2.2.1
@[simp] theorem State.setStream_chain (s : State) (ctx i : Nat) (st : StreamSt) : (s.setStream ctx i st).chain = s.chain := (State.setStream_keep s ctx i st).2.2.2.2.2.2.2.2.2.2.2.2.2.2.2.2.2
@[simp] theorem State.setStream_arr_keep (s : State) (ctx i : Nat) (st : StreamSt) (key : Nat) : (s.setStream ctx i st).arr key = s.arr key := by unfold State.arr; rw [State.setStream_arrays]
@[simp] theorem State.setStream_tile_keep (s : State) (ctx i : Nat) (st : StreamSt) (key : Nat) : (s.setStream ctx i st).tile key = s.tile key := by unfold State.tile; rw [State.setStream_tiles]
@[simp] theorem State.setStream_clu_keep (s : State) (ctx i : Nat) (st : StreamSt) (key : Nat) : (s.setStream ctx i st).clu key = s.clu key := by unfold State.clu; rw [State.setStream_clus]
@[simp] theorem State.setStream_queue_keep (s : State) (ctx i : Nat) (st : StreamSt) (key : Nat) : (s.setStream ctx i st).queue key = s.queue key := by unfold State.queue; rw [State.setStream_queues]
@[simp] theorem State.setStream_page_keep (s : State) (ctx i : Nat) (st : StreamSt) (key : Nat) : (s.setStream ctx i st).page key = s.page key := by unfold State.page; rw [State.setStream_pages]
@[simp] theorem State.setStream_dom_keep (s : State) (ctx i : Nat) (st : StreamSt) (key : Nat) : (s.setStream ctx i st).dom key = s.dom key := by unfold State.dom; rw [State.setStream_doms]
@[simp] theorem State.setStream_gs_keep (s : State) (ctx i : Nat) (st : StreamSt) (key : Nat) : (s.setStream ctx i st).gs key = s.gs key := by unfold State.gs; rw [State.setStream_gsem]
@[simp] theorem State.setStream_rd_keep (s : State) (ctx i : Nat) (st : StreamSt) (key : Nat) : (s.setStream ctx i st).rd key = s.rd key := by unfold State.rd; rw [State.setStream_regs]
@[simp] theorem State.setStream_memByte_keep (s : State) (ctx i : Nat) (st : StreamSt) (key : Nat) : (s.setStream ctx i st).memByte key = s.memByte key := by unfold State.memByte; rw [State.setStream_mem]
@[simp] theorem State.setStream_lpByte_keep (s : State) (ctx i : Nat) (st : StreamSt) (key : Nat) : (s.setStream ctx i st).lpByte key = s.lpByte key := by unfold State.lpByte; rw [State.setStream_lpmem]

theorem State.issued_keep (s : State) (st : StreamSt) : (s.issued st).queues = s.queues ∧ (s.issued st).host = s.host ∧ (s.issued st).mem = s.mem ∧ (s.issued st).parBad = s.parBad ∧ (s.issued st).lpmem = s.lpmem ∧ (s.issued st).lpBad = s.lpBad ∧ (s.issued st).arrays = s.arrays ∧ (s.issued st).tiles = s.tiles ∧ (s.issued st).clus = s.clus ∧ (s.issued st).ctxs = s.ctxs ∧ (s.issued st).ops = s.ops ∧ (s.issued st).gsem = s.gsem ∧ (s.issued st).reports = s.reports ∧ (s.issued st).events = s.events ∧ (s.issued st).jobs = s.jobs ∧ (s.issued st).doms = s.doms ∧ (s.issued st).chain = s.chain := by unfold State.issued; (try dsimp only); (repeat' split) <;> simp
@[simp] theorem State.issued_queues (s : State) (st : StreamSt) : (s.issued st).queues = s.queues := (State.issued_keep s st).1
@[simp] theorem State.issued_host (s : State) (st : StreamSt) : (s.issued st).host = s.host := (State.issued_keep s st).2.1
@[simp] theorem State.issued_mem (s : State) (st : StreamSt) : (s.issued st).mem = s.mem := (State.issued_keep s st).2.2.1
@[simp] theorem State.issued_parBad (s : State) (st : StreamSt) : (s.issued st).parBad = s.parBad := (State.issued_keep s st).2.2.2.1
@[simp] theorem State.issued_lpmem (s : State) (st : StreamSt) : (s.issued st).lpmem = s.lpmem := (State.issued_keep s st).2.2.2.2.1
@[simp] theorem State.issued_lpBad (s : State) (st : StreamSt) : (s.issued st).lpBad = s.lpBad := (State.issued_keep s st).2.2.2.2.2.1
@[simp] theorem State.issued_arrays (s : State) (st : StreamSt) : (s.issued st).arrays = s.arrays := (State.issued_keep s st).2.2.2.2.2.2.1
@[simp] theorem State.issued_tiles (s : State) (st : StreamSt) : (s.issued st).tiles = s.tiles := (State.issued_keep s st).2.2.2.2.2.2.2.1
@[simp] theorem State.issued_clus (s : State) (st : StreamSt) : (s.issued st).clus = s.clus := (State.issued_keep s st).2.2.2.2.2.2.2.2.1
@[simp] theorem State.issued_ctxs (s : State) (st : StreamSt) : (s.issued st).ctxs = s.ctxs := (State.issued_keep s st).2.2.2.2.2.2.2.2.2.1
@[simp] theorem State.issued_ops (s : State) (st : StreamSt) : (s.issued st).ops = s.ops := (State.issued_keep s st).2.2.2.2.2.2.2.2.2.2.1
@[simp] theorem State.issued_gsem (s : State) (st : StreamSt) : (s.issued st).gsem = s.gsem := (State.issued_keep s st).2.2.2.2.2.2.2.2.2.2.2.1
@[simp] theorem State.issued_reports (s : State) (st : StreamSt) : (s.issued st).reports = s.reports := (State.issued_keep s st).2.2.2.2.2.2.2.2.2.2.2.2.1
@[simp] theorem State.issued_events (s : State) (st : StreamSt) : (s.issued st).events = s.events := (State.issued_keep s st).2.2.2.2.2.2.2.2.2.2.2.2.2.1
@[simp] theorem State.issued_jobs (s : State) (st : StreamSt) : (s.issued st).jobs = s.jobs := (State.issued_keep s st).2.2.2.2.2.2.2.2.2.2.2.2.2.2.1
@[simp] theorem State.issued_doms (s : State) (st : StreamSt) : (s.issued st).doms = s.doms := (State.issued_keep s st).2.2.2.2.2.2.2.2.2.2.2.2.2.2.2.1
@[simp] theorem State.issued_chain (s : State) (st : StreamSt) : (s.issued st).chain = s.chain := (State.issued_keep s st).2.2.2.2.2.2.2.2.2.2.2.2.2.2.2.2
@[simp] theorem State.issued_arr_keep (s : State) (st : StreamSt) (key : Nat) : (s.issued st).arr key = s.arr key := by unfold State.arr; rw [State.issued_arrays]
@[simp] theorem State.issued_tile_keep (s : State) (st : StreamSt) (key : Nat) : (s.issued st).tile key = s.tile key := by unfold State.tile; rw [State.issued_tiles]
@[simp] theorem State.issued_clu_keep (s : State) (st : StreamSt) (key : Nat) : (s.issued st).clu key = s.clu key := by unfold State.clu; rw [State.issued_clus]
@[simp] theorem State.issued_ctx_keep (s : State) (st : StreamSt) (key : Nat) : (s.issued st).ctx key = s.ctx key := by unfold State.ctx; rw [State.issued_ctxs]
@[simp] theorem State.issued_queue_keep (s : State) (st : StreamSt) (key : Nat) : (s.issued st).queue key = s.queue key := by unfold State.queue; rw [State.issued_queues]
@[simp] theorem State.issued_dom_keep (s : State) (st : StreamSt) (key : Nat) : (s.issued st).dom key = s.dom key := by unfold State.dom; rw [State.issued_doms]
@[simp] theorem State.issued_gs_keep (s : State) (st : StreamSt) (key : Nat) : (s.issued st).gs key = s.gs key := by unfold State.gs; rw [State.issued_gsem]
@[simp] theorem State.issued_memByte_keep (s : State) (st : StreamSt) (key : Nat) : (s.issued st).memByte key = s.memByte key := by unfold State.memByte; rw [State.issued_mem]
@[simp] theorem State.issued_lpByte_keep (s : State) (st : StreamSt) (key : Nat) : (s.issued st).lpByte key = s.lpByte key := by unfold State.lpByte; rw [State.issued_lpmem]

theorem State.stopAt_keep (s : State) (ctx stream : Nat) (c : Code) : (s.stopAt ctx stream c).pages = s.pages ∧ (s.stopAt ctx stream c).queues = s.queues ∧ (s.stopAt ctx stream c).host = s.host ∧ (s.stopAt ctx stream c).mem = s.mem ∧ (s.stopAt ctx stream c).parBad = s.parBad ∧ (s.stopAt ctx stream c).lpmem = s.lpmem ∧ (s.stopAt ctx stream c).lpBad = s.lpBad ∧ (s.stopAt ctx stream c).arrays = s.arrays ∧ (s.stopAt ctx stream c).tiles = s.tiles ∧ (s.stopAt ctx stream c).clus = s.clus ∧ (s.stopAt ctx stream c).ops = s.ops ∧ (s.stopAt ctx stream c).gsem = s.gsem ∧ (s.stopAt ctx stream c).reports = s.reports ∧ (s.stopAt ctx stream c).events = s.events ∧ (s.stopAt ctx stream c).jobs = s.jobs ∧ (s.stopAt ctx stream c).doms = s.doms ∧ (s.stopAt ctx stream c).chain = s.chain := by unfold State.stopAt; (try dsimp only); (repeat' split) <;> simp
@[simp] theorem State.stopAt_pages (s : State) (ctx stream : Nat) (c : Code) : (s.stopAt ctx stream c).pages = s.pages := (State.stopAt_keep s ctx stream c).1
@[simp] theorem State.stopAt_queues (s : State) (ctx stream : Nat) (c : Code) : (s.stopAt ctx stream c).queues = s.queues := (State.stopAt_keep s ctx stream c).2.1
@[simp] theorem State.stopAt_host (s : State) (ctx stream : Nat) (c : Code) : (s.stopAt ctx stream c).host = s.host := (State.stopAt_keep s ctx stream c).2.2.1
@[simp] theorem State.stopAt_mem (s : State) (ctx stream : Nat) (c : Code) : (s.stopAt ctx stream c).mem = s.mem := (State.stopAt_keep s ctx stream c).2.2.2.1
@[simp] theorem State.stopAt_parBad (s : State) (ctx stream : Nat) (c : Code) : (s.stopAt ctx stream c).parBad = s.parBad := (State.stopAt_keep s ctx stream c).2.2.2.2.1
@[simp] theorem State.stopAt_lpmem (s : State) (ctx stream : Nat) (c : Code) : (s.stopAt ctx stream c).lpmem = s.lpmem := (State.stopAt_keep s ctx stream c).2.2.2.2.2.1
@[simp] theorem State.stopAt_lpBad (s : State) (ctx stream : Nat) (c : Code) : (s.stopAt ctx stream c).lpBad = s.lpBad := (State.stopAt_keep s ctx stream c).2.2.2.2.2.2.1
@[simp] theorem State.stopAt_arrays (s : State) (ctx stream : Nat) (c : Code) : (s.stopAt ctx stream c).arrays = s.arrays := (State.stopAt_keep s ctx stream c).2.2.2.2.2.2.2.1
@[simp] theorem State.stopAt_tiles (s : State) (ctx stream : Nat) (c : Code) : (s.stopAt ctx stream c).tiles = s.tiles := (State.stopAt_keep s ctx stream c).2.2.2.2.2.2.2.2.1
@[simp] theorem State.stopAt_clus (s : State) (ctx stream : Nat) (c : Code) : (s.stopAt ctx stream c).clus = s.clus := (State.stopAt_keep s ctx stream c).2.2.2.2.2.2.2.2.2.1
@[simp] theorem State.stopAt_ops (s : State) (ctx stream : Nat) (c : Code) : (s.stopAt ctx stream c).ops = s.ops := (State.stopAt_keep s ctx stream c).2.2.2.2.2.2.2.2.2.2.1
@[simp] theorem State.stopAt_gsem (s : State) (ctx stream : Nat) (c : Code) : (s.stopAt ctx stream c).gsem = s.gsem := (State.stopAt_keep s ctx stream c).2.2.2.2.2.2.2.2.2.2.2.1
@[simp] theorem State.stopAt_reports (s : State) (ctx stream : Nat) (c : Code) : (s.stopAt ctx stream c).reports = s.reports := (State.stopAt_keep s ctx stream c).2.2.2.2.2.2.2.2.2.2.2.2.1
@[simp] theorem State.stopAt_events (s : State) (ctx stream : Nat) (c : Code) : (s.stopAt ctx stream c).events = s.events := (State.stopAt_keep s ctx stream c).2.2.2.2.2.2.2.2.2.2.2.2.2.1
@[simp] theorem State.stopAt_jobs (s : State) (ctx stream : Nat) (c : Code) : (s.stopAt ctx stream c).jobs = s.jobs := (State.stopAt_keep s ctx stream c).2.2.2.2.2.2.2.2.2.2.2.2.2.2.1
@[simp] theorem State.stopAt_doms (s : State) (ctx stream : Nat) (c : Code) : (s.stopAt ctx stream c).doms = s.doms := (State.stopAt_keep s ctx stream c).2.2.2.2.2.2.2.2.2.2.2.2.2.2.2.1
@[simp] theorem State.stopAt_chain (s : State) (ctx stream : Nat) (c : Code) : (s.stopAt ctx stream c).chain = s.chain := (State.stopAt_keep s ctx stream c).2.2.2.2.2.2.2.2.2.2.2.2.2.2.2.2
@[simp] theorem State.stopAt_arr_keep (s : State) (ctx stream : Nat) (c : Code) (key : Nat) : (s.stopAt ctx stream c).arr key = s.arr key := by unfold State.arr; rw [State.stopAt_arrays]
@[simp] theorem State.stopAt_tile_keep (s : State) (ctx stream : Nat) (c : Code) (key : Nat) : (s.stopAt ctx stream c).tile key = s.tile key := by unfold State.tile; rw [State.stopAt_tiles]
@[simp] theorem State.stopAt_clu_keep (s : State) (ctx stream : Nat) (c : Code) (key : Nat) : (s.stopAt ctx stream c).clu key = s.clu key := by unfold State.clu; rw [State.stopAt_clus]
@[simp] theorem State.stopAt_queue_keep (s : State) (ctx stream : Nat) (c : Code) (key : Nat) : (s.stopAt ctx stream c).queue key = s.queue key := by unfold State.queue; rw [State.stopAt_queues]
@[simp] theorem State.stopAt_page_keep (s : State) (ctx stream : Nat) (c : Code) (key : Nat) : (s.stopAt ctx stream c).page key = s.page key := by unfold State.page; rw [State.stopAt_pages]
@[simp] theorem State.stopAt_dom_keep (s : State) (ctx stream : Nat) (c : Code) (key : Nat) : (s.stopAt ctx stream c).dom key = s.dom key := by unfold State.dom; rw [State.stopAt_doms]
@[simp] theorem State.stopAt_gs_keep (s : State) (ctx stream : Nat) (c : Code) (key : Nat) : (s.stopAt ctx stream c).gs key = s.gs key := by unfold State.gs; rw [State.stopAt_gsem]
@[simp] theorem State.stopAt_memByte_keep (s : State) (ctx stream : Nat) (c : Code) (key : Nat) : (s.stopAt ctx stream c).memByte key = s.memByte key := by unfold State.memByte; rw [State.stopAt_mem]
@[simp] theorem State.stopAt_lpByte_keep (s : State) (ctx stream : Nat) (c : Code) (key : Nat) : (s.stopAt ctx stream c).lpByte key = s.lpByte key := by unfold State.lpByte; rw [State.stopAt_lpmem]

theorem State.rise_keep (s : State) (o : Op) : (s.rise o).pages = s.pages ∧ (s.rise o).queues = s.queues ∧ (s.rise o).host = s.host ∧ (s.rise o).mem = s.mem ∧ (s.rise o).parBad = s.parBad ∧ (s.rise o).lpmem = s.lpmem ∧ (s.rise o).lpBad = s.lpBad ∧ (s.rise o).arrays = s.arrays ∧ (s.rise o).tiles = s.tiles ∧ (s.rise o).clus = s.clus ∧ (s.rise o).ops = s.ops ∧ (s.rise o).reports = s.reports ∧ (s.rise o).events = s.events ∧ (s.rise o).jobs = s.jobs ∧ (s.rise o).doms = s.doms ∧ (s.rise o).chain = s.chain := by unfold State.rise; (try dsimp only); (repeat' split) <;> simp
@[simp] theorem State.rise_pages (s : State) (o : Op) : (s.rise o).pages = s.pages := (State.rise_keep s o).1
@[simp] theorem State.rise_queues (s : State) (o : Op) : (s.rise o).queues = s.queues := (State.rise_keep s o).2.1
@[simp] theorem State.rise_host (s : State) (o : Op) : (s.rise o).host = s.host := (State.rise_keep s o).2.2.1
@[simp] theorem State.rise_mem (s : State) (o : Op) : (s.rise o).mem = s.mem := (State.rise_keep s o).2.2.2.1
@[simp] theorem State.rise_parBad (s : State) (o : Op) : (s.rise o).parBad = s.parBad := (State.rise_keep s o).2.2.2.2.1
@[simp] theorem State.rise_lpmem (s : State) (o : Op) : (s.rise o).lpmem = s.lpmem := (State.rise_keep s o).2.2.2.2.2.1
@[simp] theorem State.rise_lpBad (s : State) (o : Op) : (s.rise o).lpBad = s.lpBad := (State.rise_keep s o).2.2.2.2.2.2.1
@[simp] theorem State.rise_arrays (s : State) (o : Op) : (s.rise o).arrays = s.arrays := (State.rise_keep s o).2.2.2.2.2.2.2.1
@[simp] theorem State.rise_tiles (s : State) (o : Op) : (s.rise o).tiles = s.tiles := (State.rise_keep s o).2.2.2.2.2.2.2.2.1
@[simp] theorem State.rise_clus (s : State) (o : Op) : (s.rise o).clus = s.clus := (State.rise_keep s o).2.2.2.2.2.2.2.2.2.1
@[simp] theorem State.rise_ops (s : State) (o : Op) : (s.rise o).ops = s.ops := (State.rise_keep s o).2.2.2.2.2.2.2.2.2.2.1
@[simp] theorem State.rise_reports (s : State) (o : Op) : (s.rise o).reports = s.reports := (State.rise_keep s o).2.2.2.2.2.2.2.2.2.2.2.1
@[simp] theorem State.rise_events (s : State) (o : Op) : (s.rise o).events = s.events := (State.rise_keep s o).2.2.2.2.2.2.2.2.2.2.2.2.1
@[simp] theorem State.rise_jobs (s : State) (o : Op) : (s.rise o).jobs = s.jobs := (State.rise_keep s o).2.2.2.2.2.2.2.2.2.2.2.2.2.1
@[simp] theorem State.rise_doms (s : State) (o : Op) : (s.rise o).doms = s.doms := (State.rise_keep s o).2.2.2.2.2.2.2.2.2.2.2.2.2.2.1
@[simp] theorem State.rise_chain (s : State) (o : Op) : (s.rise o).chain = s.chain := (State.rise_keep s o).2.2.2.2.2.2.2.2.2.2.2.2.2.2.2
@[simp] theorem State.rise_arr_keep (s : State) (o : Op) (key : Nat) : (s.rise o).arr key = s.arr key := by unfold State.arr; rw [State.rise_arrays]
@[simp] theorem State.rise_tile_keep (s : State) (o : Op) (key : Nat) : (s.rise o).tile key = s.tile key := by unfold State.tile; rw [State.rise_tiles]
@[simp] theorem State.rise_clu_keep (s : State) (o : Op) (key : Nat) : (s.rise o).clu key = s.clu key := by unfold State.clu; rw [State.rise_clus]
@[simp] theorem State.rise_queue_keep (s : State) (o : Op) (key : Nat) : (s.rise o).queue key = s.queue key := by unfold State.queue; rw [State.rise_queues]
@[simp] theorem State.rise_page_keep (s : State) (o : Op) (key : Nat) : (s.rise o).page key = s.page key := by unfold State.page; rw [State.rise_pages]
@[simp] theorem State.rise_dom_keep (s : State) (o : Op) (key : Nat) : (s.rise o).dom key = s.dom key := by unfold State.dom; rw [State.rise_doms]
@[simp] theorem State.rise_memByte_keep (s : State) (o : Op) (key : Nat) : (s.rise o).memByte key = s.memByte key := by unfold State.memByte; rw [State.rise_mem]
@[simp] theorem State.rise_lpByte_keep (s : State) (o : Op) (key : Nat) : (s.rise o).lpByte key = s.lpByte key := by unfold State.lpByte; rw [State.rise_lpmem]

theorem State.control_keep (s : State) (ctx i : Nat) (st st' : StreamSt) (next : Nat) : (s.control ctx i st st' next).queues = s.queues ∧ (s.control ctx i st st' next).host = s.host ∧ (s.control ctx i st st' next).mem = s.mem ∧ (s.control ctx i st st' next).parBad = s.parBad ∧ (s.control ctx i st st' next).lpmem = s.lpmem ∧ (s.control ctx i st st' next).lpBad = s.lpBad ∧ (s.control ctx i st st' next).arrays = s.arrays ∧ (s.control ctx i st st' next).tiles = s.tiles ∧ (s.control ctx i st st' next).clus = s.clus ∧ (s.control ctx i st st' next).ops = s.ops ∧ (s.control ctx i st st' next).gsem = s.gsem ∧ (s.control ctx i st st' next).reports = s.reports ∧ (s.control ctx i st st' next).events = s.events ∧ (s.control ctx i st st' next).jobs = s.jobs ∧ (s.control ctx i st st' next).doms = s.doms ∧ (s.control ctx i st st' next).chain = s.chain := by unfold State.control; (try dsimp only); (repeat' split) <;> simp
@[simp] theorem State.control_queues (s : State) (ctx i : Nat) (st st' : StreamSt) (next : Nat) : (s.control ctx i st st' next).queues = s.queues := (State.control_keep s ctx i st st' next).1
@[simp] theorem State.control_host (s : State) (ctx i : Nat) (st st' : StreamSt) (next : Nat) : (s.control ctx i st st' next).host = s.host := (State.control_keep s ctx i st st' next).2.1
@[simp] theorem State.control_mem (s : State) (ctx i : Nat) (st st' : StreamSt) (next : Nat) : (s.control ctx i st st' next).mem = s.mem := (State.control_keep s ctx i st st' next).2.2.1
@[simp] theorem State.control_parBad (s : State) (ctx i : Nat) (st st' : StreamSt) (next : Nat) : (s.control ctx i st st' next).parBad = s.parBad := (State.control_keep s ctx i st st' next).2.2.2.1
@[simp] theorem State.control_lpmem (s : State) (ctx i : Nat) (st st' : StreamSt) (next : Nat) : (s.control ctx i st st' next).lpmem = s.lpmem := (State.control_keep s ctx i st st' next).2.2.2.2.1
@[simp] theorem State.control_lpBad (s : State) (ctx i : Nat) (st st' : StreamSt) (next : Nat) : (s.control ctx i st st' next).lpBad = s.lpBad := (State.control_keep s ctx i st st' next).2.2.2.2.2.1
@[simp] theorem State.control_arrays (s : State) (ctx i : Nat) (st st' : StreamSt) (next : Nat) : (s.control ctx i st st' next).arrays = s.arrays := (State.control_keep s ctx i st st' next).2.2.2.2.2.2.1
@[simp] theorem State.control_tiles (s : State) (ctx i : Nat) (st st' : StreamSt) (next : Nat) : (s.control ctx i st st' next).tiles = s.tiles := (State.control_keep s ctx i st st' next).2.2.2.2.2.2.2.1
@[simp] theorem State.control_clus (s : State) (ctx i : Nat) (st st' : StreamSt) (next : Nat) : (s.control ctx i st st' next).clus = s.clus := (State.control_keep s ctx i st st' next).2.2.2.2.2.2.2.2.1
@[simp] theorem State.control_ops (s : State) (ctx i : Nat) (st st' : StreamSt) (next : Nat) : (s.control ctx i st st' next).ops = s.ops := (State.control_keep s ctx i st st' next).2.2.2.2.2.2.2.2.2.1
@[simp] theorem State.control_gsem (s : State) (ctx i : Nat) (st st' : StreamSt) (next : Nat) : (s.control ctx i st st' next).gsem = s.gsem := (State.control_keep s ctx i st st' next).2.2.2.2.2.2.2.2.2.2.1
@[simp] theorem State.control_reports (s : State) (ctx i : Nat) (st st' : StreamSt) (next : Nat) : (s.control ctx i st st' next).reports = s.reports := (State.control_keep s ctx i st st' next).2.2.2.2.2.2.2.2.2.2.2.1
@[simp] theorem State.control_events (s : State) (ctx i : Nat) (st st' : StreamSt) (next : Nat) : (s.control ctx i st st' next).events = s.events := (State.control_keep s ctx i st st' next).2.2.2.2.2.2.2.2.2.2.2.2.1
@[simp] theorem State.control_jobs (s : State) (ctx i : Nat) (st st' : StreamSt) (next : Nat) : (s.control ctx i st st' next).jobs = s.jobs := (State.control_keep s ctx i st st' next).2.2.2.2.2.2.2.2.2.2.2.2.2.1
@[simp] theorem State.control_doms (s : State) (ctx i : Nat) (st st' : StreamSt) (next : Nat) : (s.control ctx i st st' next).doms = s.doms := (State.control_keep s ctx i st st' next).2.2.2.2.2.2.2.2.2.2.2.2.2.2.1
@[simp] theorem State.control_chain (s : State) (ctx i : Nat) (st st' : StreamSt) (next : Nat) : (s.control ctx i st st' next).chain = s.chain := (State.control_keep s ctx i st st' next).2.2.2.2.2.2.2.2.2.2.2.2.2.2.2
@[simp] theorem State.control_arr_keep (s : State) (ctx i : Nat) (st st' : StreamSt) (next : Nat) (key : Nat) : (s.control ctx i st st' next).arr key = s.arr key := by unfold State.arr; rw [State.control_arrays]
@[simp] theorem State.control_tile_keep (s : State) (ctx i : Nat) (st st' : StreamSt) (next : Nat) (key : Nat) : (s.control ctx i st st' next).tile key = s.tile key := by unfold State.tile; rw [State.control_tiles]
@[simp] theorem State.control_clu_keep (s : State) (ctx i : Nat) (st st' : StreamSt) (next : Nat) (key : Nat) : (s.control ctx i st st' next).clu key = s.clu key := by unfold State.clu; rw [State.control_clus]
@[simp] theorem State.control_queue_keep (s : State) (ctx i : Nat) (st st' : StreamSt) (next : Nat) (key : Nat) : (s.control ctx i st st' next).queue key = s.queue key := by unfold State.queue; rw [State.control_queues]
@[simp] theorem State.control_dom_keep (s : State) (ctx i : Nat) (st st' : StreamSt) (next : Nat) (key : Nat) : (s.control ctx i st st' next).dom key = s.dom key := by unfold State.dom; rw [State.control_doms]
@[simp] theorem State.control_gs_keep (s : State) (ctx i : Nat) (st st' : StreamSt) (next : Nat) (key : Nat) : (s.control ctx i st st' next).gs key = s.gs key := by unfold State.gs; rw [State.control_gsem]
@[simp] theorem State.control_memByte_keep (s : State) (ctx i : Nat) (st st' : StreamSt) (next : Nat) (key : Nat) : (s.control ctx i st st' next).memByte key = s.memByte key := by unfold State.memByte; rw [State.control_mem]
@[simp] theorem State.control_lpByte_keep (s : State) (ctx i : Nat) (st st' : StreamSt) (next : Nat) (key : Nat) : (s.control ctx i st st' next).lpByte key = s.lpByte key := by unfold State.lpByte; rw [State.control_lpmem]

theorem State.semTake_keep (s : State) (ctx i : Nat) (w : WaitSt) : (s.semTake ctx i w).regs = s.regs ∧ (s.semTake ctx i w).pages = s.pages ∧ (s.semTake ctx i w).queues = s.queues ∧ (s.semTake ctx i w).host = s.host ∧ (s.semTake ctx i w).mem = s.mem ∧ (s.semTake ctx i w).parBad = s.parBad ∧ (s.semTake ctx i w).lpmem = s.lpmem ∧ (s.semTake ctx i w).lpBad = s.lpBad ∧ (s.semTake ctx i w).arrays = s.arrays ∧ (s.semTake ctx i w).tiles = s.tiles ∧ (s.semTake ctx i w).clus = s.clus ∧ (s.semTake ctx i w).ops = s.ops ∧ (s.semTake ctx i w).reports = s.reports ∧ (s.semTake ctx i w).events = s.events ∧ (s.semTake ctx i w).jobs = s.jobs ∧ (s.semTake ctx i w).doms = s.doms ∧ (s.semTake ctx i w).chain = s.chain := by unfold State.semTake; (try dsimp only); (repeat' split) <;> simp
@[simp] theorem State.semTake_regs (s : State) (ctx i : Nat) (w : WaitSt) : (s.semTake ctx i w).regs = s.regs := (State.semTake_keep s ctx i w).1
@[simp] theorem State.semTake_pages (s : State) (ctx i : Nat) (w : WaitSt) : (s.semTake ctx i w).pages = s.pages := (State.semTake_keep s ctx i w).2.1
@[simp] theorem State.semTake_queues (s : State) (ctx i : Nat) (w : WaitSt) : (s.semTake ctx i w).queues = s.queues := (State.semTake_keep s ctx i w).2.2.1
@[simp] theorem State.semTake_host (s : State) (ctx i : Nat) (w : WaitSt) : (s.semTake ctx i w).host = s.host := (State.semTake_keep s ctx i w).2.2.2.1
@[simp] theorem State.semTake_mem (s : State) (ctx i : Nat) (w : WaitSt) : (s.semTake ctx i w).mem = s.mem := (State.semTake_keep s ctx i w).2.2.2.2.1
@[simp] theorem State.semTake_parBad (s : State) (ctx i : Nat) (w : WaitSt) : (s.semTake ctx i w).parBad = s.parBad := (State.semTake_keep s ctx i w).2.2.2.2.2.1
@[simp] theorem State.semTake_lpmem (s : State) (ctx i : Nat) (w : WaitSt) : (s.semTake ctx i w).lpmem = s.lpmem := (State.semTake_keep s ctx i w).2.2.2.2.2.2.1
@[simp] theorem State.semTake_lpBad (s : State) (ctx i : Nat) (w : WaitSt) : (s.semTake ctx i w).lpBad = s.lpBad := (State.semTake_keep s ctx i w).2.2.2.2.2.2.2.1
@[simp] theorem State.semTake_arrays (s : State) (ctx i : Nat) (w : WaitSt) : (s.semTake ctx i w).arrays = s.arrays := (State.semTake_keep s ctx i w).2.2.2.2.2.2.2.2.1
@[simp] theorem State.semTake_tiles (s : State) (ctx i : Nat) (w : WaitSt) : (s.semTake ctx i w).tiles = s.tiles := (State.semTake_keep s ctx i w).2.2.2.2.2.2.2.2.2.1
@[simp] theorem State.semTake_clus (s : State) (ctx i : Nat) (w : WaitSt) : (s.semTake ctx i w).clus = s.clus := (State.semTake_keep s ctx i w).2.2.2.2.2.2.2.2.2.2.1
@[simp] theorem State.semTake_ops (s : State) (ctx i : Nat) (w : WaitSt) : (s.semTake ctx i w).ops = s.ops := (State.semTake_keep s ctx i w).2.2.2.2.2.2.2.2.2.2.2.1
@[simp] theorem State.semTake_reports (s : State) (ctx i : Nat) (w : WaitSt) : (s.semTake ctx i w).reports = s.reports := (State.semTake_keep s ctx i w).2.2.2.2.2.2.2.2.2.2.2.2.1
@[simp] theorem State.semTake_events (s : State) (ctx i : Nat) (w : WaitSt) : (s.semTake ctx i w).events = s.events := (State.semTake_keep s ctx i w).2.2.2.2.2.2.2.2.2.2.2.2.2.1
@[simp] theorem State.semTake_jobs (s : State) (ctx i : Nat) (w : WaitSt) : (s.semTake ctx i w).jobs = s.jobs := (State.semTake_keep s ctx i w).2.2.2.2.2.2.2.2.2.2.2.2.2.2.1
@[simp] theorem State.semTake_doms (s : State) (ctx i : Nat) (w : WaitSt) : (s.semTake ctx i w).doms = s.doms := (State.semTake_keep s ctx i w).2.2.2.2.2.2.2.2.2.2.2.2.2.2.2.1
@[simp] theorem State.semTake_chain (s : State) (ctx i : Nat) (w : WaitSt) : (s.semTake ctx i w).chain = s.chain := (State.semTake_keep s ctx i w).2.2.2.2.2.2.2.2.2.2.2.2.2.2.2.2
@[simp] theorem State.semTake_arr_keep (s : State) (ctx i : Nat) (w : WaitSt) (key : Nat) : (s.semTake ctx i w).arr key = s.arr key := by unfold State.arr; rw [State.semTake_arrays]
@[simp] theorem State.semTake_tile_keep (s : State) (ctx i : Nat) (w : WaitSt) (key : Nat) : (s.semTake ctx i w).tile key = s.tile key := by unfold State.tile; rw [State.semTake_tiles]
@[simp] theorem State.semTake_clu_keep (s : State) (ctx i : Nat) (w : WaitSt) (key : Nat) : (s.semTake ctx i w).clu key = s.clu key := by unfold State.clu; rw [State.semTake_clus]
@[simp] theorem State.semTake_queue_keep (s : State) (ctx i : Nat) (w : WaitSt) (key : Nat) : (s.semTake ctx i w).queue key = s.queue key := by unfold State.queue; rw [State.semTake_queues]
@[simp] theorem State.semTake_page_keep (s : State) (ctx i : Nat) (w : WaitSt) (key : Nat) : (s.semTake ctx i w).page key = s.page key := by unfold State.page; rw [State.semTake_pages]
@[simp] theorem State.semTake_dom_keep (s : State) (ctx i : Nat) (w : WaitSt) (key : Nat) : (s.semTake ctx i w).dom key = s.dom key := by unfold State.dom; rw [State.semTake_doms]
@[simp] theorem State.semTake_rd_keep (s : State) (ctx i : Nat) (w : WaitSt) (key : Nat) : (s.semTake ctx i w).rd key = s.rd key := by unfold State.rd; rw [State.semTake_regs]
@[simp] theorem State.semTake_memByte_keep (s : State) (ctx i : Nat) (w : WaitSt) (key : Nat) : (s.semTake ctx i w).memByte key = s.memByte key := by unfold State.memByte; rw [State.semTake_mem]
@[simp] theorem State.semTake_lpByte_keep (s : State) (ctx i : Nat) (w : WaitSt) (key : Nat) : (s.semTake ctx i w).lpByte key = s.lpByte key := by unfold State.lpByte; rw [State.semTake_lpmem]

theorem State.scoreboard_keep (s : State) (argx : List TAcc) : (s.scoreboard argx).1.pages = s.pages ∧ (s.scoreboard argx).1.queues = s.queues ∧ (s.scoreboard argx).1.host = s.host ∧ (s.scoreboard argx).1.mem = s.mem ∧ (s.scoreboard argx).1.parBad = s.parBad ∧ (s.scoreboard argx).1.lpmem = s.lpmem ∧ (s.scoreboard argx).1.lpBad = s.lpBad ∧ (s.scoreboard argx).1.arrays = s.arrays ∧ (s.scoreboard argx).1.tiles = s.tiles ∧ (s.scoreboard argx).1.clus = s.clus ∧ (s.scoreboard argx).1.ctxs = s.ctxs ∧ (s.scoreboard argx).1.ops = s.ops ∧ (s.scoreboard argx).1.gsem = s.gsem ∧ (s.scoreboard argx).1.reports = s.reports ∧ (s.scoreboard argx).1.events = s.events ∧ (s.scoreboard argx).1.jobs = s.jobs ∧ (s.scoreboard argx).1.doms = s.doms ∧ (s.scoreboard argx).1.chain = s.chain := by
    induction argx generalizing s with
    | nil => simp [State.scoreboard]
    | cons a r ih => unfold State.scoreboard; dsimp only; simp only [ih]; (split <;> [skip; split]) <;> simp
@[simp] theorem State.scoreboard_pages (s : State) (argx : List TAcc) : (s.scoreboard argx).1.pages = s.pages := (State.scoreboard_keep s argx).1
@[simp] theorem State.scoreboard_queues (s : State) (argx : List TAcc) : (s.scoreboard argx).1.queues = s.queues := (State.scoreboard_keep s argx).2.1
@[simp] theorem State.scoreboard_host (s : State) (argx : List TAcc) : (s.scoreboard argx).1.host = s.host := (State.scoreboard_keep s argx).2.2.1
@[simp] theorem State.scoreboard_mem (s : State) (argx : List TAcc) : (s.scoreboard argx).1.mem = s.mem := (State.scoreboard_keep s argx).2.2.2.1
@[simp] theorem State.scoreboard_parBad (s : State) (argx : List TAcc) : (s.scoreboard argx).1.parBad = s.parBad := (State.scoreboard_keep s argx).2.2.2.2.1
@[simp] theorem State.scoreboard_lpmem (s : State) (argx : List TAcc) : (s.scoreboard argx).1.lpmem = s.lpmem := (State.scoreboard_keep s argx).2.2.2.2.2.1
@[simp] theorem State.scoreboard_lpBad (s : State) (argx : List TAcc) : (s.scoreboard argx).1.lpBad = s.lpBad := (State.scoreboard_keep s argx).2.2.2.2.2.2.1
@[simp] theorem State.scoreboard_arrays (s : State) (argx : List TAcc) : (s.scoreboard argx).1.arrays = s.arrays := (State.scoreboard_keep s argx).2.2.2.2.2.2.2.1
@[simp] theorem State.scoreboard_tiles (s : State) (argx : List TAcc) : (s.scoreboard argx).1.tiles = s.tiles := (State.scoreboard_keep s argx).2.2.2.2.2.2.2.2.1
@[simp] theorem State.scoreboard_clus (s : State) (argx : List TAcc) : (s.scoreboard argx).1.clus = s.clus := (State.scoreboard_keep s argx).2.2.2.2.2.2.2.2.2.1
@[simp] theorem State.scoreboard_ctxs (s : State) (argx : List TAcc) : (s.scoreboard argx).1.ctxs = s.ctxs := (State.scoreboard_keep s argx).2.2.2.2.2.2.2.2.2.2.1
@[simp] theorem State.scoreboard_ops (s : State) (argx : List TAcc) : (s.scoreboard argx).1.ops = s.ops := (State.scoreboard_keep s argx).2.2.2.2.2.2.2.2.2.2.2.1
@[simp] theorem State.scoreboard_gsem (s : State) (argx : List TAcc) : (s.scoreboard argx).1.gsem = s.gsem := (State.scoreboard_keep s argx).2.2.2.2.2.2.2.2.2.2.2.2.1
@[simp] theorem State.scoreboard_reports (s : State) (argx : List TAcc) : (s.scoreboard argx).1.reports = s.reports := (State.scoreboard_keep s argx).2.2.2.2.2.2.2.2.2.2.2.2.2.1
@[simp] theorem State.scoreboard_events (s : State) (argx : List TAcc) : (s.scoreboard argx).1.events = s.events := (State.scoreboard_keep s argx).2.2.2.2.2.2.2.2.2.2.2.2.2.2.1
@[simp] theorem State.scoreboard_jobs (s : State) (argx : List TAcc) : (s.scoreboard argx).1.jobs = s.jobs := (State.scoreboard_keep s argx).2.2.2.2.2.2.2.2.2.2.2.2.2.2.2.1
@[simp] theorem State.scoreboard_doms (s : State) (argx : List TAcc) : (s.scoreboard argx).1.doms = s.doms := (State.scoreboard_keep s argx).2.2.2.2.2.2.2.2.2.2.2.2.2.2.2.2.1
@[simp] theorem State.scoreboard_chain (s : State) (argx : List TAcc) : (s.scoreboard argx).1.chain = s.chain := (State.scoreboard_keep s argx).2.2.2.2.2.2.2.2.2.2.2.2.2.2.2.2.2
@[simp] theorem State.scoreboard_arr_keep (s : State) (argx : List TAcc) (key : Nat) : (s.scoreboard argx).1.arr key = s.arr key := by unfold State.arr; rw [State.scoreboard_arrays]
@[simp] theorem State.scoreboard_tile_keep (s : State) (argx : List TAcc) (key : Nat) : (s.scoreboard argx).1.tile key = s.tile key := by unfold State.tile; rw [State.scoreboard_tiles]
@[simp] theorem State.scoreboard_clu_keep (s : State) (argx : List TAcc) (key : Nat) : (s.scoreboard argx).1.clu key = s.clu key := by unfold State.clu; rw [State.scoreboard_clus]
@[simp] theorem State.scoreboard_ctx_keep (s : State) (argx : List TAcc) (key : Nat) : (s.scoreboard argx).1.ctx key = s.ctx key := by unfold State.ctx; rw [State.scoreboard_ctxs]
@[simp] theorem State.scoreboard_queue_keep (s : State) (argx : List TAcc) (key : Nat) : (s.scoreboard argx).1.queue key = s.queue key := by unfold State.queue; rw [State.scoreboard_queues]
@[simp] theorem State.scoreboard_page_keep (s : State) (argx : List TAcc) (key : Nat) : (s.scoreboard argx).1.page key = s.page key := by unfold State.page; rw [State.scoreboard_pages]
@[simp] theorem State.scoreboard_dom_keep (s : State) (argx : List TAcc) (key : Nat) : (s.scoreboard argx).1.dom key = s.dom key := by unfold State.dom; rw [State.scoreboard_doms]
@[simp] theorem State.scoreboard_gs_keep (s : State) (argx : List TAcc) (key : Nat) : (s.scoreboard argx).1.gs key = s.gs key := by unfold State.gs; rw [State.scoreboard_gsem]
@[simp] theorem State.scoreboard_memByte_keep (s : State) (argx : List TAcc) (key : Nat) : (s.scoreboard argx).1.memByte key = s.memByte key := by unfold State.memByte; rw [State.scoreboard_mem]
@[simp] theorem State.scoreboard_lpByte_keep (s : State) (argx : List TAcc) (key : Nat) : (s.scoreboard argx).1.lpByte key = s.lpByte key := by unfold State.lpByte; rw [State.scoreboard_lpmem]

theorem State.takeDraws_keep (s : State) (o : Op) : (s.takeDraws o).1.regs = s.regs ∧ (s.takeDraws o).1.pages = s.pages ∧ (s.takeDraws o).1.queues = s.queues ∧ (s.takeDraws o).1.host = s.host ∧ (s.takeDraws o).1.mem = s.mem ∧ (s.takeDraws o).1.parBad = s.parBad ∧ (s.takeDraws o).1.lpmem = s.lpmem ∧ (s.takeDraws o).1.lpBad = s.lpBad ∧ (s.takeDraws o).1.arrays = s.arrays ∧ (s.takeDraws o).1.tiles = s.tiles ∧ (s.takeDraws o).1.ctxs = s.ctxs ∧ (s.takeDraws o).1.ops = s.ops ∧ (s.takeDraws o).1.gsem = s.gsem ∧ (s.takeDraws o).1.reports = s.reports ∧ (s.takeDraws o).1.events = s.events ∧ (s.takeDraws o).1.jobs = s.jobs ∧ (s.takeDraws o).1.doms = s.doms ∧ (s.takeDraws o).1.chain = s.chain := by unfold State.takeDraws; (try dsimp only); (repeat' split) <;> simp
@[simp] theorem State.takeDraws_regs (s : State) (o : Op) : (s.takeDraws o).1.regs = s.regs := (State.takeDraws_keep s o).1
@[simp] theorem State.takeDraws_pages (s : State) (o : Op) : (s.takeDraws o).1.pages = s.pages := (State.takeDraws_keep s o).2.1
@[simp] theorem State.takeDraws_queues (s : State) (o : Op) : (s.takeDraws o).1.queues = s.queues := (State.takeDraws_keep s o).2.2.1
@[simp] theorem State.takeDraws_host (s : State) (o : Op) : (s.takeDraws o).1.host = s.host := (State.takeDraws_keep s o).2.2.2.1
@[simp] theorem State.takeDraws_mem (s : State) (o : Op) : (s.takeDraws o).1.mem = s.mem := (State.takeDraws_keep s o).2.2.2.2.1
@[simp] theorem State.takeDraws_parBad (s : State) (o : Op) : (s.takeDraws o).1.parBad = s.parBad := (State.takeDraws_keep s o).2.2.2.2.2.1
@[simp] theorem State.takeDraws_lpmem (s : State) (o : Op) : (s.takeDraws o).1.lpmem = s.lpmem := (State.takeDraws_keep s o).2.2.2.2.2.2.1
@[simp] theorem State.takeDraws_lpBad (s : State) (o : Op) : (s.takeDraws o).1.lpBad = s.lpBad := (State.takeDraws_keep s o).2.2.2.2.2.2.2.1
@[simp] theorem State.takeDraws_arrays (s : State) (o : Op) : (s.takeDraws o).1.arrays = s.arrays := (State.takeDraws_keep s o).2.2.2.2.2.2.2.2.1
@[simp] theorem State.takeDraws_tiles (s : State) (o : Op) : (s.takeDraws o).1.tiles = s.tiles := (State.takeDraws_keep s o).2.2.2.2.2.2.2.2.2.1
@[simp] theorem State.takeDraws_ctxs (s : State) (o : Op) : (s.takeDraws o).1.ctxs = s.ctxs := (State.takeDraws_keep s o).2.2.2.2.2.2.2.2.2.2.1
@[simp] theorem State.takeDraws_ops (s : State) (o : Op) : (s.takeDraws o).1.ops = s.ops := (State.takeDraws_keep s o).2.2.2.2.2.2.2.2.2.2.2.1
@[simp] theorem State.takeDraws_gsem (s : State) (o : Op) : (s.takeDraws o).1.gsem = s.gsem := (State.takeDraws_keep s o).2.2.2.2.2.2.2.2.2.2.2.2.1
@[simp] theorem State.takeDraws_reports (s : State) (o : Op) : (s.takeDraws o).1.reports = s.reports := (State.takeDraws_keep s o).2.2.2.2.2.2.2.2.2.2.2.2.2.1
@[simp] theorem State.takeDraws_events (s : State) (o : Op) : (s.takeDraws o).1.events = s.events := (State.takeDraws_keep s o).2.2.2.2.2.2.2.2.2.2.2.2.2.2.1
@[simp] theorem State.takeDraws_jobs (s : State) (o : Op) : (s.takeDraws o).1.jobs = s.jobs := (State.takeDraws_keep s o).2.2.2.2.2.2.2.2.2.2.2.2.2.2.2.1
@[simp] theorem State.takeDraws_doms (s : State) (o : Op) : (s.takeDraws o).1.doms = s.doms := (State.takeDraws_keep s o).2.2.2.2.2.2.2.2.2.2.2.2.2.2.2.2.1
@[simp] theorem State.takeDraws_chain (s : State) (o : Op) : (s.takeDraws o).1.chain = s.chain := (State.takeDraws_keep s o).2.2.2.2.2.2.2.2.2.2.2.2.2.2.2.2.2
@[simp] theorem State.takeDraws_arr_keep (s : State) (o : Op) (key : Nat) : (s.takeDraws o).1.arr key = s.arr key := by unfold State.arr; rw [State.takeDraws_arrays]
@[simp] theorem State.takeDraws_tile_keep (s : State) (o : Op) (key : Nat) : (s.takeDraws o).1.tile key = s.tile key := by unfold State.tile; rw [State.takeDraws_tiles]
@[simp] theorem State.takeDraws_ctx_keep (s : State) (o : Op) (key : Nat) : (s.takeDraws o).1.ctx key = s.ctx key := by unfold State.ctx; rw [State.takeDraws_ctxs]
@[simp] theorem State.takeDraws_queue_keep (s : State) (o : Op) (key : Nat) : (s.takeDraws o).1.queue key = s.queue key := by unfold State.queue; rw [State.takeDraws_queues]
@[simp] theorem State.takeDraws_page_keep (s : State) (o : Op) (key : Nat) : (s.takeDraws o).1.page key = s.page key := by unfold State.page; rw [State.takeDraws_pages]
@[simp] theorem State.takeDraws_dom_keep (s : State) (o : Op) (key : Nat) : (s.takeDraws o).1.dom key = s.dom key := by unfold State.dom; rw [State.takeDraws_doms]
@[simp] theorem State.takeDraws_gs_keep (s : State) (o : Op) (key : Nat) : (s.takeDraws o).1.gs key = s.gs key := by unfold State.gs; rw [State.takeDraws_gsem]
@[simp] theorem State.takeDraws_rd_keep (s : State) (o : Op) (key : Nat) : (s.takeDraws o).1.rd key = s.rd key := by unfold State.rd; rw [State.takeDraws_regs]
@[simp] theorem State.takeDraws_memByte_keep (s : State) (o : Op) (key : Nat) : (s.takeDraws o).1.memByte key = s.memByte key := by unfold State.memByte; rw [State.takeDraws_mem]
@[simp] theorem State.takeDraws_lpByte_keep (s : State) (o : Op) (key : Nat) : (s.takeDraws o).1.lpByte key = s.lpByte key := by unfold State.lpByte; rw [State.takeDraws_lpmem]

theorem State.countDelivered_keep (s : State) (c n : Nat) : (s.countDelivered c n).regs = s.regs ∧ (s.countDelivered c n).pages = s.pages ∧ (s.countDelivered c n).queues = s.queues ∧ (s.countDelivered c n).host = s.host ∧ (s.countDelivered c n).mem = s.mem ∧ (s.countDelivered c n).parBad = s.parBad ∧ (s.countDelivered c n).lpmem = s.lpmem ∧ (s.countDelivered c n).lpBad = s.lpBad ∧ (s.countDelivered c n).arrays = s.arrays ∧ (s.countDelivered c n).tiles = s.tiles ∧ (s.countDelivered c n).ctxs = s.ctxs ∧ (s.countDelivered c n).ops = s.ops ∧ (s.countDelivered c n).gsem = s.gsem ∧ (s.countDelivered c n).reports = s.reports ∧ (s.countDelivered c n).events = s.events ∧ (s.countDelivered c n).jobs = s.jobs ∧ (s.countDelivered c n).doms = s.doms ∧ (s.countDelivered c n).chain = s.chain := by unfold State.countDelivered; (try dsimp only); (repeat' split) <;> simp
@[simp] theorem State.countDelivered_regs (s : State) (c n : Nat) : (s.countDelivered c n).regs = s.regs := (State.countDelivered_keep s c n).1
@[simp] theorem State.countDelivered_pages (s : State) (c n : Nat) : (s.countDelivered c n).pages = s.pages := (State.countDelivered_keep s c n).2.1
@[simp] theorem State.countDelivered_queues (s : State) (c n : Nat) : (s.countDelivered c n).queues = s.queues := (State.countDelivered_keep s c n).2.2.1
@[simp] theorem State.countDelivered_host (s : State) (c n : Nat) : (s.countDelivered c n).host = s.host := (State.countDelivered_keep s c n).2.2.2.1
@[simp] theorem State.countDelivered_mem (s : State) (c n : Nat) : (s.countDelivered c n).mem = s.mem := (State.countDelivered_keep s c n).2.2.2.2.1
@[simp] theorem State.countDelivered_parBad (s : State) (c n : Nat) : (s.countDelivered c n).parBad = s.parBad := (State.countDelivered_keep s c n).2.2.2.2.2.1
@[simp] theorem State.countDelivered_lpmem (s : State) (c n : Nat) : (s.countDelivered c n).lpmem = s.lpmem := (State.countDelivered_keep s c n).2.2.2.2.2.2.1
@[simp] theorem State.countDelivered_lpBad (s : State) (c n : Nat) : (s.countDelivered c n).lpBad = s.lpBad := (State.countDelivered_keep s c n).2.2.2.2.2.2.2.1
@[simp] theorem State.countDelivered_arrays (s : State) (c n : Nat) : (s.countDelivered c n).arrays = s.arrays := (State.countDelivered_keep s c n).2.2.2.2.2.2.2.2.1
@[simp] theorem State.countDelivered_tiles (s : State) (c n : Nat) : (s.countDelivered c n).tiles = s.tiles := (State.countDelivered_keep s c n).2.2.2.2.2.2.2.2.2.1
@[simp] theorem State.countDelivered_ctxs (s : State) (c n : Nat) : (s.countDelivered c n).ctxs = s.ctxs := (State.countDelivered_keep s c n).2.2.2.2.2.2.2.2.2.2.1
@[simp] theorem State.countDelivered_ops (s : State) (c n : Nat) : (s.countDelivered c n).ops = s.ops := (State.countDelivered_keep s c n).2.2.2.2.2.2.2.2.2.2.2.1
@[simp] theorem State.countDelivered_gsem (s : State) (c n : Nat) : (s.countDelivered c n).gsem = s.gsem := (State.countDelivered_keep s c n).2.2.2.2.2.2.2.2.2.2.2.2.1
@[simp] theorem State.countDelivered_reports (s : State) (c n : Nat) : (s.countDelivered c n).reports = s.reports := (State.countDelivered_keep s c n).2.2.2.2.2.2.2.2.2.2.2.2.2.1
@[simp] theorem State.countDelivered_events (s : State) (c n : Nat) : (s.countDelivered c n).events = s.events := (State.countDelivered_keep s c n).2.2.2.2.2.2.2.2.2.2.2.2.2.2.1
@[simp] theorem State.countDelivered_jobs (s : State) (c n : Nat) : (s.countDelivered c n).jobs = s.jobs := (State.countDelivered_keep s c n).2.2.2.2.2.2.2.2.2.2.2.2.2.2.2.1
@[simp] theorem State.countDelivered_doms (s : State) (c n : Nat) : (s.countDelivered c n).doms = s.doms := (State.countDelivered_keep s c n).2.2.2.2.2.2.2.2.2.2.2.2.2.2.2.2.1
@[simp] theorem State.countDelivered_chain (s : State) (c n : Nat) : (s.countDelivered c n).chain = s.chain := (State.countDelivered_keep s c n).2.2.2.2.2.2.2.2.2.2.2.2.2.2.2.2.2
@[simp] theorem State.countDelivered_arr_keep (s : State) (c n : Nat) (key : Nat) : (s.countDelivered c n).arr key = s.arr key := by unfold State.arr; rw [State.countDelivered_arrays]
@[simp] theorem State.countDelivered_tile_keep (s : State) (c n : Nat) (key : Nat) : (s.countDelivered c n).tile key = s.tile key := by unfold State.tile; rw [State.countDelivered_tiles]
@[simp] theorem State.countDelivered_ctx_keep (s : State) (c n : Nat) (key : Nat) : (s.countDelivered c n).ctx key = s.ctx key := by unfold State.ctx; rw [State.countDelivered_ctxs]
@[simp] theorem State.countDelivered_queue_keep (s : State) (c n : Nat) (key : Nat) : (s.countDelivered c n).queue key = s.queue key := by unfold State.queue; rw [State.countDelivered_queues]
@[simp] theorem State.countDelivered_page_keep (s : State) (c n : Nat) (key : Nat) : (s.countDelivered c n).page key = s.page key := by unfold State.page; rw [State.countDelivered_pages]
@[simp] theorem State.countDelivered_dom_keep (s : State) (c n : Nat) (key : Nat) : (s.countDelivered c n).dom key = s.dom key := by unfold State.dom; rw [State.countDelivered_doms]
@[simp] theorem State.countDelivered_gs_keep (s : State) (c n : Nat) (key : Nat) : (s.countDelivered c n).gs key = s.gs key := by unfold State.gs; rw [State.countDelivered_gsem]
@[simp] theorem State.countDelivered_rd_keep (s : State) (c n : Nat) (key : Nat) : (s.countDelivered c n).rd key = s.rd key := by unfold State.rd; rw [State.countDelivered_regs]
@[simp] theorem State.countDelivered_memByte_keep (s : State) (c n : Nat) (key : Nat) : (s.countDelivered c n).memByte key = s.memByte key := by unfold State.memByte; rw [State.countDelivered_mem]
@[simp] theorem State.countDelivered_lpByte_keep (s : State) (c n : Nat) (key : Nat) : (s.countDelivered c n).lpByte key = s.lpByte key := by unfold State.lpByte; rw [State.countDelivered_lpmem]

theorem State.countArrival_keep (s : State) (o : Op) : (s.countArrival o).regs = s.regs ∧ (s.countArrival o).pages = s.pages ∧ (s.countArrival o).queues = s.queues ∧ (s.countArrival o).host = s.host ∧ (s.countArrival o).mem = s.mem ∧ (s.countArrival o).parBad = s.parBad ∧ (s.countArrival o).lpmem = s.lpmem ∧ (s.countArrival o).lpBad = s.lpBad ∧ (s.countArrival o).arrays = s.arrays ∧ (s.countArrival o).tiles = s.tiles ∧ (s.countArrival o).ops = s.ops ∧ (s.countArrival o).gsem = s.gsem ∧ (s.countArrival o).reports = s.reports ∧ (s.countArrival o).events = s.events ∧ (s.countArrival o).jobs = s.jobs ∧ (s.countArrival o).doms = s.doms ∧ (s.countArrival o).chain = s.chain := by unfold State.countArrival; (try dsimp only); (repeat' split) <;> simp
@[simp] theorem State.countArrival_regs (s : State) (o : Op) : (s.countArrival o).regs = s.regs := (State.countArrival_keep s o).1
@[simp] theorem State.countArrival_pages (s : State) (o : Op) : (s.countArrival o).pages = s.pages := (State.countArrival_keep s o).2.1
@[simp] theorem State.countArrival_queues (s : State) (o : Op) : (s.countArrival o).queues = s.queues := (State.countArrival_keep s o).2.2.1
@[simp] theorem State.countArrival_host (s : State) (o : Op) : (s.countArrival o).host = s.host := (State.countArrival_keep s o).2.2.2.1
@[simp] theorem State.countArrival_mem (s : State) (o : Op) : (s.countArrival o).mem = s.mem := (State.countArrival_keep s o).2.2.2.2.1
@[simp] theorem State.countArrival_parBad (s : State) (o : Op) : (s.countArrival o).parBad = s.parBad := (State.countArrival_keep s o).2.2.2.2.2.1
@[simp] theorem State.countArrival_lpmem (s : State) (o : Op) : (s.countArrival o).lpmem = s.lpmem := (State.countArrival_keep s o).2.2.2.2.2.2.1
@[simp] theorem State.countArrival_lpBad (s : State) (o : Op) : (s.countArrival o).lpBad = s.lpBad := (State.countArrival_keep s o).2.2.2.2.2.2.2.1
@[simp] theorem State.countArrival_arrays (s : State) (o : Op) : (s.countArrival o).arrays = s.arrays := (State.countArrival_keep s o).2.2.2.2.2.2.2.2.1
@[simp] theorem State.countArrival_tiles (s : State) (o : Op) : (s.countArrival o).tiles = s.tiles := (State.countArrival_keep s o).2.2.2.2.2.2.2.2.2.1
@[simp] theorem State.countArrival_ops (s : State) (o : Op) : (s.countArrival o).ops = s.ops := (State.countArrival_keep s o).2.2.2.2.2.2.2.2.2.2.1
@[simp] theorem State.countArrival_gsem (s : State) (o : Op) : (s.countArrival o).gsem = s.gsem := (State.countArrival_keep s o).2.2.2.2.2.2.2.2.2.2.2.1
@[simp] theorem State.countArrival_reports (s : State) (o : Op) : (s.countArrival o).reports = s.reports := (State.countArrival_keep s o).2.2.2.2.2.2.2.2.2.2.2.2.1
@[simp] theorem State.countArrival_events (s : State) (o : Op) : (s.countArrival o).events = s.events := (State.countArrival_keep s o).2.2.2.2.2.2.2.2.2.2.2.2.2.1
@[simp] theorem State.countArrival_jobs (s : State) (o : Op) : (s.countArrival o).jobs = s.jobs := (State.countArrival_keep s o).2.2.2.2.2.2.2.2.2.2.2.2.2.2.1
@[simp] theorem State.countArrival_doms (s : State) (o : Op) : (s.countArrival o).doms = s.doms := (State.countArrival_keep s o).2.2.2.2.2.2.2.2.2.2.2.2.2.2.2.1
@[simp] theorem State.countArrival_chain (s : State) (o : Op) : (s.countArrival o).chain = s.chain := (State.countArrival_keep s o).2.2.2.2.2.2.2.2.2.2.2.2.2.2.2.2
@[simp] theorem State.countArrival_arr_keep (s : State) (o : Op) (key : Nat) : (s.countArrival o).arr key = s.arr key := by unfold State.arr; rw [State.countArrival_arrays]
@[simp] theorem State.countArrival_tile_keep (s : State) (o : Op) (key : Nat) : (s.countArrival o).tile key = s.tile key := by unfold State.tile; rw [State.countArrival_tiles]
@[simp] theorem State.countArrival_queue_keep (s : State) (o : Op) (key : Nat) : (s.countArrival o).queue key = s.queue key := by unfold State.queue; rw [State.countArrival_queues]
@[simp] theorem State.countArrival_page_keep (s : State) (o : Op) (key : Nat) : (s.countArrival o).page key = s.page key := by unfold State.page; rw [State.countArrival_pages]
@[simp] theorem State.countArrival_dom_keep (s : State) (o : Op) (key : Nat) : (s.countArrival o).dom key = s.dom key := by unfold State.dom; rw [State.countArrival_doms]
@[simp] theorem State.countArrival_gs_keep (s : State) (o : Op) (key : Nat) : (s.countArrival o).gs key = s.gs key := by unfold State.gs; rw [State.countArrival_gsem]
@[simp] theorem State.countArrival_rd_keep (s : State) (o : Op) (key : Nat) : (s.countArrival o).rd key = s.rd key := by unfold State.rd; rw [State.countArrival_regs]
@[simp] theorem State.countArrival_memByte_keep (s : State) (o : Op) (key : Nat) : (s.countArrival o).memByte key = s.memByte key := by unfold State.memByte; rw [State.countArrival_mem]
@[simp] theorem State.countArrival_lpByte_keep (s : State) (o : Op) (key : Nat) : (s.countArrival o).lpByte key = s.lpByte key := by unfold State.lpByte; rw [State.countArrival_lpmem]

theorem State.arrive_keep (s : State) (o : Op) : (s.arrive o).pages = s.pages ∧ (s.arrive o).queues = s.queues ∧ (s.arrive o).host = s.host ∧ (s.arrive o).mem = s.mem ∧ (s.arrive o).parBad = s.parBad ∧ (s.arrive o).lpmem = s.lpmem ∧ (s.arrive o).lpBad = s.lpBad ∧ (s.arrive o).arrays = s.arrays ∧ (s.arrive o).tiles = s.tiles ∧ (s.arrive o).gsem = s.gsem ∧ (s.arrive o).reports = s.reports ∧ (s.arrive o).events = s.events ∧ (s.arrive o).jobs = s.jobs ∧ (s.arrive o).doms = s.doms ∧ (s.arrive o).chain = s.chain := by unfold State.arrive; (try dsimp only); (repeat' split) <;> simp
@[simp] theorem State.arrive_pages (s : State) (o : Op) : (s.arrive o).pages = s.pages := (State.arrive_keep s o).1
@[simp] theorem State.arrive_queues (s : State) (o : Op) : (s.arrive o).queues = s.queues := (State.arrive_keep s o).2.1
@[simp] theorem State.arrive_host (s : State) (o : Op) : (s.arrive o).host = s.host := (State.arrive_keep s o).2.2.1
@[simp] theorem State.arrive_mem (s : State) (o : Op) : (s.arrive o).mem = s.mem := (State.arrive_keep s o).2.2.2.1
@[simp] theorem State.arrive_parBad (s : State) (o : Op) : (s.arrive o).parBad = s.parBad := (State.arrive_keep s o).2.2.2.2.1
@[simp] theorem State.arrive_lpmem (s : State) (o : Op) : (s.arrive o).lpmem = s.lpmem := (State.arrive_keep s o).2.2.2.2.2.1
@[simp] theorem State.arrive_lpBad (s : State) (o : Op) : (s.arrive o).lpBad = s.lpBad := (State.arrive_keep s o).2.2.2.2.2.2.1
@[simp] theorem State.arrive_arrays (s : State) (o : Op) : (s.arrive o).arrays = s.arrays := (State.arrive_keep s o).2.2.2.2.2.2.2.1
@[simp] theorem State.arrive_tiles (s : State) (o : Op) : (s.arrive o).tiles = s.tiles := (State.arrive_keep s o).2.2.2.2.2.2.2.2.1
@[simp] theorem State.arrive_gsem (s : State) (o : Op) : (s.arrive o).gsem = s.gsem := (State.arrive_keep s o).2.2.2.2.2.2.2.2.2.1
@[simp] theorem State.arrive_reports (s : State) (o : Op) : (s.arrive o).reports = s.reports := (State.arrive_keep s o).2.2.2.2.2.2.2.2.2.2.1
@[simp] theorem State.arrive_events (s : State) (o : Op) : (s.arrive o).events = s.events := (State.arrive_keep s o).2.2.2.2.2.2.2.2.2.2.2.1
@[simp] theorem State.arrive_jobs (s : State) (o : Op) : (s.arrive o).jobs = s.jobs := (State.arrive_keep s o).2.2.2.2.2.2.2.2.2.2.2.2.1
@[simp] theorem State.arrive_doms (s : State) (o : Op) : (s.arrive o).doms = s.doms := (State.arrive_keep s o).2.2.2.2.2.2.2.2.2.2.2.2.2.1
@[simp] theorem State.arrive_chain (s : State) (o : Op) : (s.arrive o).chain = s.chain := (State.arrive_keep s o).2.2.2.2.2.2.2.2.2.2.2.2.2.2
@[simp] theorem State.arrive_arr_keep (s : State) (o : Op) (key : Nat) : (s.arrive o).arr key = s.arr key := by unfold State.arr; rw [State.arrive_arrays]
@[simp] theorem State.arrive_tile_keep (s : State) (o : Op) (key : Nat) : (s.arrive o).tile key = s.tile key := by unfold State.tile; rw [State.arrive_tiles]
@[simp] theorem State.arrive_queue_keep (s : State) (o : Op) (key : Nat) : (s.arrive o).queue key = s.queue key := by unfold State.queue; rw [State.arrive_queues]
@[simp] theorem State.arrive_page_keep (s : State) (o : Op) (key : Nat) : (s.arrive o).page key = s.page key := by unfold State.page; rw [State.arrive_pages]
@[simp] theorem State.arrive_dom_keep (s : State) (o : Op) (key : Nat) : (s.arrive o).dom key = s.dom key := by unfold State.dom; rw [State.arrive_doms]
@[simp] theorem State.arrive_gs_keep (s : State) (o : Op) (key : Nat) : (s.arrive o).gs key = s.gs key := by unfold State.gs; rw [State.arrive_gsem]
@[simp] theorem State.arrive_memByte_keep (s : State) (o : Op) (key : Nat) : (s.arrive o).memByte key = s.memByte key := by unfold State.memByte; rw [State.arrive_mem]
@[simp] theorem State.arrive_lpByte_keep (s : State) (o : Op) (key : Nat) : (s.arrive o).lpByte key = s.lpByte key := by unfold State.lpByte; rw [State.arrive_lpmem]

theorem State.submit_keep (s : State) (ctx i : Nat) (st : StreamSt) (o : Op) : (s.submit ctx i st o).queues = s.queues ∧ (s.submit ctx i st o).host = s.host ∧ (s.submit ctx i st o).mem = s.mem ∧ (s.submit ctx i st o).parBad = s.parBad ∧ (s.submit ctx i st o).lpmem = s.lpmem ∧ (s.submit ctx i st o).lpBad = s.lpBad ∧ (s.submit ctx i st o).arrays = s.arrays ∧ (s.submit ctx i st o).tiles = s.tiles ∧ (s.submit ctx i st o).gsem = s.gsem ∧ (s.submit ctx i st o).reports = s.reports ∧ (s.submit ctx i st o).events = s.events ∧ (s.submit ctx i st o).doms = s.doms ∧ (s.submit ctx i st o).chain = s.chain := by unfold State.submit; (try dsimp only); (repeat' split) <;> simp
@[simp] theorem State.submit_queues (s : State) (ctx i : Nat) (st : StreamSt) (o : Op) : (s.submit ctx i st o).queues = s.queues := (State.submit_keep s ctx i st o).1
@[simp] theorem State.submit_host (s : State) (ctx i : Nat) (st : StreamSt) (o : Op) : (s.submit ctx i st o).host = s.host := (State.submit_keep s ctx i st o).2.1
@[simp] theorem State.submit_mem (s : State) (ctx i : Nat) (st : StreamSt) (o : Op) : (s.submit ctx i st o).mem = s.mem := (State.submit_keep s ctx i st o).2.2.1
@[simp] theorem State.submit_parBad (s : State) (ctx i : Nat) (st : StreamSt) (o : Op) : (s.submit ctx i st o).parBad = s.parBad := (State.submit_keep s ctx i st o).2.2.2.1
@[simp] theorem State.submit_lpmem (s : State) (ctx i : Nat) (st : StreamSt) (o : Op) : (s.submit ctx i st o).lpmem = s.lpmem := (State.submit_keep s ctx i st o).2.2.2.2.1
@[simp] theorem State.submit_lpBad (s : State) (ctx i : Nat) (st : StreamSt) (o : Op) : (s.submit ctx i st o).lpBad = s.lpBad := (State.submit_keep s ctx i st o).2.2.2.2.2.1
@[simp] theorem State.submit_arrays (s : State) (ctx i : Nat) (st : StreamSt) (o : Op) : (s.submit ctx i st o).arrays = s.arrays := (State.submit_keep s ctx i st o).2.2.2.2.2.2.1
@[simp] theorem State.submit_tiles (s : State) (ctx i : Nat) (st : StreamSt) (o : Op) : (s.submit ctx i st o).tiles = s.tiles := (State.submit_keep s ctx i st o).2.2.2.2.2.2.2.1
@[simp] theorem State.submit_gsem (s : State) (ctx i : Nat) (st : StreamSt) (o : Op) : (s.submit ctx i st o).gsem = s.gsem := (State.submit_keep s ctx i st o).2.2.2.2.2.2.2.2.1
@[simp] theorem State.submit_reports (s : State) (ctx i : Nat) (st : StreamSt) (o : Op) : (s.submit ctx i st o).reports = s.reports := (State.submit_keep s ctx i st o).2.2.2.2.2.2.2.2.2.1
@[simp] theorem State.submit_events (s : State) (ctx i : Nat) (st : StreamSt) (o : Op) : (s.submit ctx i st o).events = s.events := (State.submit_keep s ctx i st o).2.2.2.2.2.2.2.2.2.2.1
@[simp] theorem State.submit_doms (s : State) (ctx i : Nat) (st : StreamSt) (o : Op) : (s.submit ctx i st o).doms = s.doms := (State.submit_keep s ctx i st o).2.2.2.2.2.2.2.2.2.2.2.1
@[simp] theorem State.submit_chain (s : State) (ctx i : Nat) (st : StreamSt) (o : Op) : (s.submit ctx i st o).chain = s.chain := (State.submit_keep s ctx i st o).2.2.2.2.2.2.2.2.2.2.2.2
@[simp] theorem State.submit_arr_keep (s : State) (ctx i : Nat) (st : StreamSt) (o : Op) (key : Nat) : (s.submit ctx i st o).arr key = s.arr key := by unfold State.arr; rw [State.submit_arrays]
@[simp] theorem State.submit_tile_keep (s : State) (ctx i : Nat) (st : StreamSt) (o : Op) (key : Nat) : (s.submit ctx i st o).tile key = s.tile key := by unfold State.tile; rw [State.submit_tiles]
@[simp] theorem State.submit_queue_keep (s : State) (ctx i : Nat) (st : StreamSt) (o : Op) (key : Nat) : (s.submit ctx i st o).queue key = s.queue key := by unfold State.queue; rw [State.submit_queues]
@[simp] theorem State.submit_dom_keep (s : State) (ctx i : Nat) (st : StreamSt) (o : Op) (key : Nat) : (s.submit ctx i st o).dom key = s.dom key := by unfold State.dom; rw [State.submit_doms]
@[simp] theorem State.submit_gs_keep (s : State) (ctx i : Nat) (st : StreamSt) (o : Op) (key : Nat) : (s.submit ctx i st o).gs key = s.gs key := by unfold State.gs; rw [State.submit_gsem]
@[simp] theorem State.submit_memByte_keep (s : State) (ctx i : Nat) (st : StreamSt) (o : Op) (key : Nat) : (s.submit ctx i st o).memByte key = s.memByte key := by unfold State.memByte; rw [State.submit_mem]
@[simp] theorem State.submit_lpByte_keep (s : State) (ctx i : Nat) (st : StreamSt) (o : Op) (key : Nat) : (s.submit ctx i st o).lpByte key = s.lpByte key := by unfold State.lpByte; rw [State.submit_lpmem]

theorem State.accept_keep (s : State) (o : Op) : (s.accept o).queues = s.queues ∧ (s.accept o).host = s.host ∧ (s.accept o).mem = s.mem ∧ (s.accept o).parBad = s.parBad ∧ (s.accept o).lpmem = s.lpmem ∧ (s.accept o).lpBad = s.lpBad ∧ (s.accept o).arrays = s.arrays ∧ (s.accept o).tiles = s.tiles ∧ (s.accept o).gsem = s.gsem ∧ (s.accept o).reports = s.reports ∧ (s.accept o).events = s.events ∧ (s.accept o).jobs = s.jobs ∧ (s.accept o).doms = s.doms ∧ (s.accept o).chain = s.chain := by unfold State.accept; (try dsimp only); (repeat' split) <;> simp
@[simp] theorem State.accept_queues (s : State) (o : Op) : (s.accept o).queues = s.queues := (State.accept_keep s o).1
@[simp] theorem State.accept_host (s : State) (o : Op) : (s.accept o).host = s.host := (State.accept_keep s o).2.1
@[simp] theorem State.accept_mem (s : State) (o : Op) : (s.accept o).mem = s.mem := (State.accept_keep s o).2.2.1
@[simp] theorem State.accept_parBad (s : State) (o : Op) : (s.accept o).parBad = s.parBad := (State.accept_keep s o).2.2.2.1
@[simp] theorem State.accept_lpmem (s : State) (o : Op) : (s.accept o).lpmem = s.lpmem := (State.accept_keep s o).2.2.2.2.1
@[simp] theorem State.accept_lpBad (s : State) (o : Op) : (s.accept o).lpBad = s.lpBad := (State.accept_keep s o).2.2.2.2.2.1
@[simp] theorem State.accept_arrays (s : State) (o : Op) : (s.accept o).arrays = s.arrays := (State.accept_keep s o).2.2.2.2.2.2.1
@[simp] theorem State.accept_tiles (s : State) (o : Op) : (s.accept o).tiles = s.tiles := (State.accept_keep s o).2.2.2.2.2.2.2.1
@[simp] theorem State.accept_gsem (s : State) (o : Op) : (s.accept o).gsem = s.gsem := (State.accept_keep s o).2.2.2.2.2.2.2.2.1
@[simp] theorem State.accept_reports (s : State) (o : Op) : (s.accept o).reports = s.reports := (State.accept_keep s o).2.2.2.2.2.2.2.2.2.1
@[simp] theorem State.accept_events (s : State) (o : Op) : (s.accept o).events = s.events := (State.accept_keep s o).2.2.2.2.2.2.2.2.2.2.1
@[simp] theorem State.accept_jobs (s : State) (o : Op) : (s.accept o).jobs = s.jobs := (State.accept_keep s o).2.2.2.2.2.2.2.2.2.2.2.1
@[simp] theorem State.accept_doms (s : State) (o : Op) : (s.accept o).doms = s.doms := (State.accept_keep s o).2.2.2.2.2.2.2.2.2.2.2.2.1
@[simp] theorem State.accept_chain (s : State) (o : Op) : (s.accept o).chain = s.chain := (State.accept_keep s o).2.2.2.2.2.2.2.2.2.2.2.2.2
@[simp] theorem State.accept_arr_keep (s : State) (o : Op) (key : Nat) : (s.accept o).arr key = s.arr key := by unfold State.arr; rw [State.accept_arrays]
@[simp] theorem State.accept_tile_keep (s : State) (o : Op) (key : Nat) : (s.accept o).tile key = s.tile key := by unfold State.tile; rw [State.accept_tiles]
@[simp] theorem State.accept_queue_keep (s : State) (o : Op) (key : Nat) : (s.accept o).queue key = s.queue key := by unfold State.queue; rw [State.accept_queues]
@[simp] theorem State.accept_dom_keep (s : State) (o : Op) (key : Nat) : (s.accept o).dom key = s.dom key := by unfold State.dom; rw [State.accept_doms]
@[simp] theorem State.accept_gs_keep (s : State) (o : Op) (key : Nat) : (s.accept o).gs key = s.gs key := by unfold State.gs; rw [State.accept_gsem]
@[simp] theorem State.accept_memByte_keep (s : State) (o : Op) (key : Nat) : (s.accept o).memByte key = s.memByte key := by unfold State.memByte; rw [State.accept_mem]
@[simp] theorem State.accept_lpByte_keep (s : State) (o : Op) (key : Nat) : (s.accept o).lpByte key = s.lpByte key := by unfold State.lpByte; rw [State.accept_lpmem]

theorem State.engineNext_keep (s : State) (o : Op) : (s.engineNext o).queues = s.queues ∧ (s.engineNext o).host = s.host ∧ (s.engineNext o).mem = s.mem ∧ (s.engineNext o).parBad = s.parBad ∧ (s.engineNext o).lpmem = s.lpmem ∧ (s.engineNext o).lpBad = s.lpBad ∧ (s.engineNext o).arrays = s.arrays ∧ (s.engineNext o).tiles = s.tiles ∧ (s.engineNext o).gsem = s.gsem ∧ (s.engineNext o).reports = s.reports ∧ (s.engineNext o).events = s.events ∧ (s.engineNext o).jobs = s.jobs ∧ (s.engineNext o).doms = s.doms ∧ (s.engineNext o).chain = s.chain := by unfold State.engineNext; (try dsimp only); (repeat' split) <;> simp
@[simp] theorem State.engineNext_queues (s : State) (o : Op) : (s.engineNext o).queues = s.queues := (State.engineNext_keep s o).1
@[simp] theorem State.engineNext_host (s : State) (o : Op) : (s.engineNext o).host = s.host := (State.engineNext_keep s o).2.1
@[simp] theorem State.engineNext_mem (s : State) (o : Op) : (s.engineNext o).mem = s.mem := (State.engineNext_keep s o).2.2.1
@[simp] theorem State.engineNext_parBad (s : State) (o : Op) : (s.engineNext o).parBad = s.parBad := (State.engineNext_keep s o).2.2.2.1
@[simp] theorem State.engineNext_lpmem (s : State) (o : Op) : (s.engineNext o).lpmem = s.lpmem := (State.engineNext_keep s o).2.2.2.2.1
@[simp] theorem State.engineNext_lpBad (s : State) (o : Op) : (s.engineNext o).lpBad = s.lpBad := (State.engineNext_keep s o).2.2.2.2.2.1
@[simp] theorem State.engineNext_arrays (s : State) (o : Op) : (s.engineNext o).arrays = s.arrays := (State.engineNext_keep s o).2.2.2.2.2.2.1
@[simp] theorem State.engineNext_tiles (s : State) (o : Op) : (s.engineNext o).tiles = s.tiles := (State.engineNext_keep s o).2.2.2.2.2.2.2.1
@[simp] theorem State.engineNext_gsem (s : State) (o : Op) : (s.engineNext o).gsem = s.gsem := (State.engineNext_keep s o).2.2.2.2.2.2.2.2.1
@[simp] theorem State.engineNext_reports (s : State) (o : Op) : (s.engineNext o).reports = s.reports := (State.engineNext_keep s o).2.2.2.2.2.2.2.2.2.1
@[simp] theorem State.engineNext_events (s : State) (o : Op) : (s.engineNext o).events = s.events := (State.engineNext_keep s o).2.2.2.2.2.2.2.2.2.2.1
@[simp] theorem State.engineNext_jobs (s : State) (o : Op) : (s.engineNext o).jobs = s.jobs := (State.engineNext_keep s o).2.2.2.2.2.2.2.2.2.2.2.1
@[simp] theorem State.engineNext_doms (s : State) (o : Op) : (s.engineNext o).doms = s.doms := (State.engineNext_keep s o).2.2.2.2.2.2.2.2.2.2.2.2.1
@[simp] theorem State.engineNext_chain (s : State) (o : Op) : (s.engineNext o).chain = s.chain := (State.engineNext_keep s o).2.2.2.2.2.2.2.2.2.2.2.2.2
@[simp] theorem State.engineNext_arr_keep (s : State) (o : Op) (key : Nat) : (s.engineNext o).arr key = s.arr key := by unfold State.arr; rw [State.engineNext_arrays]
@[simp] theorem State.engineNext_tile_keep (s : State) (o : Op) (key : Nat) : (s.engineNext o).tile key = s.tile key := by unfold State.tile; rw [State.engineNext_tiles]
@[simp] theorem State.engineNext_queue_keep (s : State) (o : Op) (key : Nat) : (s.engineNext o).queue key = s.queue key := by unfold State.queue; rw [State.engineNext_queues]
@[simp] theorem State.engineNext_dom_keep (s : State) (o : Op) (key : Nat) : (s.engineNext o).dom key = s.dom key := by unfold State.dom; rw [State.engineNext_doms]
@[simp] theorem State.engineNext_gs_keep (s : State) (o : Op) (key : Nat) : (s.engineNext o).gs key = s.gs key := by unfold State.gs; rw [State.engineNext_gsem]
@[simp] theorem State.engineNext_memByte_keep (s : State) (o : Op) (key : Nat) : (s.engineNext o).memByte key = s.memByte key := by unfold State.memByte; rw [State.engineNext_mem]
@[simp] theorem State.engineNext_lpByte_keep (s : State) (o : Op) (key : Nat) : (s.engineNext o).lpByte key = s.lpByte key := by unfold State.lpByte; rw [State.engineNext_lpmem]

theorem State.dropOp_keep (s : State) (o : Op) : (s.dropOp o).queues = s.queues ∧ (s.dropOp o).host = s.host ∧ (s.dropOp o).mem = s.mem ∧ (s.dropOp o).parBad = s.parBad ∧ (s.dropOp o).lpmem = s.lpmem ∧ (s.dropOp o).lpBad = s.lpBad ∧ (s.dropOp o).arrays = s.arrays ∧ (s.dropOp o).tiles = s.tiles ∧ (s.dropOp o).gsem = s.gsem ∧ (s.dropOp o).reports = s.reports ∧ (s.dropOp o).events = s.events ∧ (s.dropOp o).jobs = s.jobs ∧ (s.dropOp o).doms = s.doms ∧ (s.dropOp o).chain = s.chain := by unfold State.dropOp; (try dsimp only); (repeat' split) <;> simp
@[simp] theorem State.dropOp_queues (s : State) (o : Op) : (s.dropOp o).queues = s.queues := (State.dropOp_keep s o).1
@[simp] theorem State.dropOp_host (s : State) (o : Op) : (s.dropOp o).host = s.host := (State.dropOp_keep s o).2.1
@[simp] theorem State.dropOp_mem (s : State) (o : Op) : (s.dropOp o).mem = s.mem := (State.dropOp_keep s o).2.2.1
@[simp] theorem State.dropOp_parBad (s : State) (o : Op) : (s.dropOp o).parBad = s.parBad := (State.dropOp_keep s o).2.2.2.1
@[simp] theorem State.dropOp_lpmem (s : State) (o : Op) : (s.dropOp o).lpmem = s.lpmem := (State.dropOp_keep s o).2.2.2.2.1
@[simp] theorem State.dropOp_lpBad (s : State) (o : Op) : (s.dropOp o).lpBad = s.lpBad := (State.dropOp_keep s o).2.2.2.2.2.1
@[simp] theorem State.dropOp_arrays (s : State) (o : Op) : (s.dropOp o).arrays = s.arrays := (State.dropOp_keep s o).2.2.2.2.2.2.1
@[simp] theorem State.dropOp_tiles (s : State) (o : Op) : (s.dropOp o).tiles = s.tiles := (State.dropOp_keep s o).2.2.2.2.2.2.2.1
@[simp] theorem State.dropOp_gsem (s : State) (o : Op) : (s.dropOp o).gsem = s.gsem := (State.dropOp_keep s o).2.2.2.2.2.2.2.2.1
@[simp] theorem State.dropOp_reports (s : State) (o : Op) : (s.dropOp o).reports = s.reports := (State.dropOp_keep s o).2.2.2.2.2.2.2.2.2.1
@[simp] theorem State.dropOp_events (s : State) (o : Op) : (s.dropOp o).events = s.events := (State.dropOp_keep s o).2.2.2.2.2.2.2.2.2.2.1
@[simp] theorem State.dropOp_jobs (s : State) (o : Op) : (s.dropOp o).jobs = s.jobs := (State.dropOp_keep s o).2.2.2.2.2.2.2.2.2.2.2.1
@[simp] theorem State.dropOp_doms (s : State) (o : Op) : (s.dropOp o).doms = s.doms := (State.dropOp_keep s o).2.2.2.2.2.2.2.2.2.2.2.2.1
@[simp] theorem State.dropOp_chain (s : State) (o : Op) : (s.dropOp o).chain = s.chain := (State.dropOp_keep s o).2.2.2.2.2.2.2.2.2.2.2.2.2
@[simp] theorem State.dropOp_arr_keep (s : State) (o : Op) (key : Nat) : (s.dropOp o).arr key = s.arr key := by unfold State.arr; rw [State.dropOp_arrays]
@[simp] theorem State.dropOp_tile_keep (s : State) (o : Op) (key : Nat) : (s.dropOp o).tile key = s.tile key := by unfold State.tile; rw [State.dropOp_tiles]
@[simp] theorem State.dropOp_queue_keep (s : State) (o : Op) (key : Nat) : (s.dropOp o).queue key = s.queue key := by unfold State.queue; rw [State.dropOp_queues]
@[simp] theorem State.dropOp_dom_keep (s : State) (o : Op) (key : Nat) : (s.dropOp o).dom key = s.dom key := by unfold State.dom; rw [State.dropOp_doms]
@[simp] theorem State.dropOp_gs_keep (s : State) (o : Op) (key : Nat) : (s.dropOp o).gs key = s.gs key := by unfold State.gs; rw [State.dropOp_gsem]
@[simp] theorem State.dropOp_memByte_keep (s : State) (o : Op) (key : Nat) : (s.dropOp o).memByte key = s.memByte key := by unfold State.memByte; rw [State.dropOp_mem]
@[simp] theorem State.dropOp_lpByte_keep (s : State) (o : Op) (key : Nat) : (s.dropOp o).lpByte key = s.lpByte key := by unfold State.lpByte; rw [State.dropOp_lpmem]

theorem State.retire_keep (s : State) (o : Op) : (s.retire o).queues = s.queues ∧ (s.retire o).host = s.host ∧ (s.retire o).mem = s.mem ∧ (s.retire o).parBad = s.parBad ∧ (s.retire o).lpmem = s.lpmem ∧ (s.retire o).lpBad = s.lpBad ∧ (s.retire o).arrays = s.arrays ∧ (s.retire o).tiles = s.tiles ∧ (s.retire o).reports = s.reports ∧ (s.retire o).events = s.events ∧ (s.retire o).jobs = s.jobs ∧ (s.retire o).doms = s.doms ∧ (s.retire o).chain = s.chain := by unfold State.retire; (try dsimp only); (repeat' split) <;> simp
@[simp] theorem State.retire_queues (s : State) (o : Op) : (s.retire o).queues = s.queues := (State.retire_keep s o).1
@[simp] theorem State.retire_host (s : State) (o : Op) : (s.retire o).host = s.host := (State.retire_keep s o).2.1
@[simp] theorem State.retire_mem (s : State) (o : Op) : (s.retire o).mem = s.mem := (State.retire_keep s o).2.2.1
@[simp] theorem State.retire_parBad (s : State) (o : Op) : (s.retire o).parBad = s.parBad := (State.retire_keep s o).2.2.2.1
@[simp] theorem State.retire_lpmem (s : State) (o : Op) : (s.retire o).lpmem = s.lpmem := (State.retire_keep s o).2.2.2.2.1
@[simp] theorem State.retire_lpBad (s : State) (o : Op) : (s.retire o).lpBad = s.lpBad := (State.retire_keep s o).2.2.2.2.2.1
@[simp] theorem State.retire_arrays (s : State) (o : Op) : (s.retire o).arrays = s.arrays := (State.retire_keep s o).2.2.2.2.2.2.1
@[simp] theorem State.retire_tiles (s : State) (o : Op) : (s.retire o).tiles = s.tiles := (State.retire_keep s o).2.2.2.2.2.2.2.1
@[simp] theorem State.retire_reports (s : State) (o : Op) : (s.retire o).reports = s.reports := (State.retire_keep s o).2.2.2.2.2.2.2.2.1
@[simp] theorem State.retire_events (s : State) (o : Op) : (s.retire o).events = s.events := (State.retire_keep s o).2.2.2.2.2.2.2.2.2.1
@[simp] theorem State.retire_jobs (s : State) (o : Op) : (s.retire o).jobs = s.jobs := (State.retire_keep s o).2.2.2.2.2.2.2.2.2.2.1
@[simp] theorem State.retire_doms (s : State) (o : Op) : (s.retire o).doms = s.doms := (State.retire_keep s o).2.2.2.2.2.2.2.2.2.2.2.1
@[simp] theorem State.retire_chain (s : State) (o : Op) : (s.retire o).chain = s.chain := (State.retire_keep s o).2.2.2.2.2.2.2.2.2.2.2.2
@[simp] theorem State.retire_arr_keep (s : State) (o : Op) (key : Nat) : (s.retire o).arr key = s.arr key := by unfold State.arr; rw [State.retire_arrays]
@[simp] theorem State.retire_tile_keep (s : State) (o : Op) (key : Nat) : (s.retire o).tile key = s.tile key := by unfold State.tile; rw [State.retire_tiles]
@[simp] theorem State.retire_queue_keep (s : State) (o : Op) (key : Nat) : (s.retire o).queue key = s.queue key := by unfold State.queue; rw [State.retire_queues]
@[simp] theorem State.retire_dom_keep (s : State) (o : Op) (key : Nat) : (s.retire o).dom key = s.dom key := by unfold State.dom; rw [State.retire_doms]
@[simp] theorem State.retire_memByte_keep (s : State) (o : Op) (key : Nat) : (s.retire o).memByte key = s.memByte key := by unfold State.memByte; rw [State.retire_mem]
@[simp] theorem State.retire_lpByte_keep (s : State) (o : Op) (key : Nat) : (s.retire o).lpByte key = s.lpByte key := by unfold State.lpByte; rw [State.retire_lpmem]

theorem State.stopOp_keep (s : State) (o : Op) (c : Code) : (s.stopOp o c).queues = s.queues ∧ (s.stopOp o c).host = s.host ∧ (s.stopOp o c).mem = s.mem ∧ (s.stopOp o c).parBad = s.parBad ∧ (s.stopOp o c).lpmem = s.lpmem ∧ (s.stopOp o c).lpBad = s.lpBad ∧ (s.stopOp o c).arrays = s.arrays ∧ (s.stopOp o c).tiles = s.tiles ∧ (s.stopOp o c).gsem = s.gsem ∧ (s.stopOp o c).reports = s.reports ∧ (s.stopOp o c).events = s.events ∧ (s.stopOp o c).jobs = s.jobs ∧ (s.stopOp o c).doms = s.doms ∧ (s.stopOp o c).chain = s.chain := by unfold State.stopOp; (try dsimp only); (repeat' split) <;> simp
@[simp] theorem State.stopOp_queues (s : State) (o : Op) (c : Code) : (s.stopOp o c).queues = s.queues := (State.stopOp_keep s o c).1
@[simp] theorem State.stopOp_host (s : State) (o : Op) (c : Code) : (s.stopOp o c).host = s.host := (State.stopOp_keep s o c).2.1
@[simp] theorem State.stopOp_mem (s : State) (o : Op) (c : Code) : (s.stopOp o c).mem = s.mem := (State.stopOp_keep s o c).2.2.1
@[simp] theorem State.stopOp_parBad (s : State) (o : Op) (c : Code) : (s.stopOp o c).parBad = s.parBad := (State.stopOp_keep s o c).2.2.2.1
@[simp] theorem State.stopOp_lpmem (s : State) (o : Op) (c : Code) : (s.stopOp o c).lpmem = s.lpmem := (State.stopOp_keep s o c).2.2.2.2.1
@[simp] theorem State.stopOp_lpBad (s : State) (o : Op) (c : Code) : (s.stopOp o c).lpBad = s.lpBad := (State.stopOp_keep s o c).2.2.2.2.2.1
@[simp] theorem State.stopOp_arrays (s : State) (o : Op) (c : Code) : (s.stopOp o c).arrays = s.arrays := (State.stopOp_keep s o c).2.2.2.2.2.2.1
@[simp] theorem State.stopOp_tiles (s : State) (o : Op) (c : Code) : (s.stopOp o c).tiles = s.tiles := (State.stopOp_keep s o c).2.2.2.2.2.2.2.1
@[simp] theorem State.stopOp_gsem (s : State) (o : Op) (c : Code) : (s.stopOp o c).gsem = s.gsem := (State.stopOp_keep s o c).2.2.2.2.2.2.2.2.1
@[simp] theorem State.stopOp_reports (s : State) (o : Op) (c : Code) : (s.stopOp o c).reports = s.reports := (State.stopOp_keep s o c).2.2.2.2.2.2.2.2.2.1
@[simp] theorem State.stopOp_events (s : State) (o : Op) (c : Code) : (s.stopOp o c).events = s.events := (State.stopOp_keep s o c).2.2.2.2.2.2.2.2.2.2.1
@[simp] theorem State.stopOp_jobs (s : State) (o : Op) (c : Code) : (s.stopOp o c).jobs = s.jobs := (State.stopOp_keep s o c).2.2.2.2.2.2.2.2.2.2.2.1
@[simp] theorem State.stopOp_doms (s : State) (o : Op) (c : Code) : (s.stopOp o c).doms = s.doms := (State.stopOp_keep s o c).2.2.2.2.2.2.2.2.2.2.2.2.1
@[simp] theorem State.stopOp_chain (s : State) (o : Op) (c : Code) : (s.stopOp o c).chain = s.chain := (State.stopOp_keep s o c).2.2.2.2.2.2.2.2.2.2.2.2.2
@[simp] theorem State.stopOp_arr_keep (s : State) (o : Op) (c : Code) (key : Nat) : (s.stopOp o c).arr key = s.arr key := by unfold State.arr; rw [State.stopOp_arrays]
@[simp] theorem State.stopOp_tile_keep (s : State) (o : Op) (c : Code) (key : Nat) : (s.stopOp o c).tile key = s.tile key := by unfold State.tile; rw [State.stopOp_tiles]
@[simp] theorem State.stopOp_queue_keep (s : State) (o : Op) (c : Code) (key : Nat) : (s.stopOp o c).queue key = s.queue key := by unfold State.queue; rw [State.stopOp_queues]
@[simp] theorem State.stopOp_dom_keep (s : State) (o : Op) (c : Code) (key : Nat) : (s.stopOp o c).dom key = s.dom key := by unfold State.dom; rw [State.stopOp_doms]
@[simp] theorem State.stopOp_gs_keep (s : State) (o : Op) (c : Code) (key : Nat) : (s.stopOp o c).gs key = s.gs key := by unfold State.gs; rw [State.stopOp_gsem]
@[simp] theorem State.stopOp_memByte_keep (s : State) (o : Op) (c : Code) (key : Nat) : (s.stopOp o c).memByte key = s.memByte key := by unfold State.memByte; rw [State.stopOp_mem]
@[simp] theorem State.stopOp_lpByte_keep (s : State) (o : Op) (c : Code) (key : Nat) : (s.stopOp o c).lpByte key = s.lpByte key := by unfold State.lpByte; rw [State.stopOp_lpmem]

theorem State.putOp_keep (s : State) (o : Op) : (s.putOp o).regs = s.regs ∧ (s.putOp o).pages = s.pages ∧ (s.putOp o).queues = s.queues ∧ (s.putOp o).host = s.host ∧ (s.putOp o).mem = s.mem ∧ (s.putOp o).parBad = s.parBad ∧ (s.putOp o).lpmem = s.lpmem ∧ (s.putOp o).lpBad = s.lpBad ∧ (s.putOp o).arrays = s.arrays ∧ (s.putOp o).tiles = s.tiles ∧ (s.putOp o).clus = s.clus ∧ (s.putOp o).ctxs = s.ctxs ∧ (s.putOp o).gsem = s.gsem ∧ (s.putOp o).reports = s.reports ∧ (s.putOp o).events = s.events ∧ (s.putOp o).jobs = s.jobs ∧ (s.putOp o).doms = s.doms ∧ (s.putOp o).chain = s.chain := by unfold State.putOp; simp
@[simp] theorem State.putOp_regs (s : State) (o : Op) : (s.putOp o).regs = s.regs := (State.putOp_keep s o).1
@[simp] theorem State.putOp_pages (s : State) (o : Op) : (s.putOp o).pages = s.pages := (State.putOp_keep s o).2.1
@[simp] theorem State.putOp_queues (s : State) (o : Op) : (s.putOp o).queues = s.queues := (State.putOp_keep s o).2.2.1
@[simp] theorem State.putOp_host (s : State) (o : Op) : (s.putOp o).host = s.host := (State.putOp_keep s o).2.2.2.1
@[simp] theorem State.putOp_mem (s : State) (o : Op) : (s.putOp o).mem = s.mem := (State.putOp_keep s o).2.2.2.2.1
@[simp] theorem State.putOp_parBad (s : State) (o : Op) : (s.putOp o).parBad = s.parBad := (State.putOp_keep s o).2.2.2.2.2.1
@[simp] theorem State.putOp_lpmem (s : State) (o : Op) : (s.putOp o).lpmem = s.lpmem := (State.putOp_keep s o).2.2.2.2.2.2.1
@[simp] theorem State.putOp_lpBad (s : State) (o : Op) : (s.putOp o).lpBad = s.lpBad := (State.putOp_keep s o).2.2.2.2.2.2.2.1
@[simp] theorem State.putOp_arrays (s : State) (o : Op) : (s.putOp o).arrays = s.arrays := (State.putOp_keep s o).2.2.2.2.2.2.2.2.1
@[simp] theorem State.putOp_tiles (s : State) (o : Op) : (s.putOp o).tiles = s.tiles := (State.putOp_keep s o).2.2.2.2.2.2.2.2.2.1
@[simp] theorem State.putOp_clus (s : State) (o : Op) : (s.putOp o).clus = s.clus := (State.putOp_keep s o).2.2.2.2.2.2.2.2.2.2.1
@[simp] theorem State.putOp_ctxs (s : State) (o : Op) : (s.putOp o).ctxs = s.ctxs := (State.putOp_keep s o).2.2.2.2.2.2.2.2.2.2.2.1
@[simp] theorem State.putOp_gsem (s : State) (o : Op) : (s.putOp o).gsem = s.gsem := (State.putOp_keep s o).2.2.2.2.2.2.2.2.2.2.2.2.1
@[simp] theorem State.putOp_reports (s : State) (o : Op) : (s.putOp o).reports = s.reports := (State.putOp_keep s o).2.2.2.2.2.2.2.2.2.2.2.2.2.1
@[simp] theorem State.putOp_events (s : State) (o : Op) : (s.putOp o).events = s.events := (State.putOp_keep s o).2.2.2.2.2.2.2.2.2.2.2.2.2.2.1
@[simp] theorem State.putOp_jobs (s : State) (o : Op) : (s.putOp o).jobs = s.jobs := (State.putOp_keep s o).2.2.2.2.2.2.2.2.2.2.2.2.2.2.2.1
@[simp] theorem State.putOp_doms (s : State) (o : Op) : (s.putOp o).doms = s.doms := (State.putOp_keep s o).2.2.2.2.2.2.2.2.2.2.2.2.2.2.2.2.1
@[simp] theorem State.putOp_chain (s : State) (o : Op) : (s.putOp o).chain = s.chain := (State.putOp_keep s o).2.2.2.2.2.2.2.2.2.2.2.2.2.2.2.2.2
@[simp] theorem State.putOp_arr_keep (s : State) (o : Op) (key : Nat) : (s.putOp o).arr key = s.arr key := by unfold State.arr; rw [State.putOp_arrays]
@[simp] theorem State.putOp_tile_keep (s : State) (o : Op) (key : Nat) : (s.putOp o).tile key = s.tile key := by unfold State.tile; rw [State.putOp_tiles]
@[simp] theorem State.putOp_clu_keep (s : State) (o : Op) (key : Nat) : (s.putOp o).clu key = s.clu key := by unfold State.clu; rw [State.putOp_clus]
@[simp] theorem State.putOp_ctx_keep (s : State) (o : Op) (key : Nat) : (s.putOp o).ctx key = s.ctx key := by unfold State.ctx; rw [State.putOp_ctxs]
@[simp] theorem State.putOp_queue_keep (s : State) (o : Op) (key : Nat) : (s.putOp o).queue key = s.queue key := by unfold State.queue; rw [State.putOp_queues]
@[simp] theorem State.putOp_page_keep (s : State) (o : Op) (key : Nat) : (s.putOp o).page key = s.page key := by unfold State.page; rw [State.putOp_pages]
@[simp] theorem State.putOp_dom_keep (s : State) (o : Op) (key : Nat) : (s.putOp o).dom key = s.dom key := by unfold State.dom; rw [State.putOp_doms]
@[simp] theorem State.putOp_gs_keep (s : State) (o : Op) (key : Nat) : (s.putOp o).gs key = s.gs key := by unfold State.gs; rw [State.putOp_gsem]
@[simp] theorem State.putOp_rd_keep (s : State) (o : Op) (key : Nat) : (s.putOp o).rd key = s.rd key := by unfold State.rd; rw [State.putOp_regs]
@[simp] theorem State.putOp_memByte_keep (s : State) (o : Op) (key : Nat) : (s.putOp o).memByte key = s.memByte key := by unfold State.memByte; rw [State.putOp_mem]
@[simp] theorem State.putOp_lpByte_keep (s : State) (o : Op) (key : Nat) : (s.putOp o).lpByte key = s.lpByte key := by unfold State.lpByte; rw [State.putOp_lpmem]

theorem State.logWrite_keep (s : State) (ctx u c tile : Nat) : (s.logWrite ctx u c tile).regs = s.regs ∧ (s.logWrite ctx u c tile).pages = s.pages ∧ (s.logWrite ctx u c tile).queues = s.queues ∧ (s.logWrite ctx u c tile).host = s.host ∧ (s.logWrite ctx u c tile).mem = s.mem ∧ (s.logWrite ctx u c tile).parBad = s.parBad ∧ (s.logWrite ctx u c tile).lpmem = s.lpmem ∧ (s.logWrite ctx u c tile).lpBad = s.lpBad ∧ (s.logWrite ctx u c tile).arrays = s.arrays ∧ (s.logWrite ctx u c tile).tiles = s.tiles ∧ (s.logWrite ctx u c tile).clus = s.clus ∧ (s.logWrite ctx u c tile).ops = s.ops ∧ (s.logWrite ctx u c tile).gsem = s.gsem ∧ (s.logWrite ctx u c tile).reports = s.reports ∧ (s.logWrite ctx u c tile).events = s.events ∧ (s.logWrite ctx u c tile).jobs = s.jobs ∧ (s.logWrite ctx u c tile).doms = s.doms ∧ (s.logWrite ctx u c tile).chain = s.chain := by unfold State.logWrite; (try dsimp only); (repeat' split) <;> simp
@[simp] theorem State.logWrite_regs (s : State) (ctx u c tile : Nat) : (s.logWrite ctx u c tile).regs = s.regs := (State.logWrite_keep s ctx u c tile).1
@[simp] theorem State.logWrite_pages (s : State) (ctx u c tile : Nat) : (s.logWrite ctx u c tile).pages = s.pages := (State.logWrite_keep s ctx u c tile).2.1
@[simp] theorem State.logWrite_queues (s : State) (ctx u c tile : Nat) : (s.logWrite ctx u c tile).queues = s.queues := (State.logWrite_keep s ctx u c tile).2.2.1
@[simp] theorem State.logWrite_host (s : State) (ctx u c tile : Nat) : (s.logWrite ctx u c tile).host = s.host := (State.logWrite_keep s ctx u c tile).2.2.2.1
@[simp] theorem State.logWrite_mem (s : State) (ctx u c tile : Nat) : (s.logWrite ctx u c tile).mem = s.mem := (State.logWrite_keep s ctx u c tile).2.2.2.2.1
@[simp] theorem State.logWrite_parBad (s : State) (ctx u c tile : Nat) : (s.logWrite ctx u c tile).parBad = s.parBad := (State.logWrite_keep s ctx u c tile).2.2.2.2.2.1
@[simp] theorem State.logWrite_lpmem (s : State) (ctx u c tile : Nat) : (s.logWrite ctx u c tile).lpmem = s.lpmem := (State.logWrite_keep s ctx u c tile).2.2.2.2.2.2.1
@[simp] theorem State.logWrite_lpBad (s : State) (ctx u c tile : Nat) : (s.logWrite ctx u c tile).lpBad = s.lpBad := (State.logWrite_keep s ctx u c tile).2.2.2.2.2.2.2.1
@[simp] theorem State.logWrite_arrays (s : State) (ctx u c tile : Nat) : (s.logWrite ctx u c tile).arrays = s.arrays := (State.logWrite_keep s ctx u c tile).2.2.2.2.2.2.2.2.1
@[simp] theorem State.logWrite_tiles (s : State) (ctx u c tile : Nat) : (s.logWrite ctx u c tile).tiles = s.tiles := (State.logWrite_keep s ctx u c tile).2.2.2.2.2.2.2.2.2.1
@[simp] theorem State.logWrite_clus (s : State) (ctx u c tile : Nat) : (s.logWrite ctx u c tile).clus = s.clus := (State.logWrite_keep s ctx u c tile).2.2.2.2.2.2.2.2.2.2.1
@[simp] theorem State.logWrite_ops (s : State) (ctx u c tile : Nat) : (s.logWrite ctx u c tile).ops = s.ops := (State.logWrite_keep s ctx u c tile).2.2.2.2.2.2.2.2.2.2.2.1
@[simp] theorem State.logWrite_gsem (s : State) (ctx u c tile : Nat) : (s.logWrite ctx u c tile).gsem = s.gsem := (State.logWrite_keep s ctx u c tile).2.2.2.2.2.2.2.2.2.2.2.2.1
@[simp] theorem State.logWrite_reports (s : State) (ctx u c tile : Nat) : (s.logWrite ctx u c tile).reports = s.reports := (State.logWrite_keep s ctx u c tile).2.2.2.2.2.2.2.2.2.2.2.2.2.1
@[simp] theorem State.logWrite_events (s : State) (ctx u c tile : Nat) : (s.logWrite ctx u c tile).events = s.events := (State.logWrite_keep s ctx u c tile).2.2.2.2.2.2.2.2.2.2.2.2.2.2.1
@[simp] theorem State.logWrite_jobs (s : State) (ctx u c tile : Nat) : (s.logWrite ctx u c tile).jobs = s.jobs := (State.logWrite_keep s ctx u c tile).2.2.2.2.2.2.2.2.2.2.2.2.2.2.2.1
@[simp] theorem State.logWrite_doms (s : State) (ctx u c tile : Nat) : (s.logWrite ctx u c tile).doms = s.doms := (State.logWrite_keep s ctx u c tile).2.2.2.2.2.2.2.2.2.2.2.2.2.2.2.2.1
@[simp] theorem State.logWrite_chain (s : State) (ctx u c tile : Nat) : (s.logWrite ctx u c tile).chain = s.chain := (State.logWrite_keep s ctx u c tile).2.2.2.2.2.2.2.2.2.2.2.2.2.2.2.2.2
@[simp] theorem State.logWrite_arr_keep (s : State) (ctx u c tile : Nat) (key : Nat) : (s.logWrite ctx u c tile).arr key = s.arr key := by unfold State.arr; rw [State.logWrite_arrays]
@[simp] theorem State.logWrite_tile_keep (s : State) (ctx u c tile : Nat) (key : Nat) : (s.logWrite ctx u c tile).tile key = s.tile key := by unfold State.tile; rw [State.logWrite_tiles]
@[simp] theorem State.logWrite_clu_keep (s : State) (ctx u c tile : Nat) (key : Nat) : (s.logWrite ctx u c tile).clu key = s.clu key := by unfold State.clu; rw [State.logWrite_clus]
@[simp] theorem State.logWrite_queue_keep (s : State) (ctx u c tile : Nat) (key : Nat) : (s.logWrite ctx u c tile).queue key = s.queue key := by unfold State.queue; rw [State.logWrite_queues]
@[simp] theorem State.logWrite_page_keep (s : State) (ctx u c tile : Nat) (key : Nat) : (s.logWrite ctx u c tile).page key = s.page key := by unfold State.page; rw [State.logWrite_pages]
@[simp] theorem State.logWrite_dom_keep (s : State) (ctx u c tile : Nat) (key : Nat) : (s.logWrite ctx u c tile).dom key = s.dom key := by unfold State.dom; rw [State.logWrite_doms]
@[simp] theorem State.logWrite_gs_keep (s : State) (ctx u c tile : Nat) (key : Nat) : (s.logWrite ctx u c tile).gs key = s.gs key := by unfold State.gs; rw [State.logWrite_gsem]
@[simp] theorem State.logWrite_rd_keep (s : State) (ctx u c tile : Nat) (key : Nat) : (s.logWrite ctx u c tile).rd key = s.rd key := by unfold State.rd; rw [State.logWrite_regs]
@[simp] theorem State.logWrite_memByte_keep (s : State) (ctx u c tile : Nat) (key : Nat) : (s.logWrite ctx u c tile).memByte key = s.memByte key := by unfold State.memByte; rw [State.logWrite_mem]
@[simp] theorem State.logWrite_lpByte_keep (s : State) (ctx u c tile : Nat) (key : Nat) : (s.logWrite ctx u c tile).lpByte key = s.lpByte key := by unfold State.lpByte; rw [State.logWrite_lpmem]

theorem State.logOp_keep (s : State) (o : Op) (u c tile : Nat) : (s.logOp o u c tile).regs = s.regs ∧ (s.logOp o u c tile).pages = s.pages ∧ (s.logOp o u c tile).queues = s.queues ∧ (s.logOp o u c tile).host = s.host ∧ (s.logOp o u c tile).mem = s.mem ∧ (s.logOp o u c tile).parBad = s.parBad ∧ (s.logOp o u c tile).lpmem = s.lpmem ∧ (s.logOp o u c tile).lpBad = s.lpBad ∧ (s.logOp o u c tile).arrays = s.arrays ∧ (s.logOp o u c tile).tiles = s.tiles ∧ (s.logOp o u c tile).clus = s.clus ∧ (s.logOp o u c tile).ops = s.ops ∧ (s.logOp o u c tile).gsem = s.gsem ∧ (s.logOp o u c tile).reports = s.reports ∧ (s.logOp o u c tile).events = s.events ∧ (s.logOp o u c tile).jobs = s.jobs ∧ (s.logOp o u c tile).doms = s.doms ∧ (s.logOp o u c tile).chain = s.chain := by unfold State.logOp; (try dsimp only); (repeat' split) <;> simp
@[simp] theorem State.logOp_regs (s : State) (o : Op) (u c tile : Nat) : (s.logOp o u c tile).regs = s.regs := (State.logOp_keep s o u c tile).1
@[simp] theorem State.logOp_pages (s : State) (o : Op) (u c tile : Nat) : (s.logOp o u c tile).pages = s.pages := (State.logOp_keep s o u c tile).2.1
@[simp] theorem State.logOp_queues (s : State) (o : Op) (u c tile : Nat) : (s.logOp o u c tile).queues = s.queues := (State.logOp_keep s o u c tile).2.2.1
@[simp] theorem State.logOp_host (s : State) (o : Op) (u c tile : Nat) : (s.logOp o u c tile).host = s.host := (State.logOp_keep s o u c tile).2.2.2.1
@[simp] theorem State.logOp_mem (s : State) (o : Op) (u c tile : Nat) : (s.logOp o u c tile).mem = s.mem := (State.logOp_keep s o u c tile).2.2.2.2.1
@[simp] theorem State.logOp_parBad (s : State) (o : Op) (u c tile : Nat) : (s.logOp o u c tile).parBad = s.parBad := (State.logOp_keep s o u c tile).2.2.2.2.2.1
@[simp] theorem State.logOp_lpmem (s : State) (o : Op) (u c tile : Nat) : (s.logOp o u c tile).lpmem = s.lpmem := (State.logOp_keep s o u c tile).2.2.2.2.2.2.1
@[simp] theorem State.logOp_lpBad (s : State) (o : Op) (u c tile : Nat) : (s.logOp o u c tile).lpBad = s.lpBad := (State.logOp_keep s o u c tile).2.2.2.2.2.2.2.1
@[simp] theorem State.logOp_arrays (s : State) (o : Op) (u c tile : Nat) : (s.logOp o u c tile).arrays = s.arrays := (State.logOp_keep s o u c tile).2.2.2.2.2.2.2.2.1
@[simp] theorem State.logOp_tiles (s : State) (o : Op) (u c tile : Nat) : (s.logOp o u c tile).tiles = s.tiles := (State.logOp_keep s o u c tile).2.2.2.2.2.2.2.2.2.1
@[simp] theorem State.logOp_clus (s : State) (o : Op) (u c tile : Nat) : (s.logOp o u c tile).clus = s.clus := (State.logOp_keep s o u c tile).2.2.2.2.2.2.2.2.2.2.1
@[simp] theorem State.logOp_ops (s : State) (o : Op) (u c tile : Nat) : (s.logOp o u c tile).ops = s.ops := (State.logOp_keep s o u c tile).2.2.2.2.2.2.2.2.2.2.2.1
@[simp] theorem State.logOp_gsem (s : State) (o : Op) (u c tile : Nat) : (s.logOp o u c tile).gsem = s.gsem := (State.logOp_keep s o u c tile).2.2.2.2.2.2.2.2.2.2.2.2.1
@[simp] theorem State.logOp_reports (s : State) (o : Op) (u c tile : Nat) : (s.logOp o u c tile).reports = s.reports := (State.logOp_keep s o u c tile).2.2.2.2.2.2.2.2.2.2.2.2.2.1
@[simp] theorem State.logOp_events (s : State) (o : Op) (u c tile : Nat) : (s.logOp o u c tile).events = s.events := (State.logOp_keep s o u c tile).2.2.2.2.2.2.2.2.2.2.2.2.2.2.1
@[simp] theorem State.logOp_jobs (s : State) (o : Op) (u c tile : Nat) : (s.logOp o u c tile).jobs = s.jobs := (State.logOp_keep s o u c tile).2.2.2.2.2.2.2.2.2.2.2.2.2.2.2.1
@[simp] theorem State.logOp_doms (s : State) (o : Op) (u c tile : Nat) : (s.logOp o u c tile).doms = s.doms := (State.logOp_keep s o u c tile).2.2.2.2.2.2.2.2.2.2.2.2.2.2.2.2.1
@[simp] theorem State.logOp_chain (s : State) (o : Op) (u c tile : Nat) : (s.logOp o u c tile).chain = s.chain := (State.logOp_keep s o u c tile).2.2.2.2.2.2.2.2.2.2.2.2.2.2.2.2.2
@[simp] theorem State.logOp_arr_keep (s : State) (o : Op) (u c tile : Nat) (key : Nat) : (s.logOp o u c tile).arr key = s.arr key := by unfold State.arr; rw [State.logOp_arrays]
@[simp] theorem State.logOp_tile_keep (s : State) (o : Op) (u c tile : Nat) (key : Nat) : (s.logOp o u c tile).tile key = s.tile key := by unfold State.tile; rw [State.logOp_tiles]
@[simp] theorem State.logOp_clu_keep (s : State) (o : Op) (u c tile : Nat) (key : Nat) : (s.logOp o u c tile).clu key = s.clu key := by unfold State.clu; rw [State.logOp_clus]
@[simp] theorem State.logOp_queue_keep (s : State) (o : Op) (u c tile : Nat) (key : Nat) : (s.logOp o u c tile).queue key = s.queue key := by unfold State.queue; rw [State.logOp_queues]
@[simp] theorem State.logOp_page_keep (s : State) (o : Op) (u c tile : Nat) (key : Nat) : (s.logOp o u c tile).page key = s.page key := by unfold State.page; rw [State.logOp_pages]
@[simp] theorem State.logOp_dom_keep (s : State) (o : Op) (u c tile : Nat) (key : Nat) : (s.logOp o u c tile).dom key = s.dom key := by unfold State.dom; rw [State.logOp_doms]
@[simp] theorem State.logOp_gs_keep (s : State) (o : Op) (u c tile : Nat) (key : Nat) : (s.logOp o u c tile).gs key = s.gs key := by unfold State.gs; rw [State.logOp_gsem]
@[simp] theorem State.logOp_rd_keep (s : State) (o : Op) (u c tile : Nat) (key : Nat) : (s.logOp o u c tile).rd key = s.rd key := by unfold State.rd; rw [State.logOp_regs]
@[simp] theorem State.logOp_memByte_keep (s : State) (o : Op) (u c tile : Nat) (key : Nat) : (s.logOp o u c tile).memByte key = s.memByte key := by unfold State.memByte; rw [State.logOp_mem]
@[simp] theorem State.logOp_lpByte_keep (s : State) (o : Op) (u c tile : Nat) (key : Nat) : (s.logOp o u c tile).lpByte key = s.lpByte key := by unfold State.lpByte; rw [State.logOp_lpmem]

theorem State.tileFault_keep (s : State) (ctx invoc c t e : Nat) : (s.tileFault ctx invoc c t e).pages = s.pages ∧ (s.tileFault ctx invoc c t e).queues = s.queues ∧ (s.tileFault ctx invoc c t e).host = s.host ∧ (s.tileFault ctx invoc c t e).mem = s.mem ∧ (s.tileFault ctx invoc c t e).parBad = s.parBad ∧ (s.tileFault ctx invoc c t e).lpmem = s.lpmem ∧ (s.tileFault ctx invoc c t e).lpBad = s.lpBad ∧ (s.tileFault ctx invoc c t e).arrays = s.arrays ∧ (s.tileFault ctx invoc c t e).tiles = s.tiles ∧ (s.tileFault ctx invoc c t e).clus = s.clus ∧ (s.tileFault ctx invoc c t e).ctxs = s.ctxs ∧ (s.tileFault ctx invoc c t e).ops = s.ops ∧ (s.tileFault ctx invoc c t e).gsem = s.gsem ∧ (s.tileFault ctx invoc c t e).events = s.events ∧ (s.tileFault ctx invoc c t e).jobs = s.jobs ∧ (s.tileFault ctx invoc c t e).doms = s.doms ∧ (s.tileFault ctx invoc c t e).chain = s.chain := by unfold State.tileFault; (try dsimp only); (repeat' split) <;> simp
@[simp] theorem State.tileFault_pages (s : State) (ctx invoc c t e : Nat) : (s.tileFault ctx invoc c t e).pages = s.pages := (State.tileFault_keep s ctx invoc c t e).1
@[simp] theorem State.tileFault_queues (s : State) (ctx invoc c t e : Nat) : (s.tileFault ctx invoc c t e).queues = s.queues := (State.tileFault_keep s ctx invoc c t e).2.1
@[simp] theorem State.tileFault_host (s : State) (ctx invoc c t e : Nat) : (s.tileFault ctx invoc c t e).host = s.host := (State.tileFault_keep s ctx invoc c t e).2.2.1
@[simp] theorem State.tileFault_mem (s : State) (ctx invoc c t e : Nat) : (s.tileFault ctx invoc c t e).mem = s.mem := (State.tileFault_keep s ctx invoc c t e).2.2.2.1
@[simp] theorem State.tileFault_parBad (s : State) (ctx invoc c t e : Nat) : (s.tileFault ctx invoc c t e).parBad = s.parBad := (State.tileFault_keep s ctx invoc c t e).2.2.2.2.1
@[simp] theorem State.tileFault_lpmem (s : State) (ctx invoc c t e : Nat) : (s.tileFault ctx invoc c t e).lpmem = s.lpmem := (State.tileFault_keep s ctx invoc c t e).2.2.2.2.2.1
@[simp] theorem State.tileFault_lpBad (s : State) (ctx invoc c t e : Nat) : (s.tileFault ctx invoc c t e).lpBad = s.lpBad := (State.tileFault_keep s ctx invoc c t e).2.2.2.2.2.2.1
@[simp] theorem State.tileFault_arrays (s : State) (ctx invoc c t e : Nat) : (s.tileFault ctx invoc c t e).arrays = s.arrays := (State.tileFault_keep s ctx invoc c t e).2.2.2.2.2.2.2.1
@[simp] theorem State.tileFault_tiles (s : State) (ctx invoc c t e : Nat) : (s.tileFault ctx invoc c t e).tiles = s.tiles := (State.tileFault_keep s ctx invoc c t e).2.2.2.2.2.2.2.2.1
@[simp] theorem State.tileFault_clus (s : State) (ctx invoc c t e : Nat) : (s.tileFault ctx invoc c t e).clus = s.clus := (State.tileFault_keep s ctx invoc c t e).2.2.2.2.2.2.2.2.2.1
@[simp] theorem State.tileFault_ctxs (s : State) (ctx invoc c t e : Nat) : (s.tileFault ctx invoc c t e).ctxs = s.ctxs := (State.tileFault_keep s ctx invoc c t e).2.2.2.2.2.2.2.2.2.2.1
@[simp] theorem State.tileFault_ops (s : State) (ctx invoc c t e : Nat) : (s.tileFault ctx invoc c t e).ops = s.ops := (State.tileFault_keep s ctx invoc c t e).2.2.2.2.2.2.2.2.2.2.2.1
@[simp] theorem State.tileFault_gsem (s : State) (ctx invoc c t e : Nat) : (s.tileFault ctx invoc c t e).gsem = s.gsem := (State.tileFault_keep s ctx invoc c t e).2.2.2.2.2.2.2.2.2.2.2.2.1
@[simp] theorem State.tileFault_events (s : State) (ctx invoc c t e : Nat) : (s.tileFault ctx invoc c t e).events = s.events := (State.tileFault_keep s ctx invoc c t e).2.2.2.2.2.2.2.2.2.2.2.2.2.1
@[simp] theorem State.tileFault_jobs (s : State) (ctx invoc c t e : Nat) : (s.tileFault ctx invoc c t e).jobs = s.jobs := (State.tileFault_keep s ctx invoc c t e).2.2.2.2.2.2.2.2.2.2.2.2.2.2.1
@[simp] theorem State.tileFault_doms (s : State) (ctx invoc c t e : Nat) : (s.tileFault ctx invoc c t e).doms = s.doms := (State.tileFault_keep s ctx invoc c t e).2.2.2.2.2.2.2.2.2.2.2.2.2.2.2.1
@[simp] theorem State.tileFault_chain (s : State) (ctx invoc c t e : Nat) : (s.tileFault ctx invoc c t e).chain = s.chain := (State.tileFault_keep s ctx invoc c t e).2.2.2.2.2.2.2.2.2.2.2.2.2.2.2.2
@[simp] theorem State.tileFault_arr_keep (s : State) (ctx invoc c t e : Nat) (key : Nat) : (s.tileFault ctx invoc c t e).arr key = s.arr key := by unfold State.arr; rw [State.tileFault_arrays]
@[simp] theorem State.tileFault_tile_keep (s : State) (ctx invoc c t e : Nat) (key : Nat) : (s.tileFault ctx invoc c t e).tile key = s.tile key := by unfold State.tile; rw [State.tileFault_tiles]
@[simp] theorem State.tileFault_clu_keep (s : State) (ctx invoc c t e : Nat) (key : Nat) : (s.tileFault ctx invoc c t e).clu key = s.clu key := by unfold State.clu; rw [State.tileFault_clus]
@[simp] theorem State.tileFault_ctx_keep (s : State) (ctx invoc c t e : Nat) (key : Nat) : (s.tileFault ctx invoc c t e).ctx key = s.ctx key := by unfold State.ctx; rw [State.tileFault_ctxs]
@[simp] theorem State.tileFault_queue_keep (s : State) (ctx invoc c t e : Nat) (key : Nat) : (s.tileFault ctx invoc c t e).queue key = s.queue key := by unfold State.queue; rw [State.tileFault_queues]
@[simp] theorem State.tileFault_page_keep (s : State) (ctx invoc c t e : Nat) (key : Nat) : (s.tileFault ctx invoc c t e).page key = s.page key := by unfold State.page; rw [State.tileFault_pages]
@[simp] theorem State.tileFault_dom_keep (s : State) (ctx invoc c t e : Nat) (key : Nat) : (s.tileFault ctx invoc c t e).dom key = s.dom key := by unfold State.dom; rw [State.tileFault_doms]
@[simp] theorem State.tileFault_gs_keep (s : State) (ctx invoc c t e : Nat) (key : Nat) : (s.tileFault ctx invoc c t e).gs key = s.gs key := by unfold State.gs; rw [State.tileFault_gsem]
@[simp] theorem State.tileFault_memByte_keep (s : State) (ctx invoc c t e : Nat) (key : Nat) : (s.tileFault ctx invoc c t e).memByte key = s.memByte key := by unfold State.memByte; rw [State.tileFault_mem]
@[simp] theorem State.tileFault_lpByte_keep (s : State) (ctx invoc c t e : Nat) (key : Nat) : (s.tileFault ctx invoc c t e).lpByte key = s.lpByte key := by unfold State.lpByte; rw [State.tileFault_lpmem]

theorem State.lpFault_keep (s : State) (a ctx invoc : Nat) : (s.lpFault a ctx invoc).queues = s.queues ∧ (s.lpFault a ctx invoc).host = s.host ∧ (s.lpFault a ctx invoc).mem = s.mem ∧ (s.lpFault a ctx invoc).parBad = s.parBad ∧ (s.lpFault a ctx invoc).lpmem = s.lpmem ∧ (s.lpFault a ctx invoc).lpBad = s.lpBad ∧ (s.lpFault a ctx invoc).arrays = s.arrays ∧ (s.lpFault a ctx invoc).tiles = s.tiles ∧ (s.lpFault a ctx invoc).clus = s.clus ∧ (s.lpFault a ctx invoc).ctxs = s.ctxs ∧ (s.lpFault a ctx invoc).ops = s.ops ∧ (s.lpFault a ctx invoc).gsem = s.gsem ∧ (s.lpFault a ctx invoc).events = s.events ∧ (s.lpFault a ctx invoc).jobs = s.jobs ∧ (s.lpFault a ctx invoc).doms = s.doms ∧ (s.lpFault a ctx invoc).chain = s.chain := by unfold State.lpFault; (try dsimp only); (repeat' split) <;> simp
@[simp] theorem State.lpFault_queues (s : State) (a ctx invoc : Nat) : (s.lpFault a ctx invoc).queues = s.queues := (State.lpFault_keep s a ctx invoc).1
@[simp] theorem State.lpFault_host (s : State) (a ctx invoc : Nat) : (s.lpFault a ctx invoc).host = s.host := (State.lpFault_keep s a ctx invoc).2.1
@[simp] theorem State.lpFault_mem (s : State) (a ctx invoc : Nat) : (s.lpFault a ctx invoc).mem = s.mem := (State.lpFault_keep s a ctx invoc).2.2.1
@[simp] theorem State.lpFault_parBad (s : State) (a ctx invoc : Nat) : (s.lpFault a ctx invoc).parBad = s.parBad := (State.lpFault_keep s a ctx invoc).2.2.2.1
@[simp] theorem State.lpFault_lpmem (s : State) (a ctx invoc : Nat) : (s.lpFault a ctx invoc).lpmem = s.lpmem := (State.lpFault_keep s a ctx invoc).2.2.2.2.1
@[simp] theorem State.lpFault_lpBad (s : State) (a ctx invoc : Nat) : (s.lpFault a ctx invoc).lpBad = s.lpBad := (State.lpFault_keep s a ctx invoc).2.2.2.2.2.1
@[simp] theorem State.lpFault_arrays (s : State) (a ctx invoc : Nat) : (s.lpFault a ctx invoc).arrays = s.arrays := (State.lpFault_keep s a ctx invoc).2.2.2.2.2.2.1
@[simp] theorem State.lpFault_tiles (s : State) (a ctx invoc : Nat) : (s.lpFault a ctx invoc).tiles = s.tiles := (State.lpFault_keep s a ctx invoc).2.2.2.2.2.2.2.1
@[simp] theorem State.lpFault_clus (s : State) (a ctx invoc : Nat) : (s.lpFault a ctx invoc).clus = s.clus := (State.lpFault_keep s a ctx invoc).2.2.2.2.2.2.2.2.1
@[simp] theorem State.lpFault_ctxs (s : State) (a ctx invoc : Nat) : (s.lpFault a ctx invoc).ctxs = s.ctxs := (State.lpFault_keep s a ctx invoc).2.2.2.2.2.2.2.2.2.1
@[simp] theorem State.lpFault_ops (s : State) (a ctx invoc : Nat) : (s.lpFault a ctx invoc).ops = s.ops := (State.lpFault_keep s a ctx invoc).2.2.2.2.2.2.2.2.2.2.1
@[simp] theorem State.lpFault_gsem (s : State) (a ctx invoc : Nat) : (s.lpFault a ctx invoc).gsem = s.gsem := (State.lpFault_keep s a ctx invoc).2.2.2.2.2.2.2.2.2.2.2.1
@[simp] theorem State.lpFault_events (s : State) (a ctx invoc : Nat) : (s.lpFault a ctx invoc).events = s.events := (State.lpFault_keep s a ctx invoc).2.2.2.2.2.2.2.2.2.2.2.2.1
@[simp] theorem State.lpFault_jobs (s : State) (a ctx invoc : Nat) : (s.lpFault a ctx invoc).jobs = s.jobs := (State.lpFault_keep s a ctx invoc).2.2.2.2.2.2.2.2.2.2.2.2.2.1
@[simp] theorem State.lpFault_doms (s : State) (a ctx invoc : Nat) : (s.lpFault a ctx invoc).doms = s.doms := (State.lpFault_keep s a ctx invoc).2.2.2.2.2.2.2.2.2.2.2.2.2.2.1
@[simp] theorem State.lpFault_chain (s : State) (a ctx invoc : Nat) : (s.lpFault a ctx invoc).chain = s.chain := (State.lpFault_keep s a ctx invoc).2.2.2.2.2.2.2.2.2.2.2.2.2.2.2
@[simp] theorem State.lpFault_arr_keep (s : State) (a ctx invoc : Nat) (key : Nat) : (s.lpFault a ctx invoc).arr key = s.arr key := by unfold State.arr; rw [State.lpFault_arrays]
@[simp] theorem State.lpFault_tile_keep (s : State) (a ctx invoc : Nat) (key : Nat) : (s.lpFault a ctx invoc).tile key = s.tile key := by unfold State.tile; rw [State.lpFault_tiles]
@[simp] theorem State.lpFault_clu_keep (s : State) (a ctx invoc : Nat) (key : Nat) : (s.lpFault a ctx invoc).clu key = s.clu key := by unfold State.clu; rw [State.lpFault_clus]
@[simp] theorem State.lpFault_ctx_keep (s : State) (a ctx invoc : Nat) (key : Nat) : (s.lpFault a ctx invoc).ctx key = s.ctx key := by unfold State.ctx; rw [State.lpFault_ctxs]
@[simp] theorem State.lpFault_queue_keep (s : State) (a ctx invoc : Nat) (key : Nat) : (s.lpFault a ctx invoc).queue key = s.queue key := by unfold State.queue; rw [State.lpFault_queues]
@[simp] theorem State.lpFault_dom_keep (s : State) (a ctx invoc : Nat) (key : Nat) : (s.lpFault a ctx invoc).dom key = s.dom key := by unfold State.dom; rw [State.lpFault_doms]
@[simp] theorem State.lpFault_gs_keep (s : State) (a ctx invoc : Nat) (key : Nat) : (s.lpFault a ctx invoc).gs key = s.gs key := by unfold State.gs; rw [State.lpFault_gsem]
@[simp] theorem State.lpFault_memByte_keep (s : State) (a ctx invoc : Nat) (key : Nat) : (s.lpFault a ctx invoc).memByte key = s.memByte key := by unfold State.memByte; rw [State.lpFault_mem]
@[simp] theorem State.lpFault_lpByte_keep (s : State) (a ctx invoc : Nat) (key : Nat) : (s.lpFault a ctx invoc).lpByte key = s.lpByte key := by unfold State.lpByte; rw [State.lpFault_lpmem]

theorem State.galFault_keep (s : State) (n a ctx invoc : Nat) : (s.galFault n a ctx invoc).pages = s.pages ∧ (s.galFault n a ctx invoc).queues = s.queues ∧ (s.galFault n a ctx invoc).host = s.host ∧ (s.galFault n a ctx invoc).mem = s.mem ∧ (s.galFault n a ctx invoc).parBad = s.parBad ∧ (s.galFault n a ctx invoc).lpmem = s.lpmem ∧ (s.galFault n a ctx invoc).lpBad = s.lpBad ∧ (s.galFault n a ctx invoc).arrays = s.arrays ∧ (s.galFault n a ctx invoc).tiles = s.tiles ∧ (s.galFault n a ctx invoc).clus = s.clus ∧ (s.galFault n a ctx invoc).ctxs = s.ctxs ∧ (s.galFault n a ctx invoc).ops = s.ops ∧ (s.galFault n a ctx invoc).gsem = s.gsem ∧ (s.galFault n a ctx invoc).events = s.events ∧ (s.galFault n a ctx invoc).jobs = s.jobs ∧ (s.galFault n a ctx invoc).doms = s.doms ∧ (s.galFault n a ctx invoc).chain = s.chain := by unfold State.galFault; (try dsimp only); (repeat' split) <;> simp
@[simp] theorem State.galFault_pages (s : State) (n a ctx invoc : Nat) : (s.galFault n a ctx invoc).pages = s.pages := (State.galFault_keep s n a ctx invoc).1
@[simp] theorem State.galFault_queues (s : State) (n a ctx invoc : Nat) : (s.galFault n a ctx invoc).queues = s.queues := (State.galFault_keep s n a ctx invoc).2.1
@[simp] theorem State.galFault_host (s : State) (n a ctx invoc : Nat) : (s.galFault n a ctx invoc).host = s.host := (State.galFault_keep s n a ctx invoc).2.2.1
@[simp] theorem State.galFault_mem (s : State) (n a ctx invoc : Nat) : (s.galFault n a ctx invoc).mem = s.mem := (State.galFault_keep s n a ctx invoc).2.2.2.1
@[simp] theorem State.galFault_parBad (s : State) (n a ctx invoc : Nat) : (s.galFault n a ctx invoc).parBad = s.parBad := (State.galFault_keep s n a ctx invoc).2.2.2.2.1
@[simp] theorem State.galFault_lpmem (s : State) (n a ctx invoc : Nat) : (s.galFault n a ctx invoc).lpmem = s.lpmem := (State.galFault_keep s n a ctx invoc).2.2.2.2.2.1
@[simp] theorem State.galFault_lpBad (s : State) (n a ctx invoc : Nat) : (s.galFault n a ctx invoc).lpBad = s.lpBad := (State.galFault_keep s n a ctx invoc).2.2.2.2.2.2.1
@[simp] theorem State.galFault_arrays (s : State) (n a ctx invoc : Nat) : (s.galFault n a ctx invoc).arrays = s.arrays := (State.galFault_keep s n a ctx invoc).2.2.2.2.2.2.2.1
@[simp] theorem State.galFault_tiles (s : State) (n a ctx invoc : Nat) : (s.galFault n a ctx invoc).tiles = s.tiles := (State.galFault_keep s n a ctx invoc).2.2.2.2.2.2.2.2.1
@[simp] theorem State.galFault_clus (s : State) (n a ctx invoc : Nat) : (s.galFault n a ctx invoc).clus = s.clus := (State.galFault_keep s n a ctx invoc).2.2.2.2.2.2.2.2.2.1
@[simp] theorem State.galFault_ctxs (s : State) (n a ctx invoc : Nat) : (s.galFault n a ctx invoc).ctxs = s.ctxs := (State.galFault_keep s n a ctx invoc).2.2.2.2.2.2.2.2.2.2.1
@[simp] theorem State.galFault_ops (s : State) (n a ctx invoc : Nat) : (s.galFault n a ctx invoc).ops = s.ops := (State.galFault_keep s n a ctx invoc).2.2.2.2.2.2.2.2.2.2.2.1
@[simp] theorem State.galFault_gsem (s : State) (n a ctx invoc : Nat) : (s.galFault n a ctx invoc).gsem = s.gsem := (State.galFault_keep s n a ctx invoc).2.2.2.2.2.2.2.2.2.2.2.2.1
@[simp] theorem State.galFault_events (s : State) (n a ctx invoc : Nat) : (s.galFault n a ctx invoc).events = s.events := (State.galFault_keep s n a ctx invoc).2.2.2.2.2.2.2.2.2.2.2.2.2.1
@[simp] theorem State.galFault_jobs (s : State) (n a ctx invoc : Nat) : (s.galFault n a ctx invoc).jobs = s.jobs := (State.galFault_keep s n a ctx invoc).2.2.2.2.2.2.2.2.2.2.2.2.2.2.1
@[simp] theorem State.galFault_doms (s : State) (n a ctx invoc : Nat) : (s.galFault n a ctx invoc).doms = s.doms := (State.galFault_keep s n a ctx invoc).2.2.2.2.2.2.2.2.2.2.2.2.2.2.2.1
@[simp] theorem State.galFault_chain (s : State) (n a ctx invoc : Nat) : (s.galFault n a ctx invoc).chain = s.chain := (State.galFault_keep s n a ctx invoc).2.2.2.2.2.2.2.2.2.2.2.2.2.2.2.2
@[simp] theorem State.galFault_arr_keep (s : State) (n a ctx invoc : Nat) (key : Nat) : (s.galFault n a ctx invoc).arr key = s.arr key := by unfold State.arr; rw [State.galFault_arrays]
@[simp] theorem State.galFault_tile_keep (s : State) (n a ctx invoc : Nat) (key : Nat) : (s.galFault n a ctx invoc).tile key = s.tile key := by unfold State.tile; rw [State.galFault_tiles]
@[simp] theorem State.galFault_clu_keep (s : State) (n a ctx invoc : Nat) (key : Nat) : (s.galFault n a ctx invoc).clu key = s.clu key := by unfold State.clu; rw [State.galFault_clus]
@[simp] theorem State.galFault_ctx_keep (s : State) (n a ctx invoc : Nat) (key : Nat) : (s.galFault n a ctx invoc).ctx key = s.ctx key := by unfold State.ctx; rw [State.galFault_ctxs]
@[simp] theorem State.galFault_queue_keep (s : State) (n a ctx invoc : Nat) (key : Nat) : (s.galFault n a ctx invoc).queue key = s.queue key := by unfold State.queue; rw [State.galFault_queues]
@[simp] theorem State.galFault_page_keep (s : State) (n a ctx invoc : Nat) (key : Nat) : (s.galFault n a ctx invoc).page key = s.page key := by unfold State.page; rw [State.galFault_pages]
@[simp] theorem State.galFault_dom_keep (s : State) (n a ctx invoc : Nat) (key : Nat) : (s.galFault n a ctx invoc).dom key = s.dom key := by unfold State.dom; rw [State.galFault_doms]
@[simp] theorem State.galFault_gs_keep (s : State) (n a ctx invoc : Nat) (key : Nat) : (s.galFault n a ctx invoc).gs key = s.gs key := by unfold State.gs; rw [State.galFault_gsem]
@[simp] theorem State.galFault_memByte_keep (s : State) (n a ctx invoc : Nat) (key : Nat) : (s.galFault n a ctx invoc).memByte key = s.memByte key := by unfold State.memByte; rw [State.galFault_mem]
@[simp] theorem State.galFault_lpByte_keep (s : State) (n a ctx invoc : Nat) (key : Nat) : (s.galFault n a ctx invoc).lpByte key = s.lpByte key := by unfold State.lpByte; rw [State.galFault_lpmem]

theorem State.spadFault_keep (s : State) (c off ctx invoc : Nat) : (s.spadFault c off ctx invoc).pages = s.pages ∧ (s.spadFault c off ctx invoc).queues = s.queues ∧ (s.spadFault c off ctx invoc).host = s.host ∧ (s.spadFault c off ctx invoc).mem = s.mem ∧ (s.spadFault c off ctx invoc).parBad = s.parBad ∧ (s.spadFault c off ctx invoc).lpmem = s.lpmem ∧ (s.spadFault c off ctx invoc).lpBad = s.lpBad ∧ (s.spadFault c off ctx invoc).arrays = s.arrays ∧ (s.spadFault c off ctx invoc).tiles = s.tiles ∧ (s.spadFault c off ctx invoc).clus = s.clus ∧ (s.spadFault c off ctx invoc).ctxs = s.ctxs ∧ (s.spadFault c off ctx invoc).ops = s.ops ∧ (s.spadFault c off ctx invoc).gsem = s.gsem ∧ (s.spadFault c off ctx invoc).events = s.events ∧ (s.spadFault c off ctx invoc).jobs = s.jobs ∧ (s.spadFault c off ctx invoc).doms = s.doms ∧ (s.spadFault c off ctx invoc).chain = s.chain := by unfold State.spadFault; (try dsimp only); (repeat' split) <;> simp
@[simp] theorem State.spadFault_pages (s : State) (c off ctx invoc : Nat) : (s.spadFault c off ctx invoc).pages = s.pages := (State.spadFault_keep s c off ctx invoc).1
@[simp] theorem State.spadFault_queues (s : State) (c off ctx invoc : Nat) : (s.spadFault c off ctx invoc).queues = s.queues := (State.spadFault_keep s c off ctx invoc).2.1
@[simp] theorem State.spadFault_host (s : State) (c off ctx invoc : Nat) : (s.spadFault c off ctx invoc).host = s.host := (State.spadFault_keep s c off ctx invoc).2.2.1
@[simp] theorem State.spadFault_mem (s : State) (c off ctx invoc : Nat) : (s.spadFault c off ctx invoc).mem = s.mem := (State.spadFault_keep s c off ctx invoc).2.2.2.1
@[simp] theorem State.spadFault_parBad (s : State) (c off ctx invoc : Nat) : (s.spadFault c off ctx invoc).parBad = s.parBad := (State.spadFault_keep s c off ctx invoc).2.2.2.2.1
@[simp] theorem State.spadFault_lpmem (s : State) (c off ctx invoc : Nat) : (s.spadFault c off ctx invoc).lpmem = s.lpmem := (State.spadFault_keep s c off ctx invoc).2.2.2.2.2.1
@[simp] theorem State.spadFault_lpBad (s : State) (c off ctx invoc : Nat) : (s.spadFault c off ctx invoc).lpBad = s.lpBad := (State.spadFault_keep s c off ctx invoc).2.2.2.2.2.2.1
@[simp] theorem State.spadFault_arrays (s : State) (c off ctx invoc : Nat) : (s.spadFault c off ctx invoc).arrays = s.arrays := (State.spadFault_keep s c off ctx invoc).2.2.2.2.2.2.2.1
@[simp] theorem State.spadFault_tiles (s : State) (c off ctx invoc : Nat) : (s.spadFault c off ctx invoc).tiles = s.tiles := (State.spadFault_keep s c off ctx invoc).2.2.2.2.2.2.2.2.1
@[simp] theorem State.spadFault_clus (s : State) (c off ctx invoc : Nat) : (s.spadFault c off ctx invoc).clus = s.clus := (State.spadFault_keep s c off ctx invoc).2.2.2.2.2.2.2.2.2.1
@[simp] theorem State.spadFault_ctxs (s : State) (c off ctx invoc : Nat) : (s.spadFault c off ctx invoc).ctxs = s.ctxs := (State.spadFault_keep s c off ctx invoc).2.2.2.2.2.2.2.2.2.2.1
@[simp] theorem State.spadFault_ops (s : State) (c off ctx invoc : Nat) : (s.spadFault c off ctx invoc).ops = s.ops := (State.spadFault_keep s c off ctx invoc).2.2.2.2.2.2.2.2.2.2.2.1
@[simp] theorem State.spadFault_gsem (s : State) (c off ctx invoc : Nat) : (s.spadFault c off ctx invoc).gsem = s.gsem := (State.spadFault_keep s c off ctx invoc).2.2.2.2.2.2.2.2.2.2.2.2.1
@[simp] theorem State.spadFault_events (s : State) (c off ctx invoc : Nat) : (s.spadFault c off ctx invoc).events = s.events := (State.spadFault_keep s c off ctx invoc).2.2.2.2.2.2.2.2.2.2.2.2.2.1
@[simp] theorem State.spadFault_jobs (s : State) (c off ctx invoc : Nat) : (s.spadFault c off ctx invoc).jobs = s.jobs := (State.spadFault_keep s c off ctx invoc).2.2.2.2.2.2.2.2.2.2.2.2.2.2.1
@[simp] theorem State.spadFault_doms (s : State) (c off ctx invoc : Nat) : (s.spadFault c off ctx invoc).doms = s.doms := (State.spadFault_keep s c off ctx invoc).2.2.2.2.2.2.2.2.2.2.2.2.2.2.2.1
@[simp] theorem State.spadFault_chain (s : State) (c off ctx invoc : Nat) : (s.spadFault c off ctx invoc).chain = s.chain := (State.spadFault_keep s c off ctx invoc).2.2.2.2.2.2.2.2.2.2.2.2.2.2.2.2
@[simp] theorem State.spadFault_arr_keep (s : State) (c off ctx invoc : Nat) (key : Nat) : (s.spadFault c off ctx invoc).arr key = s.arr key := by unfold State.arr; rw [State.spadFault_arrays]
@[simp] theorem State.spadFault_tile_keep (s : State) (c off ctx invoc : Nat) (key : Nat) : (s.spadFault c off ctx invoc).tile key = s.tile key := by unfold State.tile; rw [State.spadFault_tiles]
@[simp] theorem State.spadFault_clu_keep (s : State) (c off ctx invoc : Nat) (key : Nat) : (s.spadFault c off ctx invoc).clu key = s.clu key := by unfold State.clu; rw [State.spadFault_clus]
@[simp] theorem State.spadFault_ctx_keep (s : State) (c off ctx invoc : Nat) (key : Nat) : (s.spadFault c off ctx invoc).ctx key = s.ctx key := by unfold State.ctx; rw [State.spadFault_ctxs]
@[simp] theorem State.spadFault_queue_keep (s : State) (c off ctx invoc : Nat) (key : Nat) : (s.spadFault c off ctx invoc).queue key = s.queue key := by unfold State.queue; rw [State.spadFault_queues]
@[simp] theorem State.spadFault_page_keep (s : State) (c off ctx invoc : Nat) (key : Nat) : (s.spadFault c off ctx invoc).page key = s.page key := by unfold State.page; rw [State.spadFault_pages]
@[simp] theorem State.spadFault_dom_keep (s : State) (c off ctx invoc : Nat) (key : Nat) : (s.spadFault c off ctx invoc).dom key = s.dom key := by unfold State.dom; rw [State.spadFault_doms]
@[simp] theorem State.spadFault_gs_keep (s : State) (c off ctx invoc : Nat) (key : Nat) : (s.spadFault c off ctx invoc).gs key = s.gs key := by unfold State.gs; rw [State.spadFault_gsem]
@[simp] theorem State.spadFault_memByte_keep (s : State) (c off ctx invoc : Nat) (key : Nat) : (s.spadFault c off ctx invoc).memByte key = s.memByte key := by unfold State.memByte; rw [State.spadFault_mem]
@[simp] theorem State.spadFault_lpByte_keep (s : State) (c off ctx invoc : Nat) (key : Nat) : (s.spadFault c off ctx invoc).lpByte key = s.lpByte key := by unfold State.lpByte; rw [State.spadFault_lpmem]

theorem State.memFault_keep (s : State) (a ctx invoc : Nat) : (s.memFault a ctx invoc).pages = s.pages ∧ (s.memFault a ctx invoc).queues = s.queues ∧ (s.memFault a ctx invoc).host = s.host ∧ (s.memFault a ctx invoc).mem = s.mem ∧ (s.memFault a ctx invoc).parBad = s.parBad ∧ (s.memFault a ctx invoc).lpmem = s.lpmem ∧ (s.memFault a ctx invoc).lpBad = s.lpBad ∧ (s.memFault a ctx invoc).arrays = s.arrays ∧ (s.memFault a ctx invoc).tiles = s.tiles ∧ (s.memFault a ctx invoc).clus = s.clus ∧ (s.memFault a ctx invoc).ctxs = s.ctxs ∧ (s.memFault a ctx invoc).ops = s.ops ∧ (s.memFault a ctx invoc).gsem = s.gsem ∧ (s.memFault a ctx invoc).events = s.events ∧ (s.memFault a ctx invoc).jobs = s.jobs ∧ (s.memFault a ctx invoc).doms = s.doms ∧ (s.memFault a ctx invoc).chain = s.chain := by unfold State.memFault; (try dsimp only); (repeat' split) <;> simp
@[simp] theorem State.memFault_pages (s : State) (a ctx invoc : Nat) : (s.memFault a ctx invoc).pages = s.pages := (State.memFault_keep s a ctx invoc).1
@[simp] theorem State.memFault_queues (s : State) (a ctx invoc : Nat) : (s.memFault a ctx invoc).queues = s.queues := (State.memFault_keep s a ctx invoc).2.1
@[simp] theorem State.memFault_host (s : State) (a ctx invoc : Nat) : (s.memFault a ctx invoc).host = s.host := (State.memFault_keep s a ctx invoc).2.2.1
@[simp] theorem State.memFault_mem (s : State) (a ctx invoc : Nat) : (s.memFault a ctx invoc).mem = s.mem := (State.memFault_keep s a ctx invoc).2.2.2.1
@[simp] theorem State.memFault_parBad (s : State) (a ctx invoc : Nat) : (s.memFault a ctx invoc).parBad = s.parBad := (State.memFault_keep s a ctx invoc).2.2.2.2.1
@[simp] theorem State.memFault_lpmem (s : State) (a ctx invoc : Nat) : (s.memFault a ctx invoc).lpmem = s.lpmem := (State.memFault_keep s a ctx invoc).2.2.2.2.2.1
@[simp] theorem State.memFault_lpBad (s : State) (a ctx invoc : Nat) : (s.memFault a ctx invoc).lpBad = s.lpBad := (State.memFault_keep s a ctx invoc).2.2.2.2.2.2.1
@[simp] theorem State.memFault_arrays (s : State) (a ctx invoc : Nat) : (s.memFault a ctx invoc).arrays = s.arrays := (State.memFault_keep s a ctx invoc).2.2.2.2.2.2.2.1
@[simp] theorem State.memFault_tiles (s : State) (a ctx invoc : Nat) : (s.memFault a ctx invoc).tiles = s.tiles := (State.memFault_keep s a ctx invoc).2.2.2.2.2.2.2.2.1
@[simp] theorem State.memFault_clus (s : State) (a ctx invoc : Nat) : (s.memFault a ctx invoc).clus = s.clus := (State.memFault_keep s a ctx invoc).2.2.2.2.2.2.2.2.2.1
@[simp] theorem State.memFault_ctxs (s : State) (a ctx invoc : Nat) : (s.memFault a ctx invoc).ctxs = s.ctxs := (State.memFault_keep s a ctx invoc).2.2.2.2.2.2.2.2.2.2.1
@[simp] theorem State.memFault_ops (s : State) (a ctx invoc : Nat) : (s.memFault a ctx invoc).ops = s.ops := (State.memFault_keep s a ctx invoc).2.2.2.2.2.2.2.2.2.2.2.1
@[simp] theorem State.memFault_gsem (s : State) (a ctx invoc : Nat) : (s.memFault a ctx invoc).gsem = s.gsem := (State.memFault_keep s a ctx invoc).2.2.2.2.2.2.2.2.2.2.2.2.1
@[simp] theorem State.memFault_events (s : State) (a ctx invoc : Nat) : (s.memFault a ctx invoc).events = s.events := (State.memFault_keep s a ctx invoc).2.2.2.2.2.2.2.2.2.2.2.2.2.1
@[simp] theorem State.memFault_jobs (s : State) (a ctx invoc : Nat) : (s.memFault a ctx invoc).jobs = s.jobs := (State.memFault_keep s a ctx invoc).2.2.2.2.2.2.2.2.2.2.2.2.2.2.1
@[simp] theorem State.memFault_doms (s : State) (a ctx invoc : Nat) : (s.memFault a ctx invoc).doms = s.doms := (State.memFault_keep s a ctx invoc).2.2.2.2.2.2.2.2.2.2.2.2.2.2.2.1
@[simp] theorem State.memFault_chain (s : State) (a ctx invoc : Nat) : (s.memFault a ctx invoc).chain = s.chain := (State.memFault_keep s a ctx invoc).2.2.2.2.2.2.2.2.2.2.2.2.2.2.2.2
@[simp] theorem State.memFault_arr_keep (s : State) (a ctx invoc : Nat) (key : Nat) : (s.memFault a ctx invoc).arr key = s.arr key := by unfold State.arr; rw [State.memFault_arrays]
@[simp] theorem State.memFault_tile_keep (s : State) (a ctx invoc : Nat) (key : Nat) : (s.memFault a ctx invoc).tile key = s.tile key := by unfold State.tile; rw [State.memFault_tiles]
@[simp] theorem State.memFault_clu_keep (s : State) (a ctx invoc : Nat) (key : Nat) : (s.memFault a ctx invoc).clu key = s.clu key := by unfold State.clu; rw [State.memFault_clus]
@[simp] theorem State.memFault_ctx_keep (s : State) (a ctx invoc : Nat) (key : Nat) : (s.memFault a ctx invoc).ctx key = s.ctx key := by unfold State.ctx; rw [State.memFault_ctxs]
@[simp] theorem State.memFault_queue_keep (s : State) (a ctx invoc : Nat) (key : Nat) : (s.memFault a ctx invoc).queue key = s.queue key := by unfold State.queue; rw [State.memFault_queues]
@[simp] theorem State.memFault_page_keep (s : State) (a ctx invoc : Nat) (key : Nat) : (s.memFault a ctx invoc).page key = s.page key := by unfold State.page; rw [State.memFault_pages]
@[simp] theorem State.memFault_dom_keep (s : State) (a ctx invoc : Nat) (key : Nat) : (s.memFault a ctx invoc).dom key = s.dom key := by unfold State.dom; rw [State.memFault_doms]
@[simp] theorem State.memFault_gs_keep (s : State) (a ctx invoc : Nat) (key : Nat) : (s.memFault a ctx invoc).gs key = s.gs key := by unfold State.gs; rw [State.memFault_gsem]
@[simp] theorem State.memFault_memByte_keep (s : State) (a ctx invoc : Nat) (key : Nat) : (s.memFault a ctx invoc).memByte key = s.memByte key := by unfold State.memByte; rw [State.memFault_mem]
@[simp] theorem State.memFault_lpByte_keep (s : State) (a ctx invoc : Nat) (key : Nat) : (s.memFault a ctx invoc).lpByte key = s.lpByte key := by unfold State.lpByte; rw [State.memFault_lpmem]

theorem State.readFault_keep (s : State) (lp : Bool) (a ctx invoc : Nat) : (s.readFault lp a ctx invoc).queues = s.queues ∧ (s.readFault lp a ctx invoc).host = s.host ∧ (s.readFault lp a ctx invoc).mem = s.mem ∧ (s.readFault lp a ctx invoc).parBad = s.parBad ∧ (s.readFault lp a ctx invoc).lpmem = s.lpmem ∧ (s.readFault lp a ctx invoc).lpBad = s.lpBad ∧ (s.readFault lp a ctx invoc).arrays = s.arrays ∧ (s.readFault lp a ctx invoc).tiles = s.tiles ∧ (s.readFault lp a ctx invoc).clus = s.clus ∧ (s.readFault lp a ctx invoc).ctxs = s.ctxs ∧ (s.readFault lp a ctx invoc).ops = s.ops ∧ (s.readFault lp a ctx invoc).gsem = s.gsem ∧ (s.readFault lp a ctx invoc).events = s.events ∧ (s.readFault lp a ctx invoc).jobs = s.jobs ∧ (s.readFault lp a ctx invoc).doms = s.doms ∧ (s.readFault lp a ctx invoc).chain = s.chain := by unfold State.readFault; (try dsimp only); (repeat' split) <;> simp
@[simp] theorem State.readFault_queues (s : State) (lp : Bool) (a ctx invoc : Nat) : (s.readFault lp a ctx invoc).queues = s.queues := (State.readFault_keep s lp a ctx invoc).1
@[simp] theorem State.readFault_host (s : State) (lp : Bool) (a ctx invoc : Nat) : (s.readFault lp a ctx invoc).host = s.host := (State.readFault_keep s lp a ctx invoc).2.1
@[simp] theorem State.readFault_mem (s : State) (lp : Bool) (a ctx invoc : Nat) : (s.readFault lp a ctx invoc).mem = s.mem := (State.readFault_keep s lp a ctx invoc).2.2.1
@[simp] theorem State.readFault_parBad (s : State) (lp : Bool) (a ctx invoc : Nat) : (s.readFault lp a ctx invoc).parBad = s.parBad := (State.readFault_keep s lp a ctx invoc).2.2.2.1
@[simp] theorem State.readFault_lpmem (s : State) (lp : Bool) (a ctx invoc : Nat) : (s.readFault lp a ctx invoc).lpmem = s.lpmem := (State.readFault_keep s lp a ctx invoc).2.2.2.2.1
@[simp] theorem State.readFault_lpBad (s : State) (lp : Bool) (a ctx invoc : Nat) : (s.readFault lp a ctx invoc).lpBad = s.lpBad := (State.readFault_keep s lp a ctx invoc).2.2.2.2.2.1
@[simp] theorem State.readFault_arrays (s : State) (lp : Bool) (a ctx invoc : Nat) : (s.readFault lp a ctx invoc).arrays = s.arrays := (State.readFault_keep s lp a ctx invoc).2.2.2.2.2.2.1
@[simp] theorem State.readFault_tiles (s : State) (lp : Bool) (a ctx invoc : Nat) : (s.readFault lp a ctx invoc).tiles = s.tiles := (State.readFault_keep s lp a ctx invoc).2.2.2.2.2.2.2.1
@[simp] theorem State.readFault_clus (s : State) (lp : Bool) (a ctx invoc : Nat) : (s.readFault lp a ctx invoc).clus = s.clus := (State.readFault_keep s lp a ctx invoc).2.2.2.2.2.2.2.2.1
@[simp] theorem State.readFault_ctxs (s : State) (lp : Bool) (a ctx invoc : Nat) : (s.readFault lp a ctx invoc).ctxs = s.ctxs := (State.readFault_keep s lp a ctx invoc).2.2.2.2.2.2.2.2.2.1
@[simp] theorem State.readFault_ops (s : State) (lp : Bool) (a ctx invoc : Nat) : (s.readFault lp a ctx invoc).ops = s.ops := (State.readFault_keep s lp a ctx invoc).2.2.2.2.2.2.2.2.2.2.1
@[simp] theorem State.readFault_gsem (s : State) (lp : Bool) (a ctx invoc : Nat) : (s.readFault lp a ctx invoc).gsem = s.gsem := (State.readFault_keep s lp a ctx invoc).2.2.2.2.2.2.2.2.2.2.2.1
@[simp] theorem State.readFault_events (s : State) (lp : Bool) (a ctx invoc : Nat) : (s.readFault lp a ctx invoc).events = s.events := (State.readFault_keep s lp a ctx invoc).2.2.2.2.2.2.2.2.2.2.2.2.1
@[simp] theorem State.readFault_jobs (s : State) (lp : Bool) (a ctx invoc : Nat) : (s.readFault lp a ctx invoc).jobs = s.jobs := (State.readFault_keep s lp a ctx invoc).2.2.2.2.2.2.2.2.2.2.2.2.2.1
@[simp] theorem State.readFault_doms (s : State) (lp : Bool) (a ctx invoc : Nat) : (s.readFault lp a ctx invoc).doms = s.doms := (State.readFault_keep s lp a ctx invoc).2.2.2.2.2.2.2.2.2.2.2.2.2.2.1
@[simp] theorem State.readFault_chain (s : State) (lp : Bool) (a ctx invoc : Nat) : (s.readFault lp a ctx invoc).chain = s.chain := (State.readFault_keep s lp a ctx invoc).2.2.2.2.2.2.2.2.2.2.2.2.2.2.2
@[simp] theorem State.readFault_arr_keep (s : State) (lp : Bool) (a ctx invoc : Nat) (key : Nat) : (s.readFault lp a ctx invoc).arr key = s.arr key := by unfold State.arr; rw [State.readFault_arrays]
@[simp] theorem State.readFault_tile_keep (s : State) (lp : Bool) (a ctx invoc : Nat) (key : Nat) : (s.readFault lp a ctx invoc).tile key = s.tile key := by unfold State.tile; rw [State.readFault_tiles]
@[simp] theorem State.readFault_clu_keep (s : State) (lp : Bool) (a ctx invoc : Nat) (key : Nat) : (s.readFault lp a ctx invoc).clu key = s.clu key := by unfold State.clu; rw [State.readFault_clus]
@[simp] theorem State.readFault_ctx_keep (s : State) (lp : Bool) (a ctx invoc : Nat) (key : Nat) : (s.readFault lp a ctx invoc).ctx key = s.ctx key := by unfold State.ctx; rw [State.readFault_ctxs]
@[simp] theorem State.readFault_queue_keep (s : State) (lp : Bool) (a ctx invoc : Nat) (key : Nat) : (s.readFault lp a ctx invoc).queue key = s.queue key := by unfold State.queue; rw [State.readFault_queues]
@[simp] theorem State.readFault_dom_keep (s : State) (lp : Bool) (a ctx invoc : Nat) (key : Nat) : (s.readFault lp a ctx invoc).dom key = s.dom key := by unfold State.dom; rw [State.readFault_doms]
@[simp] theorem State.readFault_gs_keep (s : State) (lp : Bool) (a ctx invoc : Nat) (key : Nat) : (s.readFault lp a ctx invoc).gs key = s.gs key := by unfold State.gs; rw [State.readFault_gsem]
@[simp] theorem State.readFault_memByte_keep (s : State) (lp : Bool) (a ctx invoc : Nat) (key : Nat) : (s.readFault lp a ctx invoc).memByte key = s.memByte key := by unfold State.memByte; rw [State.readFault_mem]
@[simp] theorem State.readFault_lpByte_keep (s : State) (lp : Bool) (a ctx invoc : Nat) (key : Nat) : (s.readFault lp a ctx invoc).lpByte key = s.lpByte key := by unfold State.lpByte; rw [State.readFault_lpmem]

theorem State.readTile_keep (s : State) (c t n : Nat) : (s.readTile c t n).pages = s.pages ∧ (s.readTile c t n).queues = s.queues ∧ (s.readTile c t n).host = s.host ∧ (s.readTile c t n).mem = s.mem ∧ (s.readTile c t n).parBad = s.parBad ∧ (s.readTile c t n).lpmem = s.lpmem ∧ (s.readTile c t n).lpBad = s.lpBad ∧ (s.readTile c t n).arrays = s.arrays ∧ (s.readTile c t n).clus = s.clus ∧ (s.readTile c t n).ctxs = s.ctxs ∧ (s.readTile c t n).ops = s.ops ∧ (s.readTile c t n).gsem = s.gsem ∧ (s.readTile c t n).reports = s.reports ∧ (s.readTile c t n).events = s.events ∧ (s.readTile c t n).jobs = s.jobs ∧ (s.readTile c t n).doms = s.doms ∧ (s.readTile c t n).chain = s.chain := by unfold State.readTile; (try dsimp only); (repeat' split) <;> simp
@[simp] theorem State.readTile_pages (s : State) (c t n : Nat) : (s.readTile c t n).pages = s.pages := (State.readTile_keep s c t n).1
@[simp] theorem State.readTile_queues (s : State) (c t n : Nat) : (s.readTile c t n).queues = s.queues := (State.readTile_keep s c t n).2.1
@[simp] theorem State.readTile_host (s : State) (c t n : Nat) : (s.readTile c t n).host = s.host := (State.readTile_keep s c t n).2.2.1
@[simp] theorem State.readTile_mem (s : State) (c t n : Nat) : (s.readTile c t n).mem = s.mem := (State.readTile_keep s c t n).2.2.2.1
@[simp] theorem State.readTile_parBad (s : State) (c t n : Nat) : (s.readTile c t n).parBad = s.parBad := (State.readTile_keep s c t n).2.2.2.2.1
@[simp] theorem State.readTile_lpmem (s : State) (c t n : Nat) : (s.readTile c t n).lpmem = s.lpmem := (State.readTile_keep s c t n).2.2.2.2.2.1
@[simp] theorem State.readTile_lpBad (s : State) (c t n : Nat) : (s.readTile c t n).lpBad = s.lpBad := (State.readTile_keep s c t n).2.2.2.2.2.2.1
@[simp] theorem State.readTile_arrays (s : State) (c t n : Nat) : (s.readTile c t n).arrays = s.arrays := (State.readTile_keep s c t n).2.2.2.2.2.2.2.1
@[simp] theorem State.readTile_clus (s : State) (c t n : Nat) : (s.readTile c t n).clus = s.clus := (State.readTile_keep s c t n).2.2.2.2.2.2.2.2.1
@[simp] theorem State.readTile_ctxs (s : State) (c t n : Nat) : (s.readTile c t n).ctxs = s.ctxs := (State.readTile_keep s c t n).2.2.2.2.2.2.2.2.2.1
@[simp] theorem State.readTile_ops (s : State) (c t n : Nat) : (s.readTile c t n).ops = s.ops := (State.readTile_keep s c t n).2.2.2.2.2.2.2.2.2.2.1
@[simp] theorem State.readTile_gsem (s : State) (c t n : Nat) : (s.readTile c t n).gsem = s.gsem := (State.readTile_keep s c t n).2.2.2.2.2.2.2.2.2.2.2.1
@[simp] theorem State.readTile_reports (s : State) (c t n : Nat) : (s.readTile c t n).reports = s.reports := (State.readTile_keep s c t n).2.2.2.2.2.2.2.2.2.2.2.2.1
@[simp] theorem State.readTile_events (s : State) (c t n : Nat) : (s.readTile c t n).events = s.events := (State.readTile_keep s c t n).2.2.2.2.2.2.2.2.2.2.2.2.2.1
@[simp] theorem State.readTile_jobs (s : State) (c t n : Nat) : (s.readTile c t n).jobs = s.jobs := (State.readTile_keep s c t n).2.2.2.2.2.2.2.2.2.2.2.2.2.2.1
@[simp] theorem State.readTile_doms (s : State) (c t n : Nat) : (s.readTile c t n).doms = s.doms := (State.readTile_keep s c t n).2.2.2.2.2.2.2.2.2.2.2.2.2.2.2.1
@[simp] theorem State.readTile_chain (s : State) (c t n : Nat) : (s.readTile c t n).chain = s.chain := (State.readTile_keep s c t n).2.2.2.2.2.2.2.2.2.2.2.2.2.2.2.2
@[simp] theorem State.readTile_arr_keep (s : State) (c t n : Nat) (key : Nat) : (s.readTile c t n).arr key = s.arr key := by unfold State.arr; rw [State.readTile_arrays]
@[simp] theorem State.readTile_clu_keep (s : State) (c t n : Nat) (key : Nat) : (s.readTile c t n).clu key = s.clu key := by unfold State.clu; rw [State.readTile_clus]
@[simp] theorem State.readTile_ctx_keep (s : State) (c t n : Nat) (key : Nat) : (s.readTile c t n).ctx key = s.ctx key := by unfold State.ctx; rw [State.readTile_ctxs]
@[simp] theorem State.readTile_queue_keep (s : State) (c t n : Nat) (key : Nat) : (s.readTile c t n).queue key = s.queue key := by unfold State.queue; rw [State.readTile_queues]
@[simp] theorem State.readTile_page_keep (s : State) (c t n : Nat) (key : Nat) : (s.readTile c t n).page key = s.page key := by unfold State.page; rw [State.readTile_pages]
@[simp] theorem State.readTile_dom_keep (s : State) (c t n : Nat) (key : Nat) : (s.readTile c t n).dom key = s.dom key := by unfold State.dom; rw [State.readTile_doms]
@[simp] theorem State.readTile_gs_keep (s : State) (c t n : Nat) (key : Nat) : (s.readTile c t n).gs key = s.gs key := by unfold State.gs; rw [State.readTile_gsem]
@[simp] theorem State.readTile_memByte_keep (s : State) (c t n : Nat) (key : Nat) : (s.readTile c t n).memByte key = s.memByte key := by unfold State.memByte; rw [State.readTile_mem]
@[simp] theorem State.readTile_lpByte_keep (s : State) (c t n : Nat) (key : Nat) : (s.readTile c t n).lpByte key = s.lpByte key := by unfold State.lpByte; rw [State.readTile_lpmem]

theorem State.stallAt_keep (s : State) (a n : Nat) : (s.stallAt a n).pages = s.pages ∧ (s.stallAt a n).queues = s.queues ∧ (s.stallAt a n).host = s.host ∧ (s.stallAt a n).mem = s.mem ∧ (s.stallAt a n).parBad = s.parBad ∧ (s.stallAt a n).lpmem = s.lpmem ∧ (s.stallAt a n).lpBad = s.lpBad ∧ (s.stallAt a n).arrays = s.arrays ∧ (s.stallAt a n).tiles = s.tiles ∧ (s.stallAt a n).clus = s.clus ∧ (s.stallAt a n).ctxs = s.ctxs ∧ (s.stallAt a n).ops = s.ops ∧ (s.stallAt a n).gsem = s.gsem ∧ (s.stallAt a n).reports = s.reports ∧ (s.stallAt a n).events = s.events ∧ (s.stallAt a n).jobs = s.jobs ∧ (s.stallAt a n).doms = s.doms ∧ (s.stallAt a n).chain = s.chain := by unfold State.stallAt; (try dsimp only); (repeat' split) <;> simp
@[simp] theorem State.stallAt_pages (s : State) (a n : Nat) : (s.stallAt a n).pages = s.pages := (State.stallAt_keep s a n).1
@[simp] theorem State.stallAt_queues (s : State) (a n : Nat) : (s.stallAt a n).queues = s.queues := (State.stallAt_keep s a n).2.1
@[simp] theorem State.stallAt_host (s : State) (a n : Nat) : (s.stallAt a n).host = s.host := (State.stallAt_keep s a n).2.2.1
@[simp] theorem State.stallAt_mem (s : State) (a n : Nat) : (s.stallAt a n).mem = s.mem := (State.stallAt_keep s a n).2.2.2.1
@[simp] theorem State.stallAt_parBad (s : State) (a n : Nat) : (s.stallAt a n).parBad = s.parBad := (State.stallAt_keep s a n).2.2.2.2.1
@[simp] theorem State.stallAt_lpmem (s : State) (a n : Nat) : (s.stallAt a n).lpmem = s.lpmem := (State.stallAt_keep s a n).2.2.2.2.2.1
@[simp] theorem State.stallAt_lpBad (s : State) (a n : Nat) : (s.stallAt a n).lpBad = s.lpBad := (State.stallAt_keep s a n).2.2.2.2.2.2.1
@[simp] theorem State.stallAt_arrays (s : State) (a n : Nat) : (s.stallAt a n).arrays = s.arrays := (State.stallAt_keep s a n).2.2.2.2.2.2.2.1
@[simp] theorem State.stallAt_tiles (s : State) (a n : Nat) : (s.stallAt a n).tiles = s.tiles := (State.stallAt_keep s a n).2.2.2.2.2.2.2.2.1
@[simp] theorem State.stallAt_clus (s : State) (a n : Nat) : (s.stallAt a n).clus = s.clus := (State.stallAt_keep s a n).2.2.2.2.2.2.2.2.2.1
@[simp] theorem State.stallAt_ctxs (s : State) (a n : Nat) : (s.stallAt a n).ctxs = s.ctxs := (State.stallAt_keep s a n).2.2.2.2.2.2.2.2.2.2.1
@[simp] theorem State.stallAt_ops (s : State) (a n : Nat) : (s.stallAt a n).ops = s.ops := (State.stallAt_keep s a n).2.2.2.2.2.2.2.2.2.2.2.1
@[simp] theorem State.stallAt_gsem (s : State) (a n : Nat) : (s.stallAt a n).gsem = s.gsem := (State.stallAt_keep s a n).2.2.2.2.2.2.2.2.2.2.2.2.1
@[simp] theorem State.stallAt_reports (s : State) (a n : Nat) : (s.stallAt a n).reports = s.reports := (State.stallAt_keep s a n).2.2.2.2.2.2.2.2.2.2.2.2.2.1
@[simp] theorem State.stallAt_events (s : State) (a n : Nat) : (s.stallAt a n).events = s.events := (State.stallAt_keep s a n).2.2.2.2.2.2.2.2.2.2.2.2.2.2.1
@[simp] theorem State.stallAt_jobs (s : State) (a n : Nat) : (s.stallAt a n).jobs = s.jobs := (State.stallAt_keep s a n).2.2.2.2.2.2.2.2.2.2.2.2.2.2.2.1
@[simp] theorem State.stallAt_doms (s : State) (a n : Nat) : (s.stallAt a n).doms = s.doms := (State.stallAt_keep s a n).2.2.2.2.2.2.2.2.2.2.2.2.2.2.2.2.1
@[simp] theorem State.stallAt_chain (s : State) (a n : Nat) : (s.stallAt a n).chain = s.chain := (State.stallAt_keep s a n).2.2.2.2.2.2.2.2.2.2.2.2.2.2.2.2.2
@[simp] theorem State.stallAt_arr_keep (s : State) (a n : Nat) (key : Nat) : (s.stallAt a n).arr key = s.arr key := by unfold State.arr; rw [State.stallAt_arrays]
@[simp] theorem State.stallAt_tile_keep (s : State) (a n : Nat) (key : Nat) : (s.stallAt a n).tile key = s.tile key := by unfold State.tile; rw [State.stallAt_tiles]
@[simp] theorem State.stallAt_clu_keep (s : State) (a n : Nat) (key : Nat) : (s.stallAt a n).clu key = s.clu key := by unfold State.clu; rw [State.stallAt_clus]
@[simp] theorem State.stallAt_ctx_keep (s : State) (a n : Nat) (key : Nat) : (s.stallAt a n).ctx key = s.ctx key := by unfold State.ctx; rw [State.stallAt_ctxs]
@[simp] theorem State.stallAt_queue_keep (s : State) (a n : Nat) (key : Nat) : (s.stallAt a n).queue key = s.queue key := by unfold State.queue; rw [State.stallAt_queues]
@[simp] theorem State.stallAt_page_keep (s : State) (a n : Nat) (key : Nat) : (s.stallAt a n).page key = s.page key := by unfold State.page; rw [State.stallAt_pages]
@[simp] theorem State.stallAt_dom_keep (s : State) (a n : Nat) (key : Nat) : (s.stallAt a n).dom key = s.dom key := by unfold State.dom; rw [State.stallAt_doms]
@[simp] theorem State.stallAt_gs_keep (s : State) (a n : Nat) (key : Nat) : (s.stallAt a n).gs key = s.gs key := by unfold State.gs; rw [State.stallAt_gsem]
@[simp] theorem State.stallAt_memByte_keep (s : State) (a n : Nat) (key : Nat) : (s.stallAt a n).memByte key = s.memByte key := by unfold State.memByte; rw [State.stallAt_mem]
@[simp] theorem State.stallAt_lpByte_keep (s : State) (a n : Nat) (key : Nat) : (s.stallAt a n).lpByte key = s.lpByte key := by unfold State.lpByte; rw [State.stallAt_lpmem]

theorem State.lpWrite_keep (s : State) (a : Nat) (bs : List Byte) : (s.lpWrite a bs).queues = s.queues ∧ (s.lpWrite a bs).host = s.host ∧ (s.lpWrite a bs).mem = s.mem ∧ (s.lpWrite a bs).parBad = s.parBad ∧ (s.lpWrite a bs).arrays = s.arrays ∧ (s.lpWrite a bs).tiles = s.tiles ∧ (s.lpWrite a bs).clus = s.clus ∧ (s.lpWrite a bs).ctxs = s.ctxs ∧ (s.lpWrite a bs).ops = s.ops ∧ (s.lpWrite a bs).gsem = s.gsem ∧ (s.lpWrite a bs).reports = s.reports ∧ (s.lpWrite a bs).events = s.events ∧ (s.lpWrite a bs).jobs = s.jobs ∧ (s.lpWrite a bs).doms = s.doms ∧ (s.lpWrite a bs).chain = s.chain := by unfold State.lpWrite; (try dsimp only); (repeat' split) <;> simp
@[simp] theorem State.lpWrite_queues (s : State) (a : Nat) (bs : List Byte) : (s.lpWrite a bs).queues = s.queues := (State.lpWrite_keep s a bs).1
@[simp] theorem State.lpWrite_host (s : State) (a : Nat) (bs : List Byte) : (s.lpWrite a bs).host = s.host := (State.lpWrite_keep s a bs).2.1
@[simp] theorem State.lpWrite_mem (s : State) (a : Nat) (bs : List Byte) : (s.lpWrite a bs).mem = s.mem := (State.lpWrite_keep s a bs).2.2.1
@[simp] theorem State.lpWrite_parBad (s : State) (a : Nat) (bs : List Byte) : (s.lpWrite a bs).parBad = s.parBad := (State.lpWrite_keep s a bs).2.2.2.1
@[simp] theorem State.lpWrite_arrays (s : State) (a : Nat) (bs : List Byte) : (s.lpWrite a bs).arrays = s.arrays := (State.lpWrite_keep s a bs).2.2.2.2.1
@[simp] theorem State.lpWrite_tiles (s : State) (a : Nat) (bs : List Byte) : (s.lpWrite a bs).tiles = s.tiles := (State.lpWrite_keep s a bs).2.2.2.2.2.1
@[simp] theorem State.lpWrite_clus (s : State) (a : Nat) (bs : List Byte) : (s.lpWrite a bs).clus = s.clus := (State.lpWrite_keep s a bs).2.2.2.2.2.2.1
@[simp] theorem State.lpWrite_ctxs (s : State) (a : Nat) (bs : List Byte) : (s.lpWrite a bs).ctxs = s.ctxs := (State.lpWrite_keep s a bs).2.2.2.2.2.2.2.1
@[simp] theorem State.lpWrite_ops (s : State) (a : Nat) (bs : List Byte) : (s.lpWrite a bs).ops = s.ops := (State.lpWrite_keep s a bs).2.2.2.2.2.2.2.2.1
@[simp] theorem State.lpWrite_gsem (s : State) (a : Nat) (bs : List Byte) : (s.lpWrite a bs).gsem = s.gsem := (State.lpWrite_keep s a bs).2.2.2.2.2.2.2.2.2.1
@[simp] theorem State.lpWrite_reports (s : State) (a : Nat) (bs : List Byte) : (s.lpWrite a bs).reports = s.reports := (State.lpWrite_keep s a bs).2.2.2.2.2.2.2.2.2.2.1
@[simp] theorem State.lpWrite_events (s : State) (a : Nat) (bs : List Byte) : (s.lpWrite a bs).events = s.events := (State.lpWrite_keep s a bs).2.2.2.2.2.2.2.2.2.2.2.1
@[simp] theorem State.lpWrite_jobs (s : State) (a : Nat) (bs : List Byte) : (s.lpWrite a bs).jobs = s.jobs := (State.lpWrite_keep s a bs).2.2.2.2.2.2.2.2.2.2.2.2.1
@[simp] theorem State.lpWrite_doms (s : State) (a : Nat) (bs : List Byte) : (s.lpWrite a bs).doms = s.doms := (State.lpWrite_keep s a bs).2.2.2.2.2.2.2.2.2.2.2.2.2.1
@[simp] theorem State.lpWrite_chain (s : State) (a : Nat) (bs : List Byte) : (s.lpWrite a bs).chain = s.chain := (State.lpWrite_keep s a bs).2.2.2.2.2.2.2.2.2.2.2.2.2.2
@[simp] theorem State.lpWrite_arr_keep (s : State) (a : Nat) (bs : List Byte) (key : Nat) : (s.lpWrite a bs).arr key = s.arr key := by unfold State.arr; rw [State.lpWrite_arrays]
@[simp] theorem State.lpWrite_tile_keep (s : State) (a : Nat) (bs : List Byte) (key : Nat) : (s.lpWrite a bs).tile key = s.tile key := by unfold State.tile; rw [State.lpWrite_tiles]
@[simp] theorem State.lpWrite_clu_keep (s : State) (a : Nat) (bs : List Byte) (key : Nat) : (s.lpWrite a bs).clu key = s.clu key := by unfold State.clu; rw [State.lpWrite_clus]
@[simp] theorem State.lpWrite_ctx_keep (s : State) (a : Nat) (bs : List Byte) (key : Nat) : (s.lpWrite a bs).ctx key = s.ctx key := by unfold State.ctx; rw [State.lpWrite_ctxs]
@[simp] theorem State.lpWrite_queue_keep (s : State) (a : Nat) (bs : List Byte) (key : Nat) : (s.lpWrite a bs).queue key = s.queue key := by unfold State.queue; rw [State.lpWrite_queues]
@[simp] theorem State.lpWrite_dom_keep (s : State) (a : Nat) (bs : List Byte) (key : Nat) : (s.lpWrite a bs).dom key = s.dom key := by unfold State.dom; rw [State.lpWrite_doms]
@[simp] theorem State.lpWrite_gs_keep (s : State) (a : Nat) (bs : List Byte) (key : Nat) : (s.lpWrite a bs).gs key = s.gs key := by unfold State.gs; rw [State.lpWrite_gsem]
@[simp] theorem State.lpWrite_memByte_keep (s : State) (a : Nat) (bs : List Byte) (key : Nat) : (s.lpWrite a bs).memByte key = s.memByte key := by unfold State.memByte; rw [State.lpWrite_mem]

theorem State.engWrite_keep (s : State) (a : Nat) (bs : List Byte) : (s.engWrite a bs).queues = s.queues ∧ (s.engWrite a bs).host = s.host ∧ (s.engWrite a bs).arrays = s.arrays ∧ (s.engWrite a bs).tiles = s.tiles ∧ (s.engWrite a bs).clus = s.clus ∧ (s.engWrite a bs).ctxs = s.ctxs ∧ (s.engWrite a bs).ops = s.ops ∧ (s.engWrite a bs).gsem = s.gsem ∧ (s.engWrite a bs).reports = s.reports ∧ (s.engWrite a bs).events = s.events ∧ (s.engWrite a bs).jobs = s.jobs ∧ (s.engWrite a bs).doms = s.doms ∧ (s.engWrite a bs).chain = s.chain := by unfold State.engWrite; (try dsimp only); (repeat' split) <;> simp
@[simp] theorem State.engWrite_queues (s : State) (a : Nat) (bs : List Byte) : (s.engWrite a bs).queues = s.queues := (State.engWrite_keep s a bs).1
@[simp] theorem State.engWrite_host (s : State) (a : Nat) (bs : List Byte) : (s.engWrite a bs).host = s.host := (State.engWrite_keep s a bs).2.1
@[simp] theorem State.engWrite_arrays (s : State) (a : Nat) (bs : List Byte) : (s.engWrite a bs).arrays = s.arrays := (State.engWrite_keep s a bs).2.2.1
@[simp] theorem State.engWrite_tiles (s : State) (a : Nat) (bs : List Byte) : (s.engWrite a bs).tiles = s.tiles := (State.engWrite_keep s a bs).2.2.2.1
@[simp] theorem State.engWrite_clus (s : State) (a : Nat) (bs : List Byte) : (s.engWrite a bs).clus = s.clus := (State.engWrite_keep s a bs).2.2.2.2.1
@[simp] theorem State.engWrite_ctxs (s : State) (a : Nat) (bs : List Byte) : (s.engWrite a bs).ctxs = s.ctxs := (State.engWrite_keep s a bs).2.2.2.2.2.1
@[simp] theorem State.engWrite_ops (s : State) (a : Nat) (bs : List Byte) : (s.engWrite a bs).ops = s.ops := (State.engWrite_keep s a bs).2.2.2.2.2.2.1
@[simp] theorem State.engWrite_gsem (s : State) (a : Nat) (bs : List Byte) : (s.engWrite a bs).gsem = s.gsem := (State.engWrite_keep s a bs).2.2.2.2.2.2.2.1
@[simp] theorem State.engWrite_reports (s : State) (a : Nat) (bs : List Byte) : (s.engWrite a bs).reports = s.reports := (State.engWrite_keep s a bs).2.2.2.2.2.2.2.2.1
@[simp] theorem State.engWrite_events (s : State) (a : Nat) (bs : List Byte) : (s.engWrite a bs).events = s.events := (State.engWrite_keep s a bs).2.2.2.2.2.2.2.2.2.1
@[simp] theorem State.engWrite_jobs (s : State) (a : Nat) (bs : List Byte) : (s.engWrite a bs).jobs = s.jobs := (State.engWrite_keep s a bs).2.2.2.2.2.2.2.2.2.2.1
@[simp] theorem State.engWrite_doms (s : State) (a : Nat) (bs : List Byte) : (s.engWrite a bs).doms = s.doms := (State.engWrite_keep s a bs).2.2.2.2.2.2.2.2.2.2.2.1
@[simp] theorem State.engWrite_chain (s : State) (a : Nat) (bs : List Byte) : (s.engWrite a bs).chain = s.chain := (State.engWrite_keep s a bs).2.2.2.2.2.2.2.2.2.2.2.2
@[simp] theorem State.engWrite_arr_keep (s : State) (a : Nat) (bs : List Byte) (key : Nat) : (s.engWrite a bs).arr key = s.arr key := by unfold State.arr; rw [State.engWrite_arrays]
@[simp] theorem State.engWrite_tile_keep (s : State) (a : Nat) (bs : List Byte) (key : Nat) : (s.engWrite a bs).tile key = s.tile key := by unfold State.tile; rw [State.engWrite_tiles]
@[simp] theorem State.engWrite_clu_keep (s : State) (a : Nat) (bs : List Byte) (key : Nat) : (s.engWrite a bs).clu key = s.clu key := by unfold State.clu; rw [State.engWrite_clus]
@[simp] theorem State.engWrite_ctx_keep (s : State) (a : Nat) (bs : List Byte) (key : Nat) : (s.engWrite a bs).ctx key = s.ctx key := by unfold State.ctx; rw [State.engWrite_ctxs]
@[simp] theorem State.engWrite_queue_keep (s : State) (a : Nat) (bs : List Byte) (key : Nat) : (s.engWrite a bs).queue key = s.queue key := by unfold State.queue; rw [State.engWrite_queues]
@[simp] theorem State.engWrite_dom_keep (s : State) (a : Nat) (bs : List Byte) (key : Nat) : (s.engWrite a bs).dom key = s.dom key := by unfold State.dom; rw [State.engWrite_doms]
@[simp] theorem State.engWrite_gs_keep (s : State) (a : Nat) (bs : List Byte) (key : Nat) : (s.engWrite a bs).gs key = s.gs key := by unfold State.gs; rw [State.engWrite_gsem]

theorem State.checkValue_keep (c a : Nat) (o : Op) (r : VecRes) (inv tol : Nat) (s : State) (ck : Nat × Nat × Nat × Bool) : (State.checkValue c a o r inv tol s ck).regs = s.regs ∧ (State.checkValue c a o r inv tol s ck).pages = s.pages ∧ (State.checkValue c a o r inv tol s ck).queues = s.queues ∧ (State.checkValue c a o r inv tol s ck).host = s.host ∧ (State.checkValue c a o r inv tol s ck).mem = s.mem ∧ (State.checkValue c a o r inv tol s ck).parBad = s.parBad ∧ (State.checkValue c a o r inv tol s ck).lpmem = s.lpmem ∧ (State.checkValue c a o r inv tol s ck).lpBad = s.lpBad ∧ (State.checkValue c a o r inv tol s ck).tiles = s.tiles ∧ (State.checkValue c a o r inv tol s ck).clus = s.clus ∧ (State.checkValue c a o r inv tol s ck).ops = s.ops ∧ (State.checkValue c a o r inv tol s ck).gsem = s.gsem ∧ (State.checkValue c a o r inv tol s ck).events = s.events ∧ (State.checkValue c a o r inv tol s ck).jobs = s.jobs ∧ (State.checkValue c a o r inv tol s ck).doms = s.doms ∧ (State.checkValue c a o r inv tol s ck).chain = s.chain := by unfold State.checkValue; (try dsimp only); (repeat' split) <;> simp
@[simp] theorem State.checkValue_regs (c a : Nat) (o : Op) (r : VecRes) (inv tol : Nat) (s : State) (ck : Nat × Nat × Nat × Bool) : (State.checkValue c a o r inv tol s ck).regs = s.regs := (State.checkValue_keep c a o r inv tol s ck).1
@[simp] theorem State.checkValue_pages (c a : Nat) (o : Op) (r : VecRes) (inv tol : Nat) (s : State) (ck : Nat × Nat × Nat × Bool) : (State.checkValue c a o r inv tol s ck).pages = s.pages := (State.checkValue_keep c a o r inv tol s ck).2.1
@[simp] theorem State.checkValue_queues (c a : Nat) (o : Op) (r : VecRes) (inv tol : Nat) (s : State) (ck : Nat × Nat × Nat × Bool) : (State.checkValue c a o r inv tol s ck).queues = s.queues := (State.checkValue_keep c a o r inv tol s ck).2.2.1
@[simp] theorem State.checkValue_host (c a : Nat) (o : Op) (r : VecRes) (inv tol : Nat) (s : State) (ck : Nat × Nat × Nat × Bool) : (State.checkValue c a o r inv tol s ck).host = s.host := (State.checkValue_keep c a o r inv tol s ck).2.2.2.1
@[simp] theorem State.checkValue_mem (c a : Nat) (o : Op) (r : VecRes) (inv tol : Nat) (s : State) (ck : Nat × Nat × Nat × Bool) : (State.checkValue c a o r inv tol s ck).mem = s.mem := (State.checkValue_keep c a o r inv tol s ck).2.2.2.2.1
@[simp] theorem State.checkValue_parBad (c a : Nat) (o : Op) (r : VecRes) (inv tol : Nat) (s : State) (ck : Nat × Nat × Nat × Bool) : (State.checkValue c a o r inv tol s ck).parBad = s.parBad := (State.checkValue_keep c a o r inv tol s ck).2.2.2.2.2.1
@[simp] theorem State.checkValue_lpmem (c a : Nat) (o : Op) (r : VecRes) (inv tol : Nat) (s : State) (ck : Nat × Nat × Nat × Bool) : (State.checkValue c a o r inv tol s ck).lpmem = s.lpmem := (State.checkValue_keep c a o r inv tol s ck).2.2.2.2.2.2.1
@[simp] theorem State.checkValue_lpBad (c a : Nat) (o : Op) (r : VecRes) (inv tol : Nat) (s : State) (ck : Nat × Nat × Nat × Bool) : (State.checkValue c a o r inv tol s ck).lpBad = s.lpBad := (State.checkValue_keep c a o r inv tol s ck).2.2.2.2.2.2.2.1
@[simp] theorem State.checkValue_tiles (c a : Nat) (o : Op) (r : VecRes) (inv tol : Nat) (s : State) (ck : Nat × Nat × Nat × Bool) : (State.checkValue c a o r inv tol s ck).tiles = s.tiles := (State.checkValue_keep c a o r inv tol s ck).2.2.2.2.2.2.2.2.1
@[simp] theorem State.checkValue_clus (c a : Nat) (o : Op) (r : VecRes) (inv tol : Nat) (s : State) (ck : Nat × Nat × Nat × Bool) : (State.checkValue c a o r inv tol s ck).clus = s.clus := (State.checkValue_keep c a o r inv tol s ck).2.2.2.2.2.2.2.2.2.1
@[simp] theorem State.checkValue_ops (c a : Nat) (o : Op) (r : VecRes) (inv tol : Nat) (s : State) (ck : Nat × Nat × Nat × Bool) : (State.checkValue c a o r inv tol s ck).ops = s.ops := (State.checkValue_keep c a o r inv tol s ck).2.2.2.2.2.2.2.2.2.2.1
@[simp] theorem State.checkValue_gsem (c a : Nat) (o : Op) (r : VecRes) (inv tol : Nat) (s : State) (ck : Nat × Nat × Nat × Bool) : (State.checkValue c a o r inv tol s ck).gsem = s.gsem := (State.checkValue_keep c a o r inv tol s ck).2.2.2.2.2.2.2.2.2.2.2.1
@[simp] theorem State.checkValue_events (c a : Nat) (o : Op) (r : VecRes) (inv tol : Nat) (s : State) (ck : Nat × Nat × Nat × Bool) : (State.checkValue c a o r inv tol s ck).events = s.events := (State.checkValue_keep c a o r inv tol s ck).2.2.2.2.2.2.2.2.2.2.2.2.1
@[simp] theorem State.checkValue_jobs (c a : Nat) (o : Op) (r : VecRes) (inv tol : Nat) (s : State) (ck : Nat × Nat × Nat × Bool) : (State.checkValue c a o r inv tol s ck).jobs = s.jobs := (State.checkValue_keep c a o r inv tol s ck).2.2.2.2.2.2.2.2.2.2.2.2.2.1
@[simp] theorem State.checkValue_doms (c a : Nat) (o : Op) (r : VecRes) (inv tol : Nat) (s : State) (ck : Nat × Nat × Nat × Bool) : (State.checkValue c a o r inv tol s ck).doms = s.doms := (State.checkValue_keep c a o r inv tol s ck).2.2.2.2.2.2.2.2.2.2.2.2.2.2.1
@[simp] theorem State.checkValue_chain (c a : Nat) (o : Op) (r : VecRes) (inv tol : Nat) (s : State) (ck : Nat × Nat × Nat × Bool) : (State.checkValue c a o r inv tol s ck).chain = s.chain := (State.checkValue_keep c a o r inv tol s ck).2.2.2.2.2.2.2.2.2.2.2.2.2.2.2
@[simp] theorem State.checkValue_tile_keep (c a : Nat) (o : Op) (r : VecRes) (inv tol : Nat) (s : State) (ck : Nat × Nat × Nat × Bool) (key : Nat) : (State.checkValue c a o r inv tol s ck).tile key = s.tile key := by unfold State.tile; rw [State.checkValue_tiles]
@[simp] theorem State.checkValue_clu_keep (c a : Nat) (o : Op) (r : VecRes) (inv tol : Nat) (s : State) (ck : Nat × Nat × Nat × Bool) (key : Nat) : (State.checkValue c a o r inv tol s ck).clu key = s.clu key := by unfold State.clu; rw [State.checkValue_clus]
@[simp] theorem State.checkValue_queue_keep (c a : Nat) (o : Op) (r : VecRes) (inv tol : Nat) (s : State) (ck : Nat × Nat × Nat × Bool) (key : Nat) : (State.checkValue c a o r inv tol s ck).queue key = s.queue key := by unfold State.queue; rw [State.checkValue_queues]
@[simp] theorem State.checkValue_page_keep (c a : Nat) (o : Op) (r : VecRes) (inv tol : Nat) (s : State) (ck : Nat × Nat × Nat × Bool) (key : Nat) : (State.checkValue c a o r inv tol s ck).page key = s.page key := by unfold State.page; rw [State.checkValue_pages]
@[simp] theorem State.checkValue_dom_keep (c a : Nat) (o : Op) (r : VecRes) (inv tol : Nat) (s : State) (ck : Nat × Nat × Nat × Bool) (key : Nat) : (State.checkValue c a o r inv tol s ck).dom key = s.dom key := by unfold State.dom; rw [State.checkValue_doms]
@[simp] theorem State.checkValue_gs_keep (c a : Nat) (o : Op) (r : VecRes) (inv tol : Nat) (s : State) (ck : Nat × Nat × Nat × Bool) (key : Nat) : (State.checkValue c a o r inv tol s ck).gs key = s.gs key := by unfold State.gs; rw [State.checkValue_gsem]
@[simp] theorem State.checkValue_rd_keep (c a : Nat) (o : Op) (r : VecRes) (inv tol : Nat) (s : State) (ck : Nat × Nat × Nat × Bool) (key : Nat) : (State.checkValue c a o r inv tol s ck).rd key = s.rd key := by unfold State.rd; rw [State.checkValue_regs]
@[simp] theorem State.checkValue_memByte_keep (c a : Nat) (o : Op) (r : VecRes) (inv tol : Nat) (s : State) (ck : Nat × Nat × Nat × Bool) (key : Nat) : (State.checkValue c a o r inv tol s ck).memByte key = s.memByte key := by unfold State.memByte; rw [State.checkValue_mem]
@[simp] theorem State.checkValue_lpByte_keep (c a : Nat) (o : Op) (r : VecRes) (inv tol : Nat) (s : State) (ck : Nat × Nat × Nat × Bool) (key : Nat) : (State.checkValue c a o r inv tol s ck).lpByte key = s.lpByte key := by unfold State.lpByte; rw [State.checkValue_lpmem]

@[simp] theorem State.checkValues_regs (s : State) (c a : Nat) (o : Op) (r : VecRes) : (s.checkValues c a o r).regs = s.regs := foldl_keep State.regs _ (fun b k => State.checkValue_regs c a o r _ _ b k) _ _
@[simp] theorem State.checkValues_pages (s : State) (c a : Nat) (o : Op) (r : VecRes) : (s.checkValues c a o r).pages = s.pages := foldl_keep State.pages _ (fun b k => State.checkValue_pages c a o r _ _ b k) _ _
@[simp] theorem State.checkValues_queues (s : State) (c a : Nat) (o : Op) (r : VecRes) : (s.checkValues c a o r).queues = s.queues := foldl_keep State.queues _ (fun b k => State.checkValue_queues c a o r _ _ b k) _ _
@[simp] theorem State.checkValues_host (s : State) (c a : Nat) (o : Op) (r : VecRes) : (s.checkValues c a o r).host = s.host := foldl_keep State.host _ (fun b k => State.checkValue_host c a o r _ _ b k) _ _
@[simp] theorem State.checkValues_mem (s : State) (c a : Nat) (o : Op) (r : VecRes) : (s.checkValues c a o r).mem = s.mem := foldl_keep State.mem _ (fun b k => State.checkValue_mem c a o r _ _ b k) _ _
@[simp] theorem State.checkValues_parBad (s : State) (c a : Nat) (o : Op) (r : VecRes) : (s.checkValues c a o r).parBad = s.parBad := foldl_keep State.parBad _ (fun b k => State.checkValue_parBad c a o r _ _ b k) _ _
@[simp] theorem State.checkValues_lpmem (s : State) (c a : Nat) (o : Op) (r : VecRes) : (s.checkValues c a o r).lpmem = s.lpmem := foldl_keep State.lpmem _ (fun b k => State.checkValue_lpmem c a o r _ _ b k) _ _
@[simp] theorem State.checkValues_lpBad (s : State) (c a : Nat) (o : Op) (r : VecRes) : (s.checkValues c a o r).lpBad = s.lpBad := foldl_keep State.lpBad _ (fun b k => State.checkValue_lpBad c a o r _ _ b k) _ _
@[simp] theorem State.checkValues_tiles (s : State) (c a : Nat) (o : Op) (r : VecRes) : (s.checkValues c a o r).tiles = s.tiles := foldl_keep State.tiles _ (fun b k => State.checkValue_tiles c a o r _ _ b k) _ _
@[simp] theorem State.checkValues_clus (s : State) (c a : Nat) (o : Op) (r : VecRes) : (s.checkValues c a o r).clus = s.clus := foldl_keep State.clus _ (fun b k => State.checkValue_clus c a o r _ _ b k) _ _
@[simp] theorem State.checkValues_ops (s : State) (c a : Nat) (o : Op) (r : VecRes) : (s.checkValues c a o r).ops = s.ops := foldl_keep State.ops _ (fun b k => State.checkValue_ops c a o r _ _ b k) _ _
@[simp] theorem State.checkValues_gsem (s : State) (c a : Nat) (o : Op) (r : VecRes) : (s.checkValues c a o r).gsem = s.gsem := foldl_keep State.gsem _ (fun b k => State.checkValue_gsem c a o r _ _ b k) _ _
@[simp] theorem State.checkValues_events (s : State) (c a : Nat) (o : Op) (r : VecRes) : (s.checkValues c a o r).events = s.events := foldl_keep State.events _ (fun b k => State.checkValue_events c a o r _ _ b k) _ _
@[simp] theorem State.checkValues_jobs (s : State) (c a : Nat) (o : Op) (r : VecRes) : (s.checkValues c a o r).jobs = s.jobs := foldl_keep State.jobs _ (fun b k => State.checkValue_jobs c a o r _ _ b k) _ _
@[simp] theorem State.checkValues_doms (s : State) (c a : Nat) (o : Op) (r : VecRes) : (s.checkValues c a o r).doms = s.doms := foldl_keep State.doms _ (fun b k => State.checkValue_doms c a o r _ _ b k) _ _
@[simp] theorem State.checkValues_chain (s : State) (c a : Nat) (o : Op) (r : VecRes) : (s.checkValues c a o r).chain = s.chain := foldl_keep State.chain _ (fun b k => State.checkValue_chain c a o r _ _ b k) _ _
@[simp] theorem State.checkValues_tile_keep (s : State) (c a : Nat) (o : Op) (r : VecRes) (key : Nat) : (s.checkValues c a o r).tile key = s.tile key := by unfold State.tile; rw [State.checkValues_tiles]
@[simp] theorem State.checkValues_clu_keep (s : State) (c a : Nat) (o : Op) (r : VecRes) (key : Nat) : (s.checkValues c a o r).clu key = s.clu key := by unfold State.clu; rw [State.checkValues_clus]
@[simp] theorem State.checkValues_queue_keep (s : State) (c a : Nat) (o : Op) (r : VecRes) (key : Nat) : (s.checkValues c a o r).queue key = s.queue key := by unfold State.queue; rw [State.checkValues_queues]
@[simp] theorem State.checkValues_page_keep (s : State) (c a : Nat) (o : Op) (r : VecRes) (key : Nat) : (s.checkValues c a o r).page key = s.page key := by unfold State.page; rw [State.checkValues_pages]
@[simp] theorem State.checkValues_dom_keep (s : State) (c a : Nat) (o : Op) (r : VecRes) (key : Nat) : (s.checkValues c a o r).dom key = s.dom key := by unfold State.dom; rw [State.checkValues_doms]
@[simp] theorem State.checkValues_gs_keep (s : State) (c a : Nat) (o : Op) (r : VecRes) (key : Nat) : (s.checkValues c a o r).gs key = s.gs key := by unfold State.gs; rw [State.checkValues_gsem]
@[simp] theorem State.checkValues_rd_keep (s : State) (c a : Nat) (o : Op) (r : VecRes) (key : Nat) : (s.checkValues c a o r).rd key = s.rd key := by unfold State.rd; rw [State.checkValues_regs]
@[simp] theorem State.checkValues_memByte_keep (s : State) (c a : Nat) (o : Op) (r : VecRes) (key : Nat) : (s.checkValues c a o r).memByte key = s.memByte key := by unfold State.memByte; rw [State.checkValues_mem]
@[simp] theorem State.checkValues_lpByte_keep (s : State) (c a : Nat) (o : Op) (r : VecRes) (key : Nat) : (s.checkValues c a o r).lpByte key = s.lpByte key := by unfold State.lpByte; rw [State.checkValues_lpmem]

/-! ### Streams -/

theorem nth_setNth {α : Type} (d x : α) (l : List α) (i j : Nat) : nth d (setNth l i x) j = if j = i ∧ i < l.length then x else nth d l j := by
  unfold setNth
  induction l generalizing i j with
  | nil => simp [modifyNth, nth]
  | cons a r ih =>
    cases i with
    | zero => cases j <;> simp [modifyNth, nth]
    | succ i => cases j with
      | zero => simp [modifyNth, nth]
      | succ j => simp [modifyNth, nth, ih]

theorem length_setNth {α : Type} (l : List α) (i : Nat) (x : α) : (setNth l i x).length = l.length := by
  unfold setNth
  induction l generalizing i with
  | nil => rfl
  | cons a r ih => cases i <;> simp [modifyNth, ih]

theorem issuable_some {s : State} {ctx i op : Nat} {v : Inv} {st : StreamSt} {w : Nat} (h : s.issuable ctx i op = some (v, st, w)) :
    (s.ctx ctx).inv = some v ∧ i < v.streams.length ∧ st = nth noStream v.streams i ∧ v.stop = none := by
  unfold State.issuable at h
  split at h
  · cases h
  · rename_i v' hv
    split at h
    · cases h
    · dsimp only at h
      split at h
      · cases h
        rename_i h1 h2
        refine ⟨hv, by omega, rfl, ?_⟩
        simp at h2
        exact h2.1.1.1.1.1.1
      · cases h

theorem stream_setStream (s : State) (ctx i j : Nat) (x : StreamSt) {v : Inv} (hv : (s.ctx ctx).inv = some v) (hi : i < v.streams.length) :
    (s.setStream ctx i x).stream ctx j = if j = i then x else s.stream ctx j := by
  simp [State.setStream, State.stream, Ctx.modInv, hv, nth_setNth, hi]

theorem rOff4 (t : PType) (i o : Nat) : rOff t i (o + 4) = rOff t i o + 4 := by unfold rOff; omega

theorem control_issues {s : State} {ctx i : Nat} {v : Inv} {st st' : StreamSt} (n : Nat) (hv : (s.ctx ctx).inv = some v) (hi : i < v.streams.length) :
    Issues s (s.control ctx i st st' n) ctx i st { st' with idx := n } := by
  unfold State.control State.issued
  have hs : ∀ j x, ((s.setStream ctx i x).bump64 .cmp st.page 0x60 1).stream ctx j = (s.setStream ctx i x).stream ctx j := by
    intro j x; unfold State.stream; rw [State.ctx_bump64]
  refine ⟨?_, ?_, ?_, ?_, ?_, ?_, ?_⟩
  · rw [hs, stream_setStream _ _ _ _ _ hv hi, if_pos rfl]
  · simp only [State.reg64_eq, State.rd64_bump64_same]
    simp [State.setStream, State.rd64]
  · intro j hj
    rw [hs, stream_setStream _ _ _ _ _ hv hi, if_neg hj]
  · intro c hc
    simp [State.setStream, hc]
  · intro off ho
    rw [State.rd_bump64_other _ _ _ _ _ _ (fun h => ho (Or.inl h)) (fun h => ho (Or.inr (by rw [h, ← rOff4])))]
    simp [State.setStream]
  · intro a; simp [State.setStream]
  · intro a; simp [State.setStream]

/-! ### Stops, arrival and hand-over -/

theorem stopAt_stops (s : State) (ctx i : Nat) (c : Code) : StopsWith ctx i c s (s.stopAt ctx i c) := by
  intro v hv
  unfold State.stopAt
  simp only [hv]
  by_cases h : v.stop.isSome
  · simp [h, hv]
  · simp [h, hv, Ctx.modInv, State.stream]

theorem gs_stopAt (s : State) (ctx i g : Nat) (c : Code) : (s.stopAt ctx i c).gs g = s.gs g := by
  unfold State.stopAt; split
  · rfl
  · split
    · rfl
    · simp

theorem issues_gs {s t : State} {ctx i g x : Nat} {st st' : StreamSt} (h : Issues (s.setGs g x) t ctx i st st') : Issues s t ctx i st st' :=
  ⟨h.stream, by simpa [State.rd64] using h.count, fun j hj => by simpa [State.stream] using h.streams j hj, fun c hc => by simpa using h.ctxs c hc,
   fun o ho => by simpa using h.regs o ho, fun a => by simpa using h.mem.1 a, fun a => by simpa using h.mem.2 a⟩

theorem stopAt_mem (s : State) (ctx i : Nat) (c : Code) : SameMemory s (s.stopAt ctx i c) := ⟨fun a => by simp, fun a => by simp⟩

theorem modInv_some (u : State) (ctx : Nat) (f : Inv → Inv) {v : Inv} (h : (u.ctx ctx).inv = some v) : ((u.modCtx ctx (fun x => x.modInv f)).ctx ctx).inv = some (f v) := by
  simp [Ctx.modInv, h]

theorem countArrival_streams (s : State) (o : Op) (c : Nat) (v : Inv) (hv : (s.ctx c).inv = some v) :
    ∃ v', ((s.countArrival o).ctx c).inv = some v' ∧ v'.streams = v.streams ∧ v'.stop = v.stop := by
  unfold State.countArrival
  dsimp only
  split
  · exact ⟨v, hv, rfl, rfl⟩
  · split
    · by_cases hco : c = o.ctx
      · subst hco
        exact ⟨{ v with given := FMap.upd 0 v.given (o.clusters.headD 0) (· + o.testCount) }, by simp [Ctx.modInv, hv], rfl, rfl⟩
      · exact ⟨v, by simp [hco, hv], rfl, rfl⟩
    · exact ⟨v, by simpa using hv, rfl, rfl⟩

theorem arrive_spec (s : State) (o : Op) :
    (∃ o', (s.arrive o).ops = s.ops ++ [o'] ∧ o'.id = o.id ∧ o'.word = o.word ∧ o'.ctx = o.ctx ∧ o'.stream = o.stream ∧ o'.stage = 1) ∧
    ∀ c v, (s.ctx c).inv = some v → ∃ v', ((s.arrive o).ctx c).inv = some v' ∧ v'.streams = v.streams ∧ v'.stop = v.stop := by
  unfold State.arrive
  dsimp only
  have h (c : Nat) : (((s.scoreboard o.acc).1.takeDraws o).1.ctx c) = s.ctx c := by simp
  have g : (((s.scoreboard o.acc).1.takeDraws o).1.countArrival o).ops = s.ops := by simp
  have k := countArrival_streams ((s.scoreboard o.acc).1.takeDraws o).1 o
  generalize ((s.scoreboard o.acc).1.takeDraws o).2 = y
  generalize ((s.scoreboard o.acc).1.takeDraws o).1 = u at *
  generalize u.countArrival o = w at *
  exact ⟨⟨{ o with stage := 1, acc := (s.scoreboard o.acc).2, rng := y }, by rw [State.ops_withOps, g], rfl, rfl, rfl, rfl, rfl⟩, fun c v hv => k c v (by rw [h, hv])⟩

theorem submit_handed {s : State} {ctx i : Nat} {st : StreamSt} {o : Op} {v : Inv} (hv : (s.ctx ctx).inv = some v) (hi : i < v.streams.length)
    (h1 : o.ctx = ctx) (h2 : o.stream = i) : HandedOver ctx i st o.word (s.submit ctx i st o) ∧ SameMemory s (s.submit ctx i st o) := by
  unfold State.submit
  dsimp only
  split
  · obtain ⟨⟨o', a3, a4, a5, a6, a7, a8⟩, a9⟩ := arrive_spec (s.withNextOp (s.nextOp + 1)) { o with id := s.nextOp, stage := 0 }
    have a1 := State.arrive_mem (s.withNextOp (s.nextOp + 1)) { o with id := s.nextOp, stage := 0 }
    have a2 := State.arrive_lpmem (s.withNextOp (s.nextOp + 1)) { o with id := s.nextOp, stage := 0 }
    generalize State.arrive (s.withNextOp (s.nextOp + 1)) { o with id := s.nextOp, stage := 0 } = u at *
    obtain ⟨v', b1, b2, _⟩ := a9 ctx v hv
    have hst : ((u.setStream ctx i { st with idx := st.idx + 1 }).issued st).stream ctx i = { st with idx := st.idx + 1 } := by
      rw [show ((u.setStream ctx i { st with idx := st.idx + 1 }).issued st).stream ctx i = (u.setStream ctx i { st with idx := st.idx + 1 }).stream ctx i by
        simp [State.issued, State.stream]]
      rw [stream_setStream _ _ _ _ _ b1 (by rw [b2]; exact hi), if_pos rfl]
    refine ⟨⟨o', by simp [State.issued, State.setStream, a3], a5, by rw [a6]; exact h1, by rw [a7]; exact h2, Or.inl ⟨a8, hst⟩⟩, ?_, ?_⟩
    · intro a; rw [State.issued_memByte_keep, State.setStream_memByte_keep]; unfold State.memByte; rw [a1]; rfl
    · intro a; rw [State.issued_lpByte_keep, State.setStream_lpByte_keep]; unfold State.lpByte; rw [a2]; rfl
  · refine ⟨⟨{ o with id := s.nextOp, stage := 0 }, by simp, rfl, h1, h2, Or.inr ⟨rfl, ?_⟩⟩, ?_, ?_⟩
    · exact (stream_setStream (s.withNextOp (s.nextOp + 1)) ctx i i { st with held := some s.nextOp } hv hi).trans (if_pos rfl)
    · intro a; rfl
    · intro a; rfl

theorem accIssue_spec {s : State} {ctx i : Nat} {st : StreamSt} {f : IssueForm} {v : Inv} (hv : (s.ctx ctx).inv = some v) (hi : i < v.streams.length)
    (h1 : f.op.ctx = ctx) (h2 : f.op.stream = i) : SameMemory s (s.accIssue ctx i st f) ∧
      match s.formBad f with | none => HandedOver ctx i st f.op.word (s.accIssue ctx i st f) | some k => StopsWith ctx i k s (s.accIssue ctx i st f) := by
  unfold State.accIssue
  cases hb : s.formBad f with
  | some c => exact ⟨stopAt_mem _ _ _ _, stopAt_stops _ _ _ _⟩
  | none =>
    exact ⟨(submit_handed hv hi h1 h2).2, (submit_handed hv hi h1 h2).1⟩

theorem chainIssue_keep (s : State) (ctx : Nat) (st : StreamSt) (w : Nat) (f : MvmForm) (id : Nat) :
    (s.chainIssue ctx st w f id).1.ctxs = s.ctxs ∧ (s.chainIssue ctx st w f id).1.mem = s.mem ∧ (s.chainIssue ctx st w f id).1.lpmem = s.lpmem := by
  unfold State.chainIssue State.setChain
  repeat' split
  all_goals exact ⟨rfl, rfl, rfl⟩

theorem mvm_spec {s : State} {ctx i : Nat} {v : Inv} {st : StreamSt} {w : Nat} (hv : (s.ctx ctx).inv = some v) (hi : i < v.streams.length) :
    SameMemory s (s.mvmIssue ctx i v st w) ∧ match s.mvmBad ctx v st w with | none => HandedOver ctx i st w (s.mvmIssue ctx i v st w) | some c => StopsWith ctx i c s (s.mvmIssue ctx i v st w) := by
  unfold State.mvmIssue
  dsimp only
  cases hb : s.mvmBad ctx v st w with
  | some c => exact ⟨stopAt_mem _ _ _ _, stopAt_stops _ _ _ _⟩
  | none =>
    obtain ⟨h1, h2, h3⟩ := chainIssue_keep s ctx st w (s.mvmForm ctx v st w) s.nextOp
    generalize s.chainIssue ctx st w (s.mvmForm ctx v st w) s.nextOp = r at *
    have hr : (r.1.ctx ctx).inv = some v := by unfold State.ctx; rw [h1]; exact hv
    have hm : ∀ a, r.1.memByte a = s.memByte a := fun a => by unfold State.memByte; rw [h2]
    have hl : ∀ a, r.1.lpByte a = s.lpByte a := fun a => by unfold State.lpByte; rw [h3]
    generalize hu : (if (s.mvmForm ctx v st w).spilled = true then _ else _) = u
    have hu' : (∃ v', (u.ctx ctx).inv = some v' ∧ v'.streams = v.streams) ∧ (∀ a, u.memByte a = s.memByte a) ∧ ∀ a, u.lpByte a = s.lpByte a := by
      subst hu
      split
      · exact ⟨⟨_, modInv_some _ _ _ hr, rfl⟩, fun a => by simp [hm], fun a => by simp [hl]⟩
      · exact ⟨⟨_, modInv_some _ _ _ hr, rfl⟩, fun a => by simp [hm], fun a => by simp [hl]⟩
    obtain ⟨⟨v', e1, e2⟩, e3, e4⟩ := hu'
    have key := fun (o : Op) (ho1 : o.ctx = ctx) (ho2 : o.stream = i) => submit_handed (st := st) (o := o) e1 (by rw [e2]; exact hi) ho1 ho2
    constructor
    · exact ⟨fun a => ((key _ rfl rfl).2.1 a).trans (e3 a), fun a => ((key _ rfl rfl).2.2 a).trans (e4 a)⟩
    · exact (key _ rfl rfl).1

theorem rise_keep (s : State) (o : Op) : (s.rise o).mem = s.mem ∧ (s.rise o).lpmem = s.lpmem ∧ (s.rise o).ops = s.ops ∧
    (o.ctx = o.ctx → ∀ v, (s.ctx o.ctx).inv = some v → o.stream < v.streams.length → ((s.rise o).stream o.ctx o.stream).held = (s.stream o.ctx o.stream).held ∧
      ((s.rise o).stream o.ctx o.stream).idx = (s.stream o.ctx o.stream).idx) := by
  have hstop : ∀ c, (s.stopAt o.ctx o.stream c).mem = s.mem ∧ (s.stopAt o.ctx o.stream c).lpmem = s.lpmem ∧ (s.stopAt o.ctx o.stream c).ops = s.ops ∧
     (s.stopAt o.ctx o.stream c).stream o.ctx o.stream = s.stream o.ctx o.stream := by
    intro c; unfold State.stopAt
    split
    · exact ⟨rfl, rfl, rfl, rfl⟩
    · rename_i v hv
      split
      · exact ⟨rfl, rfl, rfl, rfl⟩
      · simp [State.stream, Ctx.modInv, hv]
  unfold State.rise
  split
  · exact ⟨rfl, rfl, rfl, fun _ v _ _ => ⟨rfl, rfl⟩⟩
  · dsimp only
    split
    · split
      · obtain ⟨h1, h2, h3, h4⟩ := hstop .limit
        exact ⟨h1, h2, h3, fun _ v _ _ => by rw [h4]; exact ⟨rfl, rfl⟩⟩
      · exact ⟨rfl, rfl, rfl, fun _ v _ _ => ⟨rfl, rfl⟩⟩
    · split
      · obtain ⟨h1, h2, h3, h4⟩ := hstop .limit
        exact ⟨h1, h2, h3, fun _ v _ _ => by rw [h4]; exact ⟨rfl, rfl⟩⟩
      · refine ⟨rfl, rfl, rfl, fun _ v hv hi => ?_⟩
        rw [stream_setStream _ _ _ _ _ hv hi, if_pos rfl]
        exact ⟨rfl, rfl⟩

/-! ### Operations that leave -/

theorem accept_ops (s : State) (o : Op) : ∀ x ∈ (s.accept o).ops, x ∈ s.ops ∨ x.id = o.id := by
  intro x
  unfold State.accept
  dsimp only
  split
  · obtain ⟨⟨o', h, h1, _⟩, _⟩ := arrive_spec (s.withOps (removeOp o.id s.ops)) o
    simp only [State.issued_ops, State.setStream_ops, h, List.mem_append, List.mem_singleton]
    rintro (hx | rfl)
    · exact Or.inl (List.mem_of_mem_filter hx)
    · exact Or.inr h1
  · intro hx; exact Or.inl (List.mem_of_mem_filter hx)

theorem engineNext_left {s : State} {o : Op} {id : Nat} (h : ∀ x ∈ s.ops, x.id ≠ id) : ∀ x ∈ (s.engineNext o).ops, x.id ≠ id := by
  unfold State.engineNext
  split
  · exact h
  · rename_i y hy
    split
    · intro x hx
      rcases accept_ops s y x hx with hx | hx
      · exact h x hx
      · rw [hx]; exact h y (List.mem_of_find?_eq_some hy)
    · exact h

theorem dropOp_left (s : State) (o : Op) : Left o (s.dropOp o) := by
  refine engineNext_left (s := (s.withOps (removeOp o.id s.ops))) ?_
  intro x hx
  simp only [State.ops_withOps, removeOp, List.mem_filter, bne_iff_ne] at hx
  exact hx.2

theorem retire_left (s : State) (o : Op) : Left o (s.retire o) := dropOp_left _ o
theorem stopOp_left (s : State) (o : Op) (c : Code) : Left o (s.stopOp o c) := dropOp_left _ o

theorem setStream_stop {s : State} {ctx i c : Nat} {x : StreamSt} {v : Inv} (hv : (s.ctx c).inv = some v) :
    ∃ v', ((s.setStream ctx i x).ctx c).inv = some v' ∧ v'.stop = v.stop := by
  by_cases h : c = ctx
  · subst h; exact ⟨{ v with streams := setNth v.streams i x }, by simp [State.setStream, Ctx.modInv, hv], rfl⟩
  · exact ⟨v, by simp [State.setStream, h, hv], rfl⟩

theorem dropOp_stop {s : State} {o : Op} {c : Nat} {v : Inv} (hv : (s.ctx c).inv = some v) :
    ∃ v', ((s.dropOp o).ctx c).inv = some v' ∧ v'.stop = v.stop := by
  unfold State.dropOp State.engineNext
  split
  · exact ⟨v, hv, rfl⟩
  · rename_i y hy
    split
    · unfold State.accept
      dsimp only
      split
      · obtain ⟨v1, h1, _, h2⟩ := (arrive_spec ((s.withOps (removeOp o.id s.ops)).withOps (removeOp y.id (removeOp o.id s.ops))) y).2 c v hv
        obtain ⟨v2, h3, h4⟩ := setStream_stop (ctx := y.ctx) (i := y.stream) (x := { State.stream (s.withOps (removeOp o.id s.ops)) y.ctx y.stream with
          idx := (State.stream (s.withOps (removeOp o.id s.ops)) y.ctx y.stream).idx + 1, held := none }) h1
        exact ⟨v2, by simpa [State.issued] using h3, by rw [h4, h2]⟩
      · exact ⟨v, hv, rfl⟩
    · exact ⟨v, hv, rfl⟩

theorem stopOp_stops {s u : State} {o : Op} {c : Code} (hc : ∀ k, u.ctx k = s.ctx k) : StopsOp o c s (u.stopOp o c) := by
  refine ⟨stopOp_left _ _ _, fun v hv => ?_⟩
  have h := stopAt_stops u o.ctx o.stream c v (by rw [hc]; exact hv)
  obtain ⟨v', h1, h2⟩ := dropOp_stop (o := o) h
  refine ⟨v', h1, ?_⟩
  rw [h2]
  by_cases hs : v.stop.isSome
  · simp [hs]
  · simp [hs, State.stream, hc]

/-! ### Check values -/

/-- Comparing check values changes what an array counts, and neither its results nor its invocation's stop or streams. -/
theorem checkValue_spec (s : State) (c a : Nat) (o : Op) (r : VecRes) (inv tol : Nat) (ck : Nat × Nat × Nat × Bool) (k : Nat) :
    ((State.checkValue c a o r inv tol s ck).arr k).res = (s.arr k).res ∧
    ((State.checkValue c a o r inv tol s ck).ctx k).inv.map (fun v => (v.stop, v.streams)) = (s.ctx k).inv.map (fun v => (v.stop, v.streams)) := by
  unfold State.checkValue
  dsimp only
  split
  · exact ⟨rfl, rfl⟩
  · constructor
    · simp; split <;> simp [*]
    · simp; split
      · simp [Ctx.modInv, *]; rfl
      · rfl

theorem checkValues_res (s : State) (c a : Nat) (o : Op) (r : VecRes) (k : Nat) : ((s.checkValues c a o r).arr k).res = (s.arr k).res :=
  foldl_keep (fun s : State => (s.arr k).res) _ (fun b ck => (checkValue_spec b c a o r _ _ ck k).1) _ _

theorem checkValues_inv (s : State) (c a : Nat) (o : Op) (r : VecRes) (k : Nat) :
    ((s.checkValues c a o r).ctx k).inv.map (fun v => (v.stop, v.streams)) = (s.ctx k).inv.map (fun v => (v.stop, v.streams)) :=
  foldl_keep (fun s : State => (s.ctx k).inv.map (fun v => (v.stop, v.streams))) _ (fun b ck => (checkValue_spec b c a o r _ _ ck k).2) _ _

/-! ### Tile writes -/

/-- What a tile write leaves as it was: everything but its tile, two counters and the suspect log. -/
structure TileKeep (s t : State) : Prop where
  mem    : t.mem = s.mem
  lpmem  : t.lpmem = s.lpmem
  arrays : t.arrays = s.arrays
  ops    : t.ops = s.ops
  chain  : t.chain = s.chain
  inv    : ∀ k, (t.ctx k).inv = (s.ctx k).inv

theorem TileKeep.rfl' (s : State) : TileKeep s s := ⟨rfl, rfl, rfl, rfl, rfl, fun _ => rfl⟩
theorem TileKeep.trans {s t u : State} (h : TileKeep s t) (g : TileKeep t u) : TileKeep s u :=
  ⟨g.mem.trans h.mem, g.lpmem.trans h.lpmem, g.arrays.trans h.arrays, g.ops.trans h.ops, g.chain.trans h.chain, fun k => (g.inv k).trans (h.inv k)⟩

theorem logWrite_tileKeep (s : State) (ctx u c tile : Nat) : TileKeep s (s.logWrite ctx u c tile) := by
  refine ⟨by simp, by simp, by simp, by simp, by simp, fun k => ?_⟩
  unfold State.logWrite
  simp only [State.modCtx_eq, State.ctx_setCtx]
  split
  · rename_i h; subst h
    split
    · rfl
    · split
      · split <;> rfl
      · rfl
  · rfl

theorem logOp_tileKeep (s : State) (o : Op) (u c tile : Nat) : TileKeep s (s.logOp o u c tile) :=
  (logWrite_tileKeep _ _ _ _ _).trans (logWrite_tileKeep _ _ _ _ _)

theorem writeTile_tileKeep {s t : State} {o : Op} {c k : Nat} {add : Bool} {vs : List (Option FVal)} {rng : Nat} {co cl : Bool}
    (h : s.writeTile o c k add vs rng co cl = some t) : TileKeep s t := by
  unfold State.writeTile at h
  dsimp only at h
  split at h
  · cases h
  · cases h
    exact TileKeep.trans (t := (((s.setTile (tkey c k) (tileWrite (s.tile (tkey c k)) add vs rng co cl).1).bump .acc c 0x74 _).bump .acc c 0x78 _))
      ⟨by simp, by simp, by simp, by simp, by simp, fun k => by simp⟩ (logOp_tileKeep _ _ _ _ _)

/-- A tile write leaves its tile as `tileWrite` computes it, and every other tile as it was. -/
theorem writeTile_tile {s t : State} {o : Op} {c k : Nat} {add : Bool} {vs : List (Option FVal)} {rng : Nat} {co cl : Bool}
    (h : s.writeTile o c k add vs rng co cl = some t) (j : Nat) :
    t.tile j = if j = tkey c k then (tileWrite (s.tile (tkey c k)) add vs rng co cl).1 else s.tile j := by
  unfold State.writeTile at h
  dsimp only at h
  split at h
  · cases h
  · cases h; simp

theorem writeGroups_tileKeep {c a : Nat} {o : Op} {r : VecRes} (n : Nat) : ∀ {s t : State}, s.writeGroups c a o r n = some t → TileKeep s t := by
  induction n with
  | zero => intro s t h; cases h; exact TileKeep.rfl' _
  | succ n ih =>
    intro s t h
    unfold State.writeGroups at h
    split at h
    · cases h
    · rename_i u hu
      simp only [Option.map_eq_some_iff] at h
      obtain ⟨x, hx, rfl⟩ := h
      exact ((ih hu).trans (writeTile_tileKeep hx)).trans (logWrite_tileKeep _ _ _ _ _)

theorem setChain_tileKeep (s : State) (c ix : Nat) (x : Chain) : TileKeep s (s.setChain c ix x) := by
  unfold State.setChain; exact ⟨by simp, by simp, by simp, by simp, by simp, fun k => by simp⟩

theorem chainResult_tileKeep {s t : State} {c u : Nat} {o : Op} {ix : Nat} {r : VecRes} (h : s.chainResult c u o ix r = some t) : TileKeep s t := by
  unfold State.chainResult at h
  dsimp only at h
  split at h
  · simp only [Option.map_eq_some_iff] at h
    obtain ⟨x, hx, rfl⟩ := h
    exact ((logWrite_tileKeep _ _ _ _ _).trans (writeTile_tileKeep hx)).trans (setChain_tileKeep _ _ _ _)
  · cases h; exact (logWrite_tileKeep _ _ _ _ _).trans (setChain_tileKeep _ _ _ _)

/-- A stop through `stopOp` of a state whose invocations' stops and streams are those of `s`. -/
theorem stopOp_stops' {s u : State} {o : Op} {c : Code}
    (hc : ∀ k, (u.ctx k).inv.map (fun v => (v.stop, v.streams)) = (s.ctx k).inv.map (fun v => (v.stop, v.streams))) : StopsOp o c s (u.stopOp o c) := by
  refine ⟨stopOp_left _ _ _, fun v hv => ?_⟩
  have h0 := hc o.ctx
  rw [hv] at h0
  obtain ⟨v1, g1, g2⟩ := Option.map_eq_some_iff.mp h0
  have g3 : v1.stop = v.stop := (Prod.mk.inj g2).1
  have g4 : v1.streams = v.streams := (Prod.mk.inj g2).2
  obtain ⟨v', h1, h2⟩ := dropOp_stop (o := o) (stopAt_stops u o.ctx o.stream c v1 g1)
  refine ⟨v', h1, ?_⟩
  rw [h2, g3]
  by_cases hs : v.stop.isSome
  · simp [hs, g3]
  · simp [hs, State.stream, g1, hv, g4]

/-! ### Reads of equal memory -/

theorem engRead_congr {s u : State} (h : u.mem = s.mem) (g : u.lpmem = s.lpmem) (a n : Nat) : u.engRead a n = s.engRead a n := by
  unfold State.engRead; rw [h, g]
theorem badIn_congr {s u : State} (h : u.parBad = s.parBad) (g : u.lpBad = s.lpBad) (a n : Nat) : u.badIn a n = s.badIn a n := by
  unfold State.badIn; rw [h, g]
theorem profile_congr {s u : State} (h : ∀ c, u.clu c = s.clu c) (c p : Nat) : u.profile c p = s.profile c p := by
  unfold State.profile; rw [h]
/-- A read changes no entry of a tile. -/
theorem readTile_ent (s : State) (c t n j : Nat) : ((s.readTile c t n).tile j).ent = (s.tile j).ent := by
  unfold State.readTile; dsimp only; split
  · rfl
  · simp; split <;> simp [*]

/-! ### What memory reads as -/

theorem sameMemory_rfl (s : State) : SameMemory s s := ⟨fun _ => rfl, fun _ => rfl⟩
theorem sameMemory_of {s t : State} (h : t.mem = s.mem) (g : t.lpmem = s.lpmem) : SameMemory s t :=
  ⟨fun a => by unfold State.memByte; rw [h], fun a => by unfold State.lpByte; rw [g]⟩
theorem sameMemory_engWrite {s u : State} (a : Nat) (bs : List Byte) (h : u.mem = s.mem) (g : u.lpmem = s.lpmem) :
    SameMemory (s.engWrite a bs) (u.engWrite a bs) :=
  sameMemory_of (engWrite_mem_congr a bs h) (engWrite_lpmem_congr a bs g)
theorem sameMemory_retire {s t : State} (o : Op) (h : SameMemory s t) : SameMemory s (t.retire o) :=
  ⟨fun a => by rw [State.retire_memByte_keep, h.1], fun a => by rw [State.retire_lpByte_keep, h.2]⟩

theorem sameMemory_trans {a b c : State} (h : SameMemory a b) (g : SameMemory b c) : SameMemory a c :=
  ⟨fun x => (g.1 x).trans (h.1 x), fun x => (g.2 x).trans (h.2 x)⟩

end Sys2Proof.Machine
end

