-- ==== Sys2Proof/Laws/Commands.lean ====
section
/-!
SUPPORT. Sys2Proof/Laws/Commands.lean: what the shared operations of the commands leave unchanged: completing, counting, checked writes, host writes, lists of cells.
-/
open Sys2Proof Sys2Proof.Machine
set_option maxRecDepth 4000

namespace Sys2Proof.Machine

theorem gives {c : Instr} {s t : State} {P : State → Prop} (h : exec c s = .next t) (hp : P t) : Gives c s P := ⟨t, h, hp⟩
theorem begin_act {s : State} {e : Entry} {op : Nat} (h : Begins s e op) (act : State → State) : s.begin e op act = act (s.marked e) := by
  have h2 : (s.marked e).accepted e = s.accepted e := rfl
  unfold State.begin
  rw [if_pos h.1]; dsimp only
  rw [h2, if_pos h.2]
@[simp] theorem ctx_marked (s : State) (e : Entry) (k : Nat) : (s.marked e).ctx k = s.ctx k := rfl
@[simp] theorem rd_marked (s : State) (e : Entry) (k : Nat) : (s.marked e).rd k = s.rd k := rfl
@[simp] theorem arr_marked (s : State) (e : Entry) (k : Nat) : (s.marked e).arr k = s.arr k := rfl
@[simp] theorem memByte_marked (s : State) (e : Entry) (k : Nat) : (s.marked e).memByte k = s.memByte k := rfl
@[simp] theorem lpByte_marked (s : State) (e : Entry) (k : Nat) : (s.marked e).lpByte k = s.lpByte k := rfl
theorem reg_bump64_other (s : State) (t : PType) (i o n k : Nat) (h : k ≠ o) (h' : k ≠ o + 4) : (s.bump64 t i o n).reg t i k = s.reg t i k := by
  rw [State.reg_eq, State.reg_eq, State.rd_bump64_other _ _ _ _ _ _ (by unfold rOff; omega) (by unfold rOff; omega)]
theorem reg_bump_other (s : State) (t : PType) (i o n k : Nat) (h : k ≠ o) : (s.bump t i o n).reg t i k = s.reg t i k := by
  rw [State.reg_eq, State.reg_eq, State.rd_bump_other _ _ _ _ _ _ (by unfold rOff; omega)]
theorem reg64_bump64_other (s : State) (t : PType) (i o n k : Nat) (h : k ≠ o) (h1 : k ≠ o + 4) (h2 : k + 4 ≠ o) : (s.bump64 t i o n).reg64 t i k = s.reg64 t i k := by
  rw [State.reg64_eq, State.reg64_eq]; unfold State.rd64
  rw [State.rd_bump64_other _ _ _ _ _ _ (by unfold rOff; omega) (by unfold rOff; omega), State.rd_bump64_other _ _ _ _ _ _ (by unfold rOff; omega) (by unfold rOff; omega)]
theorem reg64_bump_other (s : State) (t : PType) (i o n k : Nat) (h : k ≠ o) (h2 : k + 4 ≠ o) : (s.bump t i o n).reg64 t i k = s.reg64 t i k := by
  rw [State.reg64_eq, State.reg64_eq]; unfold State.rd64
  rw [State.rd_bump_other _ _ _ _ _ _ (by unfold rOff; omega), State.rd_bump_other _ _ _ _ _ _ (by unfold rOff; omega)]
theorem reg64_bump64_same (s : State) (t : PType) (i o n : Nat) (h : n ≠ 0) : (s.bump64 t i o n).reg64 t i o = satNat 64 (s.reg64 t i o + n) := by
  rw [State.reg64_eq, State.rd64_bump64_same, if_neg h]; rfl
theorem reg_bump_same (s : State) (t : PType) (i o n : Nat) (h : n ≠ 0) : (s.bump t i o n).reg t i o = satNat 32 (s.reg t i o + n) := by
  rw [State.reg_eq, State.rd_bump_same, if_neg h]; rfl
theorem cfgAdvance_keep {β : Type} (g : State → β) (h1 : ∀ s x, g (State.withCfg s x) = g s) (h2 : ∀ s x, g (State.withChain s x) = g s) (s : State) : g s.cfgAdvance = g s := by
  unfold State.cfgAdvance; dsimp only; split
  · exact (h2 _ _).trans (h1 _ _)
  · exact h1 _ _
theorem regPut_spec {s : State} {off v : Nat} {t : PType} {i b : Nat} {r : Reg} (h1 : pageAt (off / 4096) = some (t, i))
    (h2 : findReg t (off % 4096) = some (r, b)) (h3 : r.wide = false) (h4 : (r.acc == .wo || r.acc == .ro) = false) :
    s.regPut off v = s.wr off v ∨ s.regPut off v = (s.wr off v).cfgAdvance := by
  unfold State.regPut
  rw [h1]; dsimp only; rw [h2]; dsimp only; rw [h4, h3]
  simp only [Bool.false_eq_true, if_false]
  split <;> simp
theorem regPut_keep {β : Type} (g : State → β) (h1 : ∀ s x, g (State.withCfg s x) = g s) (h2 : ∀ s x, g (State.withChain s x) = g s)
    (h3 : ∀ s o v, g (State.wr s o v) = g s) (h4 : ∀ s p f, g (State.modPage s p f) = g s) (s : State) (off v : Nat) : g (s.regPut off v) = g s := by
  unfold State.regPut
  have h5 : ∀ s o v, g (State.put64 s o v) = g s := fun s o v => by unfold State.put64; rw [h3, h3]
  split
  · rfl
  · split
    · rfl
    · split
      · rfl
      · dsimp only
        repeat' split
        all_goals first | rfl | (rw [cfgAdvance_keep g h1 h2]; first | exact h5 _ _ _ | exact h3 _ _ _) | exact h5 _ _ _ | exact h3 _ _ _
theorem regPut_mem (s : State) (off v : Nat) : SameMemory s (s.regPut off v) :=
  ⟨fun a => regPut_keep (fun s => s.memByte a) (fun _ _ => rfl) (fun _ _ => rfl) (fun _ _ _ => rfl) (fun _ _ _ => rfl) s off v,
   fun a => regPut_keep (fun s => s.lpByte a) (fun _ _ => rfl) (fun _ _ => rfl) (fun _ _ _ => rfl) (fun _ _ _ => rfl) s off v⟩
theorem regPut_rd {s : State} {off v : Nat} {t : PType} {i b : Nat} {r : Reg} (h1 : pageAt (off / 4096) = some (t, i))
    (h2 : findReg t (off % 4096) = some (r, b)) (h3 : r.wide = false) (h4 : (r.acc == .wo || r.acc == .ro) = false) (k : Nat) :
    (s.regPut off v).rd k = if k = off then v % 2 ^ 32 else s.rd k := by
  rcases regPut_spec (s := s) (v := v) h1 h2 h3 h4 with h | h <;> rw [h]
  · exact State.rd_wr _ _ _ _
  · rw [cfgAdvance_keep (fun s => s.rd k) (fun _ _ => rfl) (fun _ _ => rfl)]; exact State.rd_wr _ _ _ _
theorem regWrite_ok {s : State} {off v : Nat} {lock : Bool} {st : List (Bool × Code)} {act : State → State} (h1 : s.regBad off v = none)
    (h2 : lock = false) (h3 : firstBad st = none) : s.regWrite off v lock st act = act s := by
  unfold State.regWrite; rw [h1, h2]; simp [h3]
/-- The offset holds a 32-bit register that a checked write stores. -/
def plainReg (off : Nat) : Bool :=
  match pageAt (off / 4096) with
  | none => false
  | some (t, _) => match findReg t (off % 4096) with | none => false | some (r, _) => !r.wide && !(r.acc == .wo || r.acc == .ro)
theorem regPut_plain {s : State} {off v : Nat} (h : plainReg off = true) (k : Nat) : (s.regPut off v).rd k = if k = off then v % 2 ^ 32 else s.rd k := by
  unfold plainReg at h
  split at h
  · cases h
  · rename_i t i h1
    split at h
    · cases h
    · rename_i r b h2
      simp only [Bool.and_eq_true, Bool.not_eq_true'] at h
      exact regPut_rd h1 h2 h.1 h.2 k
theorem bump_keep {β : Type} (g : State → β) (h3 : ∀ s o v, g (State.wr s o v) = g s) (s : State) (t : PType) (i o n : Nat) : g (s.bump t i o n) = g s := by
  unfold State.bump; split
  · rfl
  · exact h3 _ _ _
theorem bump64_keep {β : Type} (g : State → β) (h3 : ∀ s o v, g (State.wr s o v) = g s) (h4 : ∀ s p f, g (State.modPage s p f) = g s) (s : State) (t : PType) (i o n : Nat) : g (s.bump64 t i o n) = g s := by
  unfold State.bump64; split
  · rfl
  · unfold State.setReg64 State.wr64 State.put64; rw [h4, h3, h3]
theorem hostWrite_keep {β : Type} (g : State → β) (h : ∀ s x, g (State.withHost s x) = g s) (s : State) (a : Nat) (bs : List Byte) : g (s.hostWrite a bs) = g s := by
  unfold State.hostWrite; split
  · exact h _ _
  · rfl
theorem complete_keep {β : Type} (g : State → β) (hq : ∀ s q f, g (State.modQueue s q f) = g s) (hh : ∀ s x, g (State.withHost s x) = g s)
    (hw : ∀ s o v, g (State.wr s o v) = g s) (hp : ∀ s p f, g (State.modPage s p f) = g s) (s : State) (e : Entry) (c : Code) (r0 r1 fl gn : Nat) :
    g (s.complete e c r0 r1 fl gn) = g s := by
  unfold State.complete
  split
  · rfl
  · dsimp only
    split
    · exact hq _ _ _
    · rw [bump64_keep g hw hp, hq, State.setReg_eq, hw, hostWrite_keep g hh, hq]
theorem complete_mem (s : State) (e : Entry) (c : Code) (r0 r1 fl gn : Nat) : SameMemory s (s.complete e c r0 r1 fl gn) :=
  ⟨fun a => complete_keep (fun s => s.memByte a) (fun _ _ _ => rfl) (fun _ _ => rfl) (fun _ _ _ => rfl) (fun _ _ _ => rfl) s e c r0 r1 fl gn,
   fun a => complete_keep (fun s => s.lpByte a) (fun _ _ _ => rfl) (fun _ _ => rfl) (fun _ _ _ => rfl) (fun _ _ _ => rfl) s e c r0 r1 fl gn⟩
theorem complete_ctx (s : State) (e : Entry) (c : Code) (r0 r1 fl gn k : Nat) : (s.complete e c r0 r1 fl gn).ctx k = s.ctx k :=
  complete_keep (fun s => s.ctx k) (fun _ _ _ => rfl) (fun _ _ => rfl) (fun _ _ _ => rfl) (fun _ _ _ => rfl) s e c r0 r1 fl gn
theorem fget_append {α : Type} (d : α) (a b : FMap α) (k : Nat) (h : ∀ p ∈ a, p.1 ≠ k) : FMap.get d (a ++ b) k = FMap.get d b k := by
  induction a with
  | nil => rfl
  | cons p a ih =>
    obtain ⟨j, v⟩ := p
    rw [List.cons_append, FMap.get, if_neg (fun hk => h (j, v) (List.mem_cons_self ..) hk.symm), ih (fun q hq => h q (List.mem_cons_of_mem _ hq))]
theorem fget_append_some {α : Type} (d : α) (a b : FMap α) (k : Nat) (h : ∀ p ∈ b, p.1 ≠ k) : FMap.get d (a ++ b) k = FMap.get d a k := by
  induction a with
  | nil =>
    induction b with
    | nil => rfl
    | cons p b ih =>
      obtain ⟨j, v⟩ := p
      rw [List.nil_append, FMap.get, FMap.get, if_neg (fun hk => h (j, v) (List.mem_cons_self ..) hk.symm)]
      exact ih (fun q hq => h q (List.mem_cons_of_mem _ hq))
  | cons p a ih =>
    obtain ⟨j, v⟩ := p
    rw [List.cons_append, FMap.get, FMap.get, ih]
theorem fget_filter {α : Type} (d : α) (q : Nat → Bool) (m : FMap α) (k : Nat) (h : q k = true) : FMap.get d (m.filter (fun p => q p.1)) k = FMap.get d m k := by
  induction m with
  | nil => rfl
  | cons p m ih =>
    obtain ⟨j, v⟩ := p
    rw [List.filter_cons]
    by_cases hj : k = j
    · subst hj; simp only [h, if_true]; rw [FMap.get, FMap.get, if_pos rfl, if_pos rfl]
    · split
      · rw [FMap.get, FMap.get, if_neg hj, if_neg hj, ih]
      · rw [FMap.get, if_neg hj, ih]
theorem fget_run (d b : Byte) (a n k : Nat) (h1 : a ≤ k) (h2 : k < a + n) : FMap.get d ((List.range n).map (fun i => (a + i, b))) k = b := by
  induction n with
  | zero => omega
  | succ n ih =>
    rw [List.range_succ, List.map_append]
    by_cases hk : k < a + n
    · rw [fget_append_some]
      · exact ih hk
      · intro p hp; simp at hp; subst hp; simp; omega
    · have : k = a + n := by omega
      subst this
      rw [fget_append]
      · simp [FMap.get]
      · intro p hp; simp at hp; obtain ⟨i, hi, rfl⟩ := hp; simp; omega
theorem get_fillBytes (m : FMap Byte) (a n : Nat) (b : Byte) (hb : b ≠ 0) (k : Nat) :
    FMap.get 0 (fillBytes 0 m a n b) k = if a ≤ k ∧ k < a + n then b else FMap.get 0 m k := by
  unfold fillBytes
  rw [if_neg hb]
  by_cases h : a ≤ k ∧ k < a + n
  · rw [if_pos h, fget_append_some, fget_append]
    · exact fget_run 0 b a n k h.1 h.2
    · intro p hp; simp at hp; omega
    · intro p hp; simp at hp; omega
  · rw [if_neg h]
    by_cases h1 : k < a
    · rw [fget_append_some, fget_append_some]
      · exact fget_filter 0 (fun k => decide (k < a)) m k (by simpa using h1)
      · intro p hp; simp at hp; obtain ⟨i, hi, rfl⟩ := hp; simp; omega
      · intro p hp; simp at hp; omega
    · rw [fget_append]
      · exact fget_filter 0 (fun k => decide (a + n ≤ k)) m k (by simp; omega)
      · intro p hp; simp at hp; rcases hp with hp | ⟨i, hi, rfl⟩
        · omega
        · simp; omega
theorem memByte_fillMem (s : State) (a n : Nat) (b : Byte) (hb : b ≠ 0) (k : Nat) : (s.fillMem a n b).memByte k = if a ≤ k ∧ k < a + n then b else s.memByte k :=
  get_fillBytes s.mem a n b hb k

end Sys2Proof.Machine
end

