-- ==== Sys2Proof/Laws/Streams.lean ====
section
/-!
SUPPORT. Sys2Proof/Laws/Streams.lean: issuing an instruction, and the ends of the operations it starts.
-/
open Sys2Proof Sys2Proof.Machine
set_option maxRecDepth 4000

namespace Sys2Proof.Machine

theorem zero_keep (o : Op) (c : Nat) (l : List Nat) : ∀ s : State,
   let t := l.foldl (fun s t => (s.modTile (tkey c t) (fun x => { x with ent := [], coarse := false, clip := false, sat := false })).logOp o (uClu c) c t) s
   t.mem = s.mem ∧ t.lpmem = s.lpmem ∧ (∀ j, (∀ k ∈ l, j ≠ tkey c k) → t.tile j = s.tile j) ∧
   ∀ k ∈ l, t.tile (tkey c k) = { s.tile (tkey c k) with ent := [], coarse := false, clip := false, sat := false } := by
  induction l with
  | nil => intro s; exact ⟨rfl, rfl, fun _ _ => rfl, fun k h => absurd h (by simp)⟩
  | cons a r ih =>
    intro s
    simp only [List.foldl_cons]
    generalize hu : (s.modTile (tkey c a) (fun x => { x with ent := [], coarse := false, clip := false, sat := false })).logOp o (uClu c) c a = u
    obtain ⟨g1, g2, g3, g4⟩ := ih u
    have k1 : ∀ j, u.tile j = if j = tkey c a then { s.tile (tkey c a) with ent := [], coarse := false, clip := false, sat := false } else s.tile j := by
      intro j; rw [← hu]; simp
    refine ⟨by rw [g1, ← hu]; simp, by rw [g2, ← hu]; simp, fun j hj => ?_, fun k hk => ?_⟩
    · rw [g3 j (fun k hk => hj k (by simp [hk])), k1, if_neg (hj a (by simp))]
    · by_cases hkr : k ∈ r
      · rw [g4 k hkr, k1]; split <;> simp [*]
      · have : k = a := by simpa [hkr] using hk
        subst this
        by_cases hx : ∀ m ∈ r, tkey c k ≠ tkey c m
        · rw [g3 _ hx, k1, if_pos rfl]
        · push Not at hx
          obtain ⟨m, hm, he⟩ := hx
          rw [he, g4 m hm, ← he, k1, if_pos rfl]
theorem restore_keep (o : Op) (c : Nat) (im : List Byte) (l : List Nat) : ∀ (s : State) (n : Nat),
   let t := s.restoreTiles o c im l n
   t.mem = s.mem ∧ t.lpmem = s.lpmem ∧ (∀ j, (∀ k ∈ l, j ≠ tkey c k) → t.tile j = s.tile j) ∧
   (l.Nodup → ∀ k x, nth 0 l k = x → k < l.length → t.tile (tkey c x) = tileFrom (s.tile (tkey c x)) (sliceB im (64 + 1296 * (n + k)) 1296)) := by
  induction l with
  | nil => intro s n; exact ⟨rfl, rfl, fun _ _ => rfl, fun _ k x _ h => absurd h (by simp)⟩
  | cons a r ih =>
    intro s n
    simp only [State.restoreTiles]
    generalize hu : (s.modTile (tkey c a) (fun x => tileFrom x (sliceB im (64 + 1296 * n) 1296))).logOp o (uClu c) c a = u
    obtain ⟨g1, g2, g3, g4⟩ := ih u (n + 1)
    have k1 : ∀ j, u.tile j = if j = tkey c a then tileFrom (s.tile (tkey c a)) (sliceB im (64 + 1296 * n) 1296) else s.tile j := by
      intro j; rw [← hu]; simp
    refine ⟨by rw [g1, ← hu]; simp, by rw [g2, ← hu]; simp, fun j hj => ?_, fun hn k x hx hk => ?_⟩
    · rw [g3 j (fun k hk => hj k (by simp [hk])), k1, if_neg (hj a (by simp))]
    · have hn' := List.nodup_cons.mp hn
      have inj : ∀ y, tkey c y = tkey c a → y = a := by intro y hy; unfold tkey at hy; omega
      cases k with
      | zero =>
        have : x = a := by simpa [nth] using hx.symm
        subst this
        rw [g3 _ (fun m hm he => hn'.1 (by rw [← inj m he.symm]; exact hm)), k1, if_pos rfl]
        rfl
      | succ k =>
        have hx' : nth 0 r k = x := by simpa [nth] using hx
        have hk' : k < r.length := by simpa using hk
        have hm : x ∈ r := by
          rw [← hx']
          clear ih g1 g2 g3 g4 k1 hu hn hn' hx hk hx' 
          induction r generalizing k with
          | nil => simp at hk'
          | cons b r ih => cases k with
            | zero => simp [nth]
            | succ k => simp only [nth, List.mem_cons]; exact Or.inr (ih k (by simpa using hk'))
        rw [g4 hn'.2 k x hx' hk', k1, if_neg (fun he => hn'.1 (by rw [← inj x he]; exact hm))]
        congr 3; omega
theorem proofTiles_tileKeep (c : Nat) (o : Op) (vals : List (List (Option FVal))) : ∀ (s : State) (ix : Nat), TileKeep s (s.proofTiles c o ix vals).1 := by
  induction vals with
  | nil => intro s ix; exact TileKeep.rfl' s
  | cons a r ih =>
    intro s ix
    unfold State.proofTiles
    dsimp only
    split
    · exact TileKeep.rfl' s
    · rename_i u hu; exact (writeTile_tileKeep hu).trans (ih u (ix + 1))
/-- Tiles written through equal tiles are equal. -/
theorem proofTiles_congr (c : Nat) (o : Op) (vals : List (List (Option FVal))) : ∀ (s u : State) (ix : Nat), (∀ j, s.tile j = u.tile j) → 
    (s.proofTiles c o ix vals).2 = (u.proofTiles c o ix vals).2 ∧ ∀ j, (s.proofTiles c o ix vals).1.tile j = (u.proofTiles c o ix vals).1.tile j := by
  induction vals with
  | nil => intro s u ix h; exact ⟨rfl, h⟩
  | cons a r ih =>
    intro s u ix h
    unfold State.proofTiles
    dsimp only
    cases h1 : s.writeTile o c (nth 0 o.tiles ix) (wAdd o.word) a (lfsrSkip (4096 * ix) o.rng) false false with
    | none =>
      have : u.writeTile o c (nth 0 o.tiles ix) (wAdd o.word) a (lfsrSkip (4096 * ix) o.rng) false false = none := by
        unfold State.writeTile at h1 ⊢
        dsimp only at h1 ⊢
        rw [h] at h1
        split at h1
        · rename_i hh; rw [if_pos hh]
        · cases h1
      rw [this]; exact ⟨rfl, h⟩
    | some s1 =>
      have : ∃ u1, u.writeTile o c (nth 0 o.tiles ix) (wAdd o.word) a (lfsrSkip (4096 * ix) o.rng) false false = some u1 := by
        unfold State.writeTile at h1 ⊢
        dsimp only at h1 ⊢
        rw [h] at h1
        split at h1
        · cases h1
        · rename_i hh; rw [if_neg hh]; exact ⟨_, rfl⟩
      obtain ⟨u1, h2⟩ := this
      rw [h2]
      dsimp only
      exact ih s1 u1 (ix + 1) (fun j => by rw [writeTile_tile h1, writeTile_tile h2, h, h])
theorem finish_spec {s u x : State} {c : Nat} {o : Op} {vals : List (List (Option FVal))} (work : Nat) 
    (h1 : ∀ j, x.tile j = u.tile j) (h3 : ∀ k, (x.ctx k).inv = (s.ctx k).inv) :
    SameMemory x (x.proofFinish c o vals work) ∧
      match (u.proofTiles c o 0 vals).2 with
      | none => Left o (x.proofFinish c o vals work) ∧ ∀ j, (x.proofFinish c o vals work).tile j = (u.proofTiles c o 0 vals).1.tile j
      | some _ => StopsOp o .parity s (x.proofFinish c o vals work) := by
  obtain ⟨g1, g2⟩ := proofTiles_congr c o vals x u 0 h1
  have k := proofTiles_tileKeep c o vals x 0
  unfold State.proofFinish
  dsimp only
  rw [← g1]
  generalize x.proofTiles c o 0 vals = r at *
  cases hr : r.2 with
  | none =>
    dsimp only
    exact ⟨sameMemory_of (by simp [State.proofDone, k.mem]) (by simp [State.proofDone, k.lpmem]), retire_left _ _, fun j => by simp [State.proofDone, g2]⟩
  | some t =>
    dsimp only
    exact ⟨sameMemory_of (by simp [k.mem]) (by simp [k.lpmem]), stopOp_stops' (fun y => by simp [k.inv, h3])⟩
theorem spillRun_eq {u : State} {c : Nat} {o : Op} {a : SpillWork}
    (h5 : u.blockedAny [(a.base, a.n), (o.a1, (a.nv * a.G - 1) * a.str + a.rows)] = none) (h6 : u.badIn a.base a.n = none) (h7 : u.spillBadIn o a = none)
    (h4 : o.chainIx = none) : u.spillRun c o a = (u.bump64 .prf c 0x60 a.nv).proofFinish c o a.vals a.work := by
  unfold State.spillRun
  rw [h5]; dsimp only; rw [h6]; dsimp only; rw [h7]; dsimp only
  unfold State.spillDeliver
  dsimp only
  rw [h4]
theorem spilled_eq {u : State} {c : Nat} {o : Op} {a : SpillWork} (ha : u.spillWork o = a)
    (h5 : u.blockedAny [(a.base, a.n), (o.a1, (a.nv * a.G - 1) * a.str + a.rows)] = none) (h6 : u.badIn a.base a.n = none) (h7 : u.spillBadIn o a = none)
    (h4 : o.chainIx = none) : u.runSpilled c o = (u.bump64 .prf c 0x60 a.nv).proofFinish c o a.vals a.work := by
  have : u.runSpilled c o = u.spillRun c o (u.spillWork o) := State.runSpilled.eq_1 _ _ _
  rw [this, ha]; exact spillRun_eq h5 h6 h7 h4
theorem foldWrite_congr (l : List (Nat × List Byte)) : ∀ (s u : State), u.mem = s.mem → u.lpmem = s.lpmem →
   (l.foldl (fun s p => s.engWrite p.1 p.2) u).mem = (l.foldl (fun s p => s.engWrite p.1 p.2) s).mem ∧ (l.foldl (fun s p => s.engWrite p.1 p.2) u).lpmem = (l.foldl (fun s p => s.engWrite p.1 p.2) s).lpmem := by
  induction l with
  | nil => intro s u h g; exact ⟨h, g⟩
  | cons a r ih => intro s u h g; exact ih _ _ (engWrite_mem_congr _ _ h) (engWrite_lpmem_congr _ _ g)
theorem engRefuse_stops {s u : State} {e : Nat} {o : Op} {c : Code} (hc : ∀ k, u.ctx k = s.ctx k) : StopsOp o c s (u.engRefuse e o c) := by
  unfold State.engRefuse; exact stopOp_stops (fun k => by simp [hc])

end Sys2Proof.Machine
end

