-- ==== Sys2Proof/Laws/Contexts.lean ====
section
/-!
SUPPORT. Sys2Proof/Laws/Contexts.lean: invocations, slots, calibration, contexts, tests, faults and the memory windows.
-/
open Sys2Proof Sys2Proof.Machine
set_option maxRecDepth 4000

namespace Sys2Proof.Machine

theorem startInv_keep {β : Type} (g : State → β) (h1 : ∀ s k x, g (State.setClu s k x) = g s) (h2 : ∀ s k x, g (State.setCtx s k x) = g s)
  (h3 : ∀ s x, g (State.withCarriers s x) = g s) (h4 : ∀ s x, g (State.withInvAll s x) = g s) (s : State) (c : Nat) (t : Trig) : g (s.startInv c t) = g s := by
  unfold State.startInv State.modSlot
  dsimp only
  rw [h4]
  split
  · rw [h3, foldl_keep g _ (fun b a => by rw [State.modClu_eq]; exact h1 _ _ _), State.modCtx_eq, h2]
  · rw [foldl_keep g _ (fun b a => by rw [State.modClu_eq]; exact h1 _ _ _), State.modCtx_eq, h2]
theorem startInv_ctx (s : State) (c : Nat) (t : Trig) : (s.startInv c t).ctx c =
   (let x := s.ctx c
    let num := (x.invoc + 1) % 2 ^ 48
    let v : Inv := { slot := t.slot, entry := t.entry, carrier := t.carrier, slotNum := t.slotNum, num := num, gen := x.active.getD 0
                     gennum := x.gennum, streams := (List.range x.prog.length).map (s.startStream c t num) }
    let le : LogEntry := { invoc := num, all := s.invAll + 1, gennum := x.gennum, trig := if t.slot then t.slotNum else t.entry.tag, slot := t.slot
                           carrier := t.carrier }
    ({ (x.periodNow num) with invoc := num, inv := some v, trigs := x.trigs.drop 1 }).logAdd le) := by
  unfold State.startInv State.modSlot
  dsimp only
  have h4 : ∀ (s : State) x, State.ctx (State.withInvAll s x) c = s.ctx c := fun _ _ => rfl
  have h3 : ∀ (s : State) x, State.ctx (State.withCarriers s x) c = s.ctx c := fun _ _ => rfl
  rw [h4]
  split
  · rw [h3, foldl_keep (fun s => State.ctx s c) _ (fun b a => by simp)]; simp
  · rw [foldl_keep (fun s => State.ctx s c) _ (fun b a => by simp)]; simp
theorem startInv_all (s : State) (c : Nat) (t : Trig) : (s.startInv c t).invAll = s.invAll + 1 := by
  unfold State.startInv State.modSlot
  dsimp only
  rw [State.invAll_withInvAll]
  have h3 : ∀ (s : State) x, (State.withCarriers s x).invAll = s.invAll := fun _ _ => rfl
  split
  · rw [h3, foldl_keep (fun s => State.invAll s) _ (fun b a => by simp)]; rfl
  · rw [foldl_keep (fun s => State.invAll s) _ (fun b a => by simp)]; rfl
theorem drop_lemma (s s' : State) (p cnt reason eaxc : Nat) (hc : cnt < 0xB8) (h1 : 0x78 ≤ cnt) (hr : reason < 65536) :
    (s.drop p cnt reason eaxc).reg .fhp p cnt = satNat 32 (s.reg .fhp p cnt + 1) ∧ (s.drop p cnt reason eaxc).reg .fhp p 0xB8 = reason + eaxc % 65536 * 65536 ∧
    (s.drop p cnt reason eaxc).reg64 .fhp p 0x68 = s.reg64 .fhp p 0x68 := by
  unfold State.drop
  refine ⟨?_, ?_, ?_⟩
  · rw [State.setReg_eq, State.reg_eq, State.rd_wr, if_neg (by unfold rOff; omega), State.rd_bump_same]; simp
  · rw [State.setReg_eq, State.reg_eq, State.rd_wr, if_pos rfl, Nat.shiftLeft_eq]; omega
  · rw [State.setReg_eq, State.reg64_eq, State.reg64_eq]; unfold State.rd64
    rw [State.rd_wr, State.rd_wr, if_neg (by unfold rOff; omega), if_neg (by unfold rOff; omega), State.rd_bump_other _ _ _ _ _ _ (by unfold rOff; omega), State.rd_bump_other _ _ _ _ _ _ (by unfold rOff; omega)]
theorem reg_bump_sat (s : State) (t : PType) (i o n : Nat) : (s.bump t i o n).reg t i o = satNat 32 (s.reg t i o + n) := by
  rw [State.reg_eq, State.reg_eq, State.rd_bump_same]
  split
  · rename_i h
    have : s.rd (rOff t i o) < 2 ^ 32 := by unfold State.rd; exact BitVec.isLt _
    rw [h]; unfold satNat; omega
  · rfl
theorem drop_other (s : State) (p cnt reason eaxc k : Nat) (h : k ≠ cnt) (h2 : k ≠ 0xB8) : (s.drop p cnt reason eaxc).reg .fhp p k = s.reg .fhp p k := by
  unfold State.drop
  rw [State.setReg_eq, State.reg_eq, State.rd_wr, if_neg (by unfold rOff; omega), ← State.reg_eq, reg_bump_other _ _ _ _ _ _ h]
theorem sat32_idem (n : Nat) : satNat 32 (satNat 32 n) = satNat 32 n := by unfold satNat; omega
theorem setRegs_rd (p : Nat) (l : List Nat) : ∀ (s : State) (k : Nat), (l.foldl (fun s o => s.setReg .fhp p o 0) s).rd k = if k ∈ l.map (rOff .fhp p) then 0 else s.rd k := by
  induction l with
  | nil => intro s k; simp
  | cons a l ih =>
    intro s k
    rw [List.foldl_cons, ih]
    simp only [State.setReg_eq, State.rd_wr, List.map_cons, List.mem_cons]
    by_cases h1 : k ∈ l.map (rOff .fhp p)
    · simp [h1]
    · by_cases h2 : k = rOff .fhp p a <;> simp [h1, h2]
theorem setRegs_mem (p : Nat) (l : List Nat) : ∀ (s : State), SameMemory s (l.foldl (fun s o => s.setReg .fhp p o 0) s) := by
  induction l with
  | nil => intro s; exact ⟨fun _ => rfl, fun _ => rfl⟩
  | cons a l ih => intro s; rw [List.foldl_cons]; exact ⟨fun x => (ih _).1 x, fun x => (ih _).2 x⟩
theorem port_modPort (s : State) (p : Nat) (f : Fhp → Fhp) : (s.modPort p f).port p = f (s.port p) := FMap.get_put_same _ _ _ _
theorem sendPause_port (s : State) (p q : Nat) : (s.sendPause p q).port p = { s.port p with sent := (s.port p).sent ++ [q] } := by
  unfold State.sendPause; rw [port_modPort]
  have : (s.bump .fhp p 0xB0 1).port p = s.port p := by unfold State.port; simp
  rw [this]
theorem sendPause_mem (s : State) (p q : Nat) : SameMemory s (s.sendPause p q) := ⟨fun a => by unfold State.sendPause State.modPort; simp, fun a => by unfold State.sendPause State.modPort; simp⟩
theorem sendPause_cnt (s : State) (p q : Nat) : (s.sendPause p q).reg .fhp p 0xB0 = satNat 32 (s.reg .fhp p 0xB0 + 1) := by
  unfold State.sendPause State.modPort; exact reg_bump_same s .fhp p 0xB0 1 (by decide)
theorem portUp_occ (s : State) (p o : Nat) : (s.modPort p (fun x => { x with occ := o })).portUp p = s.portUp p := by
  unfold State.portUp; rw [port_modPort]; rfl
theorem loseIq_keep {β : Type} (g : State → β) (h1 : ∀ s a bs, g (State.memWrite s a bs) = g s) (h2 : ∀ s x, g (State.withFree s x) = g s) (s : State) (b : Nat) (l : Slot) :
    g (s.loseIq b l) = g s := by
  unfold State.loseIq
  refine foldl_keep g _ (fun s x => foldl_keep g _ (fun s i => foldl_keep g _ (fun s j => ?_) _ _) _ _) _ _
  split
  · rfl
  · unfold State.freePrb
    exact foldl_keep g _ (fun s i => by unfold State.freeRe; rw [h2, h1]) _ _
theorem closeSlot_keep {β : Type} (g : State → β) (h1 : ∀ s a bs, g (State.memWrite s a bs) = g s) (h2 : ∀ s x, g (State.withFree s x) = g s)
    (h3 : ∀ s x, g (State.withCarriers s x) = g s) (h4 : ∀ s a b, g (State.setGs s a b) = g s) (h5 : ∀ s o v, g (State.wr s o v) = g s) (s : State) (c n : Nat) :
    g (s.closeSlot c n) = g s := by
  unfold State.closeSlot
  split
  · rfl
  · split
    · rfl
    · dsimp only
      rw [bump_keep g h5]
      split
      · rw [h4, loseIq_keep g h1 h2]; unfold State.modSlot State.modCarrier; rw [h3, h3]
      · unfold State.modSlot State.modCarrier; rw [h3, h3]
theorem carrier_modCarrier (s : State) (c : Nat) (f : Carrier → Carrier) : (s.modCarrier c f).carrier c = f (s.carrier c) := FMap.get_put_same _ _ _ _
theorem s0_assign (s : State) (c : Nat) (l : Slot) (h1 : (s.carrier c).slots.find? (fun l => !l.buf && !l.done) = some l) (h2 : ((s.carrier c).before l.num).any (fun p => !p.ended) = false) (h3 : l.closed = false) :
    exec (.s0BufferAssign c) s = .next (((s.fillMem (s.s0Base c l.num + 0x59A000) eraBytes 0xFF#8).modSlot c l.num (fun l_1 => { l_1 with buf := true, left := symCounts l.ents })).setGs (slotSem c l.num) (leading (symCounts l.ents))) := by
  simp only [exec, execS0BufferAssign]
  simp only [h1, h2, h3]
  rfl
theorem era_in (b sym re : Nat) (h4 : sym < 14) (h5 : re < 3276) : b + 0x59A000 ≤ eraAddr b sym re ∧ eraAddr b sym re + 4 ≤ b + 0x59A000 + eraBytes := by
  unfold eraAddr eraBytes; constructor <;> omega
theorem s0_spec (s : State) (c : Nat) (l : Slot) (b o : Nat) (ho : o < 2 ^ 30) (hb : b < 2 ^ 62) (X : Nat) (hX : ∀ sym re, sym < 14 → re < 3276 → b + o ≤ eraAddr b sym re ∧ eraAddr b sym re + 4 ≤ b + o + eraBytes) :
    let t := (((s.fillMem (b + o) eraBytes 0xFF#8).modSlot c l.num (fun l_1 => { l_1 with buf := true, left := symCounts l.ents })).setGs (slotSem c l.num) X)
    (∀ sym re, sym < 14 → re < 3276 → t.engRead (eraAddr b sym re) 4 = [0xFF#8, 0xFF#8, 0xFF#8, 0xFF#8]) ∧
        (∀ a, (a < b + o ∨ b + o + eraBytes ≤ a) → t.memByte a = s.memByte a) ∧ (∀ a, t.lpByte a = s.lpByte a) ∧
        t.gs (slotSem c l.num) = X ∧ (∀ g, g ≠ slotSem c l.num → t.gs g = s.gs g) ∧ SameRegs s t (fun _ => False) := by
    intro t
    simp only [t]
    have hE2 : eraBytes = 183456 := rfl
    have hm : ∀ (z : State) f n v a, (z = s.fillMem (b + o) eraBytes 0xFF#8) → ((z.modSlot c l.num f).setGs n v).memByte a
        = if b + o ≤ a ∧ a < b + o + eraBytes then 0xFF#8 else s.memByte a := by
      intro z f n v a hz
      rw [← memByte_fillMem s _ _ _ (by decide) a, ← hz]; rfl
    have hE : eraBytes = 183456 := rfl
    have hgs : ∀ g, (s.fillMem (b + o) eraBytes 0xFF#8).gs g = s.gs g := fun _ => rfl
    have hlp : ∀ a, (s.fillMem (b + o) eraBytes 0xFF#8).lpByte a = s.lpByte a := fun _ => rfl
    have hrd : ∀ a, (s.fillMem (b + o) eraBytes 0xFF#8).rd a = s.rd a := fun _ => rfl
    replace hm := fun f n v a => hm _ f n v a rfl
    generalize s.fillMem (b + o) eraBytes 0xFF#8 = z at *
    generalize eraBytes = E at *
    refine ⟨fun sym re h4 h5 => ?_, fun a ha => ?_, hlp, ?_, fun g hg => ?_, fun x _ => hrd x⟩
    · have he : ∀ j, j < 4 → b + o ≤ eraAddr b sym re + j ∧ eraAddr b sym re + j < b + o + E := by
        intro j hj; have := hX sym re h4 h5; omega
      have hlt : ¬ eraAddr b sym re ≥ 2 ^ 63 := by have := (he 0 (by omega)).2; omega
      unfold State.engRead
      rw [if_neg hlt]
      simp only [readBytes]
      have q := fun a => (hm (fun l_1 => { l_1 with buf := true, left := symCounts l.ents }) (slotSem c l.num) X a)
      unfold State.memByte at q
      rw [q, q, q, q]
      rw [if_pos (by have := he 0 (by omega); omega), if_pos (by have := he 1 (by omega); omega), if_pos (by have := he 2 (by omega); omega), if_pos (by have := he 3 (by omega); omega)]
    · rw [hm, if_neg (by omega)]
    · rw [State.gs_setGs, if_pos rfl]
    · rw [State.gs_setGs, if_neg hg]; exact hgs g
theorem egress_exec (s : State) (c : Nat) (l : Slot) (f n : Nat) (r) (h1 : (s.carrier c).slots.find? (fun l => !l.done && !l.egress.isEmpty) = some l) (h2 : l.egress = (f, n) :: r) :
    exec (.egressWrite c) s = .next (s.egressPart c l ((s.s3Buf c l.num).1 + 64 * f) f n r) := by
  show execEgressWrite c s = _
  unfold execEgressWrite; rw [h1]; dsimp only; rw [h2]
theorem egress_none (s : State) (c : Nat) (l : Slot) (a f n : Nat) (r) (h : s.blocked a (64 * n) = none) :
    s.egressPart c l a f n r = ((s.egressOut l.entry a f n).egressBad a (64 * n) l.ctx).modSlot c l.num (fun l => { l with egress := r, high := max l.high (64 * (f + n)) }) := by
  unfold State.egressPart; rw [h]
theorem egress_some (s : State) (c : Nat) (l : Slot) (a f n : Nat) (r) (k) (h : s.blocked a (64 * n) = some k) :
    s.egressPart c l a f n r = s.modSlot c l.num (fun l => { l with egress := [], stop := k.num }) := by
  unfold State.egressPart; rw [h]
theorem arr_fold_keep {β : Type} (p : Arr → β) (f : Arr → Arr) (h : ∀ r, p (f r) = p r) (l : List Nat) (k : Nat) :
    ∀ s : State, p ((l.foldl (fun s k => s.modArr k f) s).arr k) = p (s.arr k) := by
  intro s
  refine foldl_keep (fun s => p (State.arr s k)) _ (fun s j => ?_) l s
  simp only [State.modArr_eq, State.arr_setArr]
  split
  · rename_i h1; rw [h1, h]
  · rfl
theorem runBegin_arr {β : Type} (p : Arr → β) (h : ∀ r : Arr, p { r with readDue := true } = p r) (s : State) (c trig mask k : Nat) : p ((s.runBegin c trig mask).arr k) = p (s.arr k) := by
  unfold State.runBegin State.readsDue
  rw [arr_fold_keep p _ h]; rfl
theorem calTrigger_arr {β : Type} (p : Arr → β) (h : ∀ r : Arr, p { r with readDue := true } = p r) (s : State) (c trig mask k : Nat) : p ((s.calTrigger c trig mask).arr k) = p (s.arr k) := by
  unfold State.calTrigger
  dsimp only
  split
  · rfl
  · split
    · exact runBegin_arr p h _ _ _ _ _
    · split
      · exact runBegin_arr p h _ _ _ _ _
      · split <;> rfl
    · split <;> rfl
    · split <;> rfl
    · rfl
theorem evalTriggers_arr {β : Type} (p : Arr → β) (h : ∀ r : Arr, p { r with readDue := true } = p r) (s : State) (j k : Nat) : p ((s.evalTriggers j).arr k) = p (s.arr k) := by
  unfold State.evalTriggers
  dsimp only
  split
  · rfl
  · split <;> split <;> (try rw [calTrigger_arr p h]) <;> (try rw [calTrigger_arr p h]) <;> (try rfl)
theorem readsDue_keep {β : Type} (g : State → β) (h1 : ∀ s k x, g (State.setArr s k x) = g s) (s : State) (c : Nat) : g (s.readsDue c) = g s := by
  unfold State.readsDue; exact foldl_keep g _ (fun s k => h1 _ _ _) _ _
theorem calTrigger_keep {β : Type} (g : State → β) (h1 : ∀ s k x, g (State.setArr s k x) = g s) (h2 : ∀ s k x, g (State.setCtx s k x) = g s) (s : State) (c trig mask : Nat) : g (s.calTrigger c trig mask) = g s := by
  have hb : ∀ (s : State) c t m, g (s.runBegin c t m) = g s := fun s c t m => by unfold State.runBegin; rw [readsDue_keep g h1]; exact h2 _ _ _
  unfold State.calTrigger
  dsimp only
  split
  · rfl
  · split
    · exact hb _ _ _ _
    · split
      · exact hb _ _ _ _
      · split
        · exact h2 _ _ _
        · rfl
    · split
      · rfl
      · exact h2 _ _ _
    · split
      · rfl
      · exact h2 _ _ _
    · rfl
theorem evalTriggers_keep {β : Type} (g : State → β) (h1 : ∀ s k x, g (State.setArr s k x) = g s) (h2 : ∀ s k x, g (State.setCtx s k x) = g s) (s : State) (k : Nat) : g (s.evalTriggers k) = g s := by
  unfold State.evalTriggers
  dsimp only
  split
  · rfl
  · split <;> split <;> (try rw [calTrigger_keep g h1 h2]) <;> (try rw [calTrigger_keep g h1 h2]) <;> (try rfl)
theorem twin_spec (s : State) (k : Nat) (tw1 tw2 : List Int) :
    (s.twin k tw1 tw2).arr k = { s.arr k with twinfail := !twinOk tw1 && !twinOk tw2 } ∧ SameMemory s (s.twin k tw1 tw2) := by
  unfold State.twin
  dsimp only
  cases h1 : twinOk tw1 <;> cases h2 : twinOk tw2 <;> simp [SameMemory]
theorem driftRead_spec (s : State) (k s0 s1 : Nat) :
    let q := (s.driftRead k s0 s1).arr k
    let r := s.arr k
    q.ref0 = s0 ∧ q.ref1 = s1 ∧ SameMemory s (s.driftRead k s0 s1) ∧
    ((s0 - s1 + (s1 - s0)) * 200 > s0 + s1 → q.refbad = true ∧ q.lq = r.lq ∧ q.age = r.age ∧ q.ratio = r.ratio) ∧
    ((s0 - s1 + (s1 - s0)) * 200 ≤ s0 + s1 → s.sensorFault = true → q.agevalid = false ∧ q.lq = r.lq ∧ q.age = r.age ∧ q.ratio = r.ratio) ∧
    ((s0 - s1 + (s1 - s0)) * 200 ≤ s0 + s1 → s.sensorFault = false →
          q.refbad = false ∧ q.agevalid = true ∧ (q.lq, q.age, q.ratio) = driftOf r s0 s1 s.thm.temp s.free) := by
  intro q r
  have hab : ((s0 : Int) - s1).natAbs = s0 - s1 + (s1 - s0) := by omega
  have hz : (s.setRefs k s0 s1).arr k = { r with ref0 := s0, ref1 := s1, refcnt := satNat 32 (r.refcnt + 1) } := by unfold State.setRefs; simp [r]
  have hm : SameMemory s (s.setRefs k s0 s1) := ⟨fun _ => rfl, fun _ => rfl⟩
  have hsf : (s.setRefs k s0 s1).sensorFault = s.sensorFault := rfl
  have ht : (s.setRefs k s0 s1).thm = s.thm := rfl
  have hf : (s.setRefs k s0 s1).free = s.free := rfl
  have hd : ∀ x y z n, driftOf { r with ref0 := x, ref1 := y, refcnt := z } s0 s1 n s.free = driftOf r s0 s1 n s.free := fun _ _ _ _ => rfl
  simp only [q]
  unfold State.driftRead
  dsimp only
  rw [hz, hsf, ht, hf, hab]
  generalize s.setRefs k s0 s1 = z at *
  by_cases h1 : (s0 - s1 + (s1 - s0)) * 200 > s0 + s1
  · rw [if_pos h1]
    refine ⟨by simp [hz], by simp [hz], ⟨fun a => by simp [hm.1], fun a => by simp [hm.2]⟩, fun _ => by simp [hz, r], fun h => absurd h1 (by omega), fun h => absurd h1 (by omega)⟩
  · rw [if_neg h1]
    cases h2 : s.sensorFault
    · simp only [Bool.false_eq_true, if_false]
      refine ⟨by simp [hz], by simp [hz], ⟨fun a => by simp [hm.1], fun a => by simp [hm.2]⟩, fun h => absurd h h1, fun _ h => absurd h (by simp), fun _ _ => ?_⟩
      simp [hd]
    · simp only [if_true]
      refine ⟨by simp [hz], by simp [hz], ⟨fun a => by simp [hm.1], fun a => by simp [hm.2]⟩, fun h => absurd h h1, fun _ _ => by simp [hz, r], fun _ h => absurd h (by simp)⟩
theorem trims_get (trims : List (Int × Int)) (n q : Nat) : FMap.get {} ((List.range n).foldl (fun m q => FMap.put {} m q (trimOf (nth (0, 0) trims q))) []) q
    = if q < n then trimOf (nth (0, 0) trims q) else {} := by
  induction n with
  | zero => rfl
  | succ n ih =>
    rw [List.range_succ, List.foldl_append, List.foldl_cons, List.foldl_nil, FMap.get_put, ih]
    by_cases h : q = n
    · subst h; simp
    · rw [if_neg h]
      by_cases h2 : q < n
      · rw [if_pos h2, if_pos (by omega)]
      · rw [if_neg h2, if_neg (by omega)]
theorem readDue_other (k : Nat) : ∀ (M : List Nat) (z : State), k ∉ M → (M.foldl (fun s k => s.modArr k (fun r => { r with readDue := true })) z).arr k = z.arr k := by
  intro M
  induction M with
  | nil => intro z _; rfl
  | cons m M ih2 =>
    intro z hm
    rw [List.foldl_cons, ih2 _ (fun h => hm (List.mem_cons_of_mem _ h))]
    have : k ≠ m := fun h => hm (h ▸ List.mem_cons_self ..)
    simp [this]
theorem readDue_fold (k : Nat) : ∀ (L : List Nat), k ∈ L → ∀ z : State, ((L.foldl (fun s k => s.modArr k (fun r => { r with readDue := true })) z).arr k).readDue = true := by
  intro L
  induction L with
  | nil => intro h; cases h
  | cons j L ih =>
    intro hk z
    rw [List.foldl_cons]
    by_cases hL : k ∈ L
    · exact ih hL _
    · rcases List.mem_cons.1 hk with rfl | h
      · rw [readDue_other _ _ _ hL]; simp
      · exact absurd h hL
theorem fold_put {α : Type} [DecidableEq α] (d : α) (key : Nat → Nat) (val : Nat → α) (hk : ∀ i j, key i = key j → i = j) (n : Nat) (m : FMap α) (x : Nat) :
    FMap.get d (((List.range n).foldl (fun m i => FMap.put d m (key i) (val i)) m)) x = if ∃ i, i < n ∧ key i = x then (match (List.range n).find? (fun i => key i == x) with | some i => val i | none => d) else FMap.get d m x := by
  induction n with
  | zero => simp
  | succ n ih =>
    rw [List.range_succ, List.foldl_append, List.foldl_cons, List.foldl_nil, FMap.get_put, ih, List.find?_append]
    by_cases h : x = key n
    · subst h
      rw [if_pos rfl, if_pos ⟨n, by omega, rfl⟩]
      have : (List.range n).find? (fun i => key i == key n) = none := by
        rw [List.find?_eq_none]; intro i hi; simp at hi ⊢; intro he; have := hk _ _ he; omega
      rw [this]; simp
    · rw [if_neg h]
      by_cases h2 : ∃ i, i < n ∧ key i = x
      · have h3 : ∃ i, i < n + 1 ∧ key i = x := by obtain ⟨i, a, b⟩ := h2; exact ⟨i, by omega, b⟩
        rw [if_pos h2, if_pos h3]
        cases hf : (List.range n).find? (fun i => key i == x)
        · rw [List.find?_eq_none] at hf
          obtain ⟨i, a, b⟩ := h2
          have := hf i (by simpa using a); simp [b] at this
        · rfl
      · have h3 : ¬ ∃ i, i < n + 1 ∧ key i = x := by
          rintro ⟨i, a, b⟩
          by_cases hi : i = n
          · subst hi; exact h b.symm
          · exact h2 ⟨i, by omega, b⟩
        rw [if_neg h2, if_neg h3]
theorem fold_put_at {α : Type} [DecidableEq α] (d : α) (key : Nat → Nat) (val : Nat → α) (hk : ∀ i j, key i = key j → i = j) (n : Nat) (m : FMap α) (q : Nat) (hq : q < n) :
    FMap.get d (((List.range n).foldl (fun m i => FMap.put d m (key i) (val i)) m)) (key q) = val q := by
  rw [fold_put d key val hk, if_pos ⟨q, hq, rfl⟩]
  cases hf : (List.range n).find? (fun i => key i == key q)
  · rw [List.find?_eq_none] at hf
    have := hf q (by simpa using hq); simp at this
  · rename_i i
    have := List.find?_some hf
    simp at this
    rw [hk _ _ this]
theorem colQueue_keep {β : Type} (g : State → β) (h : ∀ s x, g (State.withCol s x) = g s) (s : State) (w : ColWrite) : g (s.colQueue w) = g s := by
  unfold State.colQueue; split
  · rfl
  · exact h _ _
theorem reports_fold (f : Nat → Report) (l : List Nat) : ∀ s : State, (l.foldl (fun s i => s.report (f i)) s).reports = s.reports ++ l.map f ∧ ∀ k, (l.foldl (fun s i => s.report (f i)) s).ctx k = s.ctx k := by
  induction l with
  | nil => intro s; simp
  | cons a l ih => intro s; rw [List.foldl_cons]; refine ⟨by rw [(ih _).1]; simp [State.report], fun k => by rw [(ih _).2]; rfl⟩
theorem report_ctx_fold (x : Nat) (l : List Nat) (n : Nat) : ∀ s : State, (s.ctx x).invoc = n → 
    l.foldl (fun s i => s.report { kind := 0x0A, ctx := x, invoc := (s.ctx x).invoc, unit := uArr (i / 128) (i % 128) }) s =
    l.foldl (fun s i => s.report { kind := 0x0A, ctx := x, invoc := n, unit := uArr (i / 128) (i % 128) }) s := by
  induction l with
  | nil => intro s _; rfl
  | cons a l ih => intro s h; rw [List.foldl_cons, List.foldl_cons, h]; exact ih _ h
theorem mem_ctxList (s : State) (x : Nat) (h : (s.ctx x).ex = true) : x ∈ s.ctxList := by
  unfold State.ctxList
  unfold State.ctx at h
  revert h
  generalize s.ctxs = m
  induction m with
  | nil => intro h; cases h
  | cons p m ih =>
    obtain ⟨k, v⟩ := p
    intro h
    rw [FMap.get] at h
    by_cases hk : x = k
    · rw [if_pos hk] at h; subst hk; simp [h]
    · rw [if_neg hk] at h
      have := ih h
      simp only [List.mem_map, List.mem_filter] at this ⊢
      obtain ⟨p, hp, rfl⟩ := this
      exact ⟨p, ⟨List.mem_cons_of_mem _ hp.1, hp.2⟩, rfl⟩
theorem ctx_fold (f : Ctx → Ctx) (q : Ctx → Prop) (hq : ∀ c, q (f c)) (x : Nat) : ∀ (l : List Nat), x ∈ l → ∀ s : State, q ((l.foldl (fun s c => s.modCtx c f) s).ctx x) := by
  have hk : ∀ (l : List Nat) (s : State), q (s.ctx x) → q ((l.foldl (fun s c => s.modCtx c f) s).ctx x) := by
    intro l
    induction l with
    | nil => intro s h; exact h
    | cons a l ih => intro s h; rw [List.foldl_cons]; apply ih; simp only [State.modCtx_eq, State.ctx_setCtx]; split
                     · exact hq _
                     · exact h
  intro l
  induction l with
  | nil => intro h; cases h
  | cons a l ih =>
    intro h s
    rw [List.foldl_cons]
    rcases List.mem_cons.1 h with rfl | h
    · apply hk; simp only [State.modCtx_eq, State.ctx_setCtx, if_pos]; exact hq _
    · exact ih h _
theorem bump_mem (s : State) (t : PType) (i o n : Nat) : SameMemory s (s.bump t i o n) :=
  ⟨fun a => bump_keep (fun s => s.memByte a) (fun _ _ _ => rfl) s t i o n, fun a => bump_keep (fun s => s.lpByte a) (fun _ _ _ => rfl) s t i o n⟩
theorem bump64_mem (s : State) (t : PType) (i o n : Nat) : SameMemory s (s.bump64 t i o n) :=
  ⟨fun a => bump64_keep (fun s => s.memByte a) (fun _ _ _ => rfl) (fun _ _ _ => rfl) s t i o n, fun a => bump64_keep (fun s => s.lpByte a) (fun _ _ _ => rfl) (fun _ _ _ => rfl) s t i o n⟩
theorem SameMemory.refl (s : State) : SameMemory s s := ⟨fun _ => rfl, fun _ => rfl⟩
theorem SameMemory.trans {s t u : State} (h : SameMemory s t) (h2 : SameMemory t u) : SameMemory s u :=
  ⟨fun a => (h2.1 a).trans (h.1 a), fun a => (h2.2 a).trans (h.2 a)⟩
theorem foldl_mem {α : Type} (f : State → α → State) (h : ∀ s x, SameMemory s (f s x)) (l : List α) (s : State) : SameMemory s (l.foldl f s) := by
  induction l generalizing s with
  | nil => exact .refl s
  | cons x l ih => exact (h s x).trans (ih _)
theorem lpFault_memory (s : State) (a c i : Nat) : SameMemory s (s.lpFault a c i) := ⟨fun _ => by simp, fun _ => by simp⟩
theorem memFault_memory (s : State) (a c i : Nat) : SameMemory s (s.memFault a c i) := ⟨fun _ => by simp, fun _ => by simp⟩
theorem bar2Miss_memory (s : State) (l : List Nat) : SameMemory s (s.bar2Miss l) := by
  unfold State.bar2Miss
  split
  · exact .refl s
  · exact (bump_mem s _ _ _ _).trans ⟨fun _ => rfl, fun _ => rfl⟩
theorem lpCountRead_memory (s : State) (a n : Nat) : SameMemory s (s.lpCountRead a n) :=
  (bump64_mem s _ _ _ _).trans (bump64_mem _ _ _ _ _)
theorem bar2Read_memory (s : State) (o n : Nat) : SameMemory s (s.bar2Read o n) := by
  unfold State.bar2Read
  dsimp only
  have h1 : SameMemory s ((s.bar2Miss ((List.range n).map (fun i => o + i))).withFree (s.free + n)) :=
    (bar2Miss_memory s _).trans ⟨fun _ => rfl, fun _ => rfl⟩
  refine SameMemory.trans (SameMemory.trans (SameMemory.trans (h1.trans ?_) (foldl_mem _ (fun s x => lpFault_memory s _ _ _) _ _)) (foldl_mem _ (fun s x => lpCountRead_memory s _ _) _ _)) ⟨fun _ => rfl, fun _ => rfl⟩
  split
  · exact memFault_memory _ _ _ _
  · exact .refl _
theorem bar2Read_reply (s : State) (o n : Nat) (h : ∀ a, s.underMarch a = false) :
    (s.bar2Read o n).host.reply = (List.range n).map (fun i => match s.bar2Byte (o + i) with | .mem a _ => s.memByte a | .lp a => s.lpByte a | .none => 0#8) := by
  unfold State.bar2Read
  dsimp only
  show List.map _ _ = _
  simp only [h, Bool.false_eq_true, if_false]
  rw [List.zip_map_right]
  apply List.ext_getElem
  · simp
  · intro i h1 h2
    simp only [List.getElem_map, List.getElem_zip, List.getElem_range, Prod.map, id]
    all_goals (cases s.bar2Byte (o + i) <;> rfl)
theorem bar2Read_unsup (s : State) (o n : Nat) : (s.bar2Read o n).host.unsup = false := rfl
theorem bar2Write_one (s : State) (o : Nat) (b : Byte) :
    SameMemory ((s.bar2Miss [o]).bar2Put o b) (s.bar2Write o [some b]) := by
  unfold State.bar2Write
  dsimp only
  refine SameMemory.trans (t := _) ?_ (foldl_mem (fun s b => s.withLpBad (FMap.put false s.lpBad b false)) (fun s x => ⟨fun _ => rfl, fun _ => rfl⟩) _ _)
  refine SameMemory.trans (t := _) ?_ (foldl_mem _ (fun s x => ?_) _ _)
  · exact ⟨fun _ => rfl, fun _ => rfl⟩
  · split
    · exact (bump_mem s _ _ _ _).trans (lpFault_memory _ _ _ _)
    · exact bump_mem s _ _ _ _
theorem bar2Miss_none (s : State) (o : Nat) (h : s.bar2Byte o ≠ .none) : s.bar2Miss [o] = s := by
  unfold State.bar2Miss
  have : [o].find? (fun o => s.bar2Byte o == .none) = none := by simp [h]
  rw [this]
/-- A byte put where the offset stands for a plain, set or clear byte. -/
theorem bar2Write_mem (s : State) (o : Nat) (b : Byte) (a k : Nat) (h : s.bar2Byte o = .mem a k) (v : Byte)
    (hv : v = if k = 0 then b else if k = 1 then s.memByte a ||| b else s.memByte a &&& ~~~b) :
    (s.bar2Write o [some b]).memByte a = v ∧ (∀ x, x ≠ a → (s.bar2Write o [some b]).memByte x = s.memByte x) ∧ ∀ x, (s.bar2Write o [some b]).lpByte x = s.lpByte x := by
  have h1 := bar2Write_one s o b
  rw [bar2Miss_none s o (by rw [h]; exact fun h => by cases h)] at h1
  have h2 : s.bar2Put o b = s.memWrite a [v] := by
    unfold State.bar2Put
    rw [h, hv]
    match k with
    | 0 => rfl
    | 1 => rfl
    | k + 2 => rfl
  rw [h2] at h1
  refine ⟨?_, fun x hx => ?_, fun x => ?_⟩
  · rw [h1.1, memByte_memWrite, if_pos (by simp), Nat.sub_self]; rfl
  · rw [h1.1, memByte_memWrite, if_neg (by simp; omega)]
  · rw [h1.2, lpByte_memWrite]
theorem bar2Write_lp (s : State) (o : Nat) (b : Byte) (a : Nat) (h : s.bar2Byte o = .lp a) :
    (s.bar2Write o [some b]).lpByte a = b ∧ (∀ x, x ≠ a → (s.bar2Write o [some b]).lpByte x = s.lpByte x) ∧ ∀ x, (s.bar2Write o [some b]).memByte x = s.memByte x := by
  have h1 := bar2Write_one s o b
  rw [bar2Miss_none s o (by rw [h]; exact fun h => by cases h)] at h1
  have h2 : s.bar2Put o b = s.lpWrite a [b] := by unfold State.bar2Put; rw [h]
  rw [h2] at h1
  refine ⟨?_, fun x hx => ?_, fun x => ?_⟩
  · rw [h1.2, lpByte_lpWrite, if_pos (by simp), Nat.sub_self]; rfl
  · rw [h1.2, lpByte_lpWrite, if_neg (by simp; omega)]
  · rw [h1.1]; unfold State.lpWrite
    exact ((bump64_mem _ _ _ _ _).trans (bump64_mem _ _ _ _ _)).1 x
theorem bar2Byte_congr (s : State) {t : State} (o : Nat) (h : ∀ k, k ≠ rOff .hif 0 0x58 → k ≠ rOff .hif 0 0x5C → t.rd k = s.rd k)
    (h2 : t.doms = s.doms) (h3 : t.units = s.units) : t.bar2Byte o = s.bar2Byte o := by
  have hd : ∀ d, t.domOn d = s.domOn d := fun d => by unfold State.domOn State.dom; rw [h2]
  have hf : ∀ d, t.fenced d = s.fenced d := fun d => by unfold State.fenced State.unit; rw [h3]
  have h4 : ∀ c, t.reg .spd c 0x44 = s.reg .spd c 0x44 := fun c => h _ (by unfold rOff; simp [pageBase]; omega) (by unfold rOff; simp [pageBase]; omega)
  have h5 : ∀ c, t.reg .spd c 0x40 = s.reg .spd c 0x40 := fun c => h _ (by unfold rOff; simp [pageBase]; omega) (by unfold rOff; simp [pageBase]; omega)
  have h6 : ∀ c, t.reg .lpx c 0x44 = s.reg .lpx c 0x44 := fun c => h _ (by unfold rOff; simp [pageBase]; omega) (by unfold rOff; simp [pageBase]; omega)
  have h7 : t.reg64 .hif 0 0x50 = s.reg64 .hif 0 0x50 := by
    rw [State.reg64_eq, State.reg64_eq]; unfold State.rd64
    rw [h _ (by decide) (by decide), h _ (by decide) (by decide)]
  unfold State.bar2Byte State.lpReady State.lpCap State.cluOn
  simp only [hd, hf, h4, h5, h6, h7]
theorem bar2Write_none (s : State) (o : Nat) (b : Byte) (h : s.bar2Byte o = .none) :
    s.bar2Write o [some b] = (s.bump .hif 0 0x58 1).setReg .hif 0 0x5C o := by
  have h1 : s.bar2Miss [o] = (s.bump .hif 0 0x58 1).setReg .hif 0 0x5C o := by
    unfold State.bar2Miss
    have : [o].find? (fun o => s.bar2Byte o == .none) = some o := by simp [h]
    rw [this]
  have h2 : (s.bar2Miss [o]).bar2Byte o = .none := by
    rw [h1, bar2Byte_congr s, h]
    · intro k hk hk2
      rw [State.setReg_eq, State.rd_wr, if_neg hk2, State.rd_bump_other _ _ _ _ _ _ hk]
    · simp
    · simp
  unfold State.bar2Write
  simp only [List.length_singleton, List.range_one, List.zip_cons_cons, List.zip_nil_right, List.filterMap_cons, List.filterMap_nil, Option.map_some, Nat.add_zero, h, List.foldl_cons, List.foldl_nil,
    List.map_cons, List.map_nil, blocksOf, List.filter_nil]
  unfold State.bar2Put
  rw [h2, h1]
theorem bar2Byte_win (s : State) (o r : Nat) (h : o / 0x10000000 = r) (h1 : 1 ≤ r) (h2 : r ≤ 4) (hc : s.cluOn (o % 0x10000000 / 0x400000) = true) :
    s.bar2Byte o = if r = 1 then .mem o 0 else if r = 2 then .mem (0x10000000 + (o % 0x10000000 / 64 * 64 + (o % 0x10000000 % 64 + s.reg .spd (o % 0x10000000 / 0x400000) 0x44 % 64) % 64)) 0
      else if s.reg .spd (o % 0x10000000 / 0x400000) 0x40 % 2 = 0 then .none else .mem (0x10000000 + o % 0x10000000) (r - 2) := by
  unfold State.bar2Byte
  dsimp only
  rw [if_neg (by unfold galEnd; omega), if_neg (by omega), h, if_pos ⟨h1, h2⟩, hc]
  simp only [Bool.not_true, Bool.false_eq_true, if_false]
theorem lpx_bump_sat (s : State) (t : PType) (i o n : Nat) : (s.bump t i o n).reg t i o = satNat 32 (s.reg t i o + n) := by
  rw [State.reg_eq, State.reg_eq, State.rd_bump_same]
  split
  · rename_i h
    have : s.rd (rOff t i o) < 2 ^ 32 := by unfold State.rd; exact BitVec.isLt _
    rw [h]; unfold satNat; omega
  · rfl
theorem report_rd (w : State) (r : Report) (k : Nat) : (w.report r).rd k = w.rd k := rfl
theorem lpFault_lecnt (y : State) (a x i c : Nat) : (y.lpFault a x i).reg .lpx c 0x60 = y.reg .lpx c 0x60 := by
  unfold State.lpFault
  dsimp only
  generalize b2n (bit a 8) = ch
  rw [State.reg_eq, report_rd, State.reg_eq, State.setReg64_eq, State.rd_wr64, if_neg (by unfold rOff; simp only [pageBase]; omega),
    if_neg (by unfold rOff; simp only [pageBase]; omega), State.rd_bump_other _ _ _ _ _ _ (by unfold rOff; simp only [pageBase]; omega)]
theorem lpxCorrected_keep (z : State) (c a : Nat) : ((z.bump .lpx c 0x48 1).setReg64 .lpx c 0x50 a).lpx = z.lpx ∧ SameMemory z ((z.bump .lpx c 0x48 1).setReg64 .lpx c 0x50 a) :=
  ⟨bump_keep (fun s => s.lpx) (fun _ _ _ => rfl) z _ _ _ _, (bump_mem z _ _ _ _).trans ⟨fun _ => rfl, fun _ => rfl⟩⟩
theorem lpFault_reports (z : State) (a c i : Nat) : (z.lpFault a c i).reports = z.reports ++ [{ kind := 0x14, ctx := c, invoc := i, detail := a % 65536 }] := by
  unfold State.lpFault
  show State.reports (State.wr64 (State.bump _ _ _ _ _) _ _) ++ _ = _
  rw [show ∀ (y : State) o v, (y.wr64 o v).reports = y.reports from fun _ _ _ => rfl, bump_keep (fun s => s.reports) (fun _ _ _ => rfl)]
theorem patrol_lemma (s : State) (c link : Nat) (hc : c ≤ 1) (hd : s.domOn (48 + c) = true) (h1 : bits (s.reg .lpx c 0x40) 15 8 ≠ 0) (h2 : s.lpReady = true) :
      let i := FMap.get 0 s.lpx (2 * c)
      let a := chanBlock c i
      let nxt := fun (t : State) => FMap.get 0 t.lpx (2 * c) = (if (i + 1) * 128 ≥ s.lpCap then 0 else i + 1)
      (FMap.get false s.lpBad (a / 64) = false →
        Gives (.lpxPatrolScrub c ⟨0, link⟩) s (fun t => nxt t ∧ t.reg .lpx c 0x60 = satNat 32 (s.reg .lpx c 0x60 + link) ∧ SameMemory s t ∧ SameRegs s t (fun off => off = rOff .lpx c 0x60)) ∧
        Gives (.lpxPatrolScrub c ⟨1, link⟩) s (fun t => nxt t ∧ t.reg .lpx c 0x60 = satNat 32 (s.reg .lpx c 0x60 + link) ∧ t.reg .lpx c 0x48 = satNat 32 (s.reg .lpx c 0x48 + 1) ∧ t.reg64 .lpx c 0x50 = a % 2 ^ 64 ∧ SameMemory s t)) ∧
      Gives (.lpxPatrolScrub c ⟨2, link⟩) s (fun t => nxt t ∧ t.reg .lpx c 0x60 = satNat 32 (s.reg .lpx c 0x60 + link) ∧ FMap.get false t.lpBad (a / 64) = true ∧ SameMemory s t ∧
        t.reports = s.reports ++ [{ kind := 0x14, detail := a % 65536 }]) := by
  intro i a nxt
  have hc' : ¬ c > 1 := by omega
  have hx : ∀ out, exec (.lpxPatrolScrub c ⟨out, link⟩) s = .next (
    let z := (s.bump .lpx c 0x60 link).withLpx (FMap.put 0 s.lpx (2 * c) (if (i + 1) * 128 ≥ s.lpCap then 0 else i + 1))
    if out = 2 ∨ FMap.get false z.lpBad (a / 64) then (z.withLpBad (FMap.put false z.lpBad (a / 64) true)).lpFault a 255 0
    else if out = 1 then (z.bump .lpx c 0x48 1).setReg64 .lpx c 0x50 a else z) := by
    intro out
    show execLpxPatrolScrub c ⟨out, link⟩ s = _
    unfold execLpxPatrolScrub
    rw [if_neg]
    rintro (h | h | h | h)
    · exact hc' h
    · exact h1 h
    · rw [h2] at h; cases h
    · rw [hd] at h; cases h
  generalize hX : (if (i + 1) * 128 ≥ s.lpCap then 0 else i + 1) = X at hx
  have hnxt : ∀ t : State, FMap.get 0 t.lpx (2 * c) = X → nxt t := fun t h => h.trans hX.symm
  generalize hz : (s.bump .lpx c 0x60 link).withLpx (FMap.put 0 s.lpx (2 * c) X) = z at hx
  have hn : FMap.get 0 z.lpx (2 * c) = X := by rw [← hz]; exact FMap.get_put_same _ _ _ _
  have hb : z.lpBad = s.lpBad := by rw [← hz]; exact bump_keep (fun s => s.lpBad) (fun _ _ _ => rfl) s _ _ _ _
  have hp : z.reports = s.reports := by rw [← hz]; exact bump_keep (fun s => s.reports) (fun _ _ _ => rfl) s _ _ _ _
  have hm : SameMemory s z := by
    rw [← hz]; exact SameMemory.trans (t := s.bump .lpx c 0x60 link) (bump_mem s _ _ _ _) ⟨fun _ => rfl, fun _ => rfl⟩
  have hr : ∀ k, k ≠ rOff .lpx c 0x60 → z.rd k = s.rd k := by
    intro k hk; rw [← hz]; exact State.rd_bump_other s _ _ _ _ _ hk
  have h6 : z.reg .lpx c 0x60 = satNat 32 (s.reg .lpx c 0x60 + link) := by rw [← hz]; exact lpx_bump_sat s .lpx c 0x60 link
  clear hz
  refine ⟨fun h3 => ⟨?_, ?_⟩, ?_⟩
  · refine ⟨z, ?_, hnxt _ hn, h6, hm, hr⟩
    rw [hx]; dsimp only; rw [hb, h3, if_neg (by simp), if_neg (by decide)]
  · refine ⟨(z.bump .lpx c 0x48 1).setReg64 .lpx c 0x50 a, ?_, ?_, ?_, ?_, ?_, ?_⟩
    · rw [hx]; dsimp only; rw [hb, h3, if_neg (by simp), if_pos rfl]
    · refine hnxt _ ?_; rw [(lpxCorrected_keep _ c a).1]; exact hn
    · rw [State.setReg64_eq, State.reg_eq, State.rd_wr64, if_neg (by unfold rOff; omega), if_neg (by unfold rOff; omega), State.rd_bump_other _ _ _ _ _ _ (by unfold rOff; omega), ← State.reg_eq, h6]
    · rw [State.setReg64_eq, State.reg_eq, State.rd_wr64, if_neg (by unfold rOff; omega), if_neg (by unfold rOff; omega), State.rd_bump_same, if_neg (by decide), hr _ (by unfold rOff; omega)]; rfl
    · rw [State.setReg64_eq, State.reg64_eq, State.rd64_wr64]
    · exact hm.trans (lpxCorrected_keep _ c a).2
  · refine ⟨(z.withLpBad (FMap.put false s.lpBad (a / 64) true)).lpFault a 255 0, ?_, hnxt _ ?_, ?_, ?_, ?_, ?_⟩
    · rw [hx]; dsimp only; rw [hb, if_pos (Or.inl rfl)]
    · have h9 : ∀ (y : State) a, (y.lpFault a 255 0).lpx = y.lpx := fun y a => by unfold State.lpFault; simp
      rw [h9]; exact hn
    · rw [lpFault_lecnt]; exact h6
    · rw [State.lpFault_lpBad]; exact FMap.get_put_same false s.lpBad (a / 64) true
    · exact SameMemory.trans (t := z.withLpBad (FMap.put false s.lpBad (a / 64) true)) (SameMemory.trans (t := z) hm ⟨fun _ => rfl, fun _ => rfl⟩) (lpFault_memory _ _ _ _)
    · rw [lpFault_reports]; show z.reports ++ _ = _; rw [hp]

end Sys2Proof.Machine
end

