-- ==== Sys2Proof/Laws/Device.lean ====
section
/-!
SUPPORT. Sys2Proof/Laws/Device.lean: the Colophon, power, boot, housekeeping, the chain, the host interface and the security block.
-/
open Sys2Proof Sys2Proof.Machine
set_option maxRecDepth 4000

namespace Sys2Proof.Machine

theorem withCol_memory (s : State) (x : ColSt) : SameMemory s (s.withCol x) := ⟨fun _ => rfl, fun _ => rfl⟩
theorem setReg_memory (s : State) (t : PType) (i o v : Nat) : SameMemory s (s.setReg t i o v) := ⟨fun _ => rfl, fun _ => rfl⟩
theorem energy_spec (s : State) (mv : Nat) : ∃ x, s.energy mv = (s.draw.1, x) ∧ (mv ≤ 2000 → x = 0) ∧
    (mv > 2000 → x = satNat 16 (s.hld.cap * 475 * (mv * mv - 4000000) / 1000000000) ∨
      (s.hld.cap * 475 * (mv * mv - 4000000) % 1000000000 ≠ 0 ∧ x = satNat 16 (s.hld.cap * 475 * (mv * mv - 4000000) / 1000000000 + 1))) := by
  refine ⟨_, rfl, fun h => if_pos h, fun h => ?_⟩
  rw [if_neg (by omega)]
  cases h1 : Config.roundUp s.draw.2
  · left; simp
  · by_cases h2 : s.hld.cap * 475 * (mv * mv - 4000000) % 1000000000 = 0
    · left; simp [h2]
    · right; exact ⟨h2, by simp [h2]⟩
theorem fget_filter_out {α : Type} (d : α) (q : Nat → Bool) (m : FMap α) (k : Nat) (h : q k = false) : FMap.get d (m.filter (fun p => q p.1)) k = d := by
  induction m with
  | nil => rfl
  | cons p m ih =>
    obtain ⟨j, v⟩ := p
    rw [List.filter_cons]
    split
    · rename_i hj
      rw [FMap.get, if_neg, ih]
      rintro rfl
      exact absurd (h.symm.trans hj) (by decide)
    · exact ih
theorem resetCore_rd (s : State) (l : Bool) (off : Nat) : (s.resetCore l).rd off = if survives l off then s.rd off else (wordReset off).toNat := by
  show BitVec.toNat (FMap.get (wordReset off) (s.regs.filter (fun p => survives l p.1)) off) = _
  split
  · rename_i h; rw [fget_filter _ (survives l) _ _ h]; rfl
  · rename_i h; rw [fget_filter_out _ (survives l) _ _ (by simpa using h)]
theorem takeRole_keep {β : Type} (g : State → β) (h1 : ∀ s x, g (State.withChain s x) = g s) (h2 : ∀ s d f, g (State.modDom s d f) = g s) (s : State) (r : Nat) :
    g (s.takeRole r) = g (s.modSec (fun x => { x with role := r })) := by
  unfold State.takeRole
  dsimp only
  split
  · rw [h2, h2]
    split
    · exact h1 _ _
    · rfl
  · split
    · exact h1 _ _
    · rfl
theorem start_spec (s : State) (role : Nat) : (s.start role).sec.stage = 1 ∧ (s.start role).sec.role = role % 4 ∧ (role % 4 ≠ 3 → (s.start role).sec.fail = s.sec.fail) ∧
      (role % 4 = 3 → (s.start role).sec.fail = true ∧ (s.start role).sec.bcode = Code.rsvd.num ∧ ((s.start role).page 0).errCode = Code.rsvd.num ∧ ((s.start role).page 0).errOff = 0) ∧
      (role % 4 = 0 ∨ role % 4 = 3 → (s.start role).domOn 46 = false ∧ (s.start role).domOn 47 = false) ∧ (s.start role).perst = s.perst ∧ (s.start role).railOk = s.railOk ∧ (s.start role).sec.cause = s.sec.cause := by
  have h4 : role % 4 < 4 := Nat.mod_lt _ (by decide)
  generalize hr : role % 4 = r at h4
  unfold State.start
  rw [hr]
  have hsec : (s.takeRole r).sec = { s.sec with role := r } := takeRole_keep (fun s => s.sec) (fun _ _ => rfl) (fun _ _ _ => rfl) s r
  have hp : (s.takeRole r).perst = s.perst := takeRole_keep (fun s => s.perst) (fun _ _ => rfl) (fun _ _ _ => rfl) s r
  have hra : (s.takeRole r).railOk = s.railOk := takeRole_keep (fun s => s.railOk) (fun _ _ => rfl) (fun _ _ _ => rfl) s r
  have hd : r = 0 ∨ r = 3 → (s.takeRole r).domOn 46 = false ∧ (s.takeRole r).domOn 47 = false := by
    intro h
    unfold State.takeRole; dsimp only; rw [if_pos h]
    unfold State.domOn
    constructor
    · rw [State.dom_modDom, if_neg (by decide), State.dom_modDom, if_pos rfl]; rfl
    · rw [State.dom_modDom, if_pos rfl]; rfl
  by_cases h : r = 3
  · rw [if_pos h]
    refine ⟨rfl, ?_, fun h' => absurd h h', fun _ => ⟨rfl, rfl, ?_, ?_⟩, hd, hp, hra, ?_⟩
    · show (s.takeRole r).sec.role = r
      rw [hsec]
    · simp
    · simp
    · show (s.takeRole r).sec.cause = _
      rw [hsec]
  · rw [if_neg h]
    refine ⟨rfl, ?_, fun _ => ?_, fun h' => absurd h' h, hd, hp, hra, ?_⟩
    · show (s.takeRole r).sec.role = r
      rw [hsec]
    · show (s.takeRole r).sec.fail = _
      rw [hsec]
    · show (s.takeRole r).sec.cause = _
      rw [hsec]
theorem stageTwo_rd (s : State) (k : Nat) : s.stageTwo.rd k = if k = rOff .hkc 0 0x98 then (s.reg .hkc 0 0x98 ||| 1) % 2 ^ 32 else s.rd k :=
  State.rd_wr s (rOff .hkc 0 0x98) _ k
theorem countBoot_sec (s : State) : s.countBoot.sec = s.sec := rfl
theorem bootImage_sec (s : State) (slot : Nat) (img : List Byte) : (s.bootImage slot img).sec = { s.sec with
    stage := 6, fail := false, recovery := false, bcode := 0, active := s.fwDir.1.active, booted := slot, fallback := slot != s.fwDir.1.active, dirCopy := s.fwDir.2, svn := fwSvn img, meas := fwMeas img } := by
  unfold State.bootImage
  dsimp only
  rw [countBoot_sec]
  generalize s.fwDir = d
  have h : ∀ (z : State) (f : Nat → Cmp → Cmp), ((List.range 17).foldl (fun s k => s.modCmp k (f k)) z).sec = z.sec := fun z f =>
    foldl_keep (fun s : State => s.sec) (fun s k => s.modCmp k (f k)) (fun _ _ => rfl) _ _
  let f : State → Nat → Cmp → Cmp := fun z k c => { c with fw := slot == d.1.active && !z.fenced (uCmp k) }
  have h2 : ∀ (z : State), ((List.range 17).foldl (fun s k => s.modCmp k (f s k)) z).sec = z.sec := fun z =>
    foldl_keep (fun s : State => s.sec) (fun s k => s.modCmp k (f s k)) (fun _ _ => rfl) _ _
  exact h2 _
theorem stageSeven_mem (s : State) : s.stageSeven.stageEight.mem = [] := rfl
theorem trySlot_flash (s : State) (slot : Nat) : (s.trySlot slot).1.fwDir = s.fwDir := by
  have h : ∀ (z : State) img, (z.sigCount img).fwDir = z.fwDir := fun z img => bump_keep (fun s => s.fwDir) (fun _ _ _ => rfl) z _ _ _ _
  unfold State.trySlot
  dsimp only
  split
  · exact h _ _
  · exact (h _ _).trans (h _ _)
theorem link_bits : ∀ v : Nat, bits (3 + v % 3 + (2 ^ (v / 4 % 4)) * 16 + (v / 16 % 2) * 512) 3 0 = 3 + v % 3 ∧
    [1, 2, 4, 8].contains (bits (3 + v % 3 + (2 ^ (v / 4 % 4)) * 16 + (v / 16 % 2) * 512) 8 4) = true := by
  intro v
  have h1 : v % 3 < 3 := Nat.mod_lt _ (by decide)
  have h2 : v / 4 % 4 < 4 := Nat.mod_lt _ (by decide)
  have h3 : v / 16 % 2 < 2 := Nat.mod_lt _ (by decide)
  generalize v % 3 = a at *
  generalize v / 4 % 4 = b at *
  generalize v / 16 % 2 = c at *
  have : ∀ a < 3, ∀ b < 4, ∀ c < 2, bits (3 + a + (2 ^ b) * 16 + c * 512) 3 0 = 3 + a ∧ [1, 2, 4, 8].contains (bits (3 + a + (2 ^ b) * 16 + c * 512) 8 4) = true := by decide
  exact this a h1 b h2 c h3
theorem linkLost_keep (s : State) : ∃ c d : Nat,
    let mine := fun (off : Nat) => match pageAt (off / 4096) with | some (t, _) => t == .hif || t == .que | none => false
    let z := (s.wr (rOff .hif 0 0x50) c).wr (rOff .hif 0 0x50 + 4) d
    s.linkLost = { z with
      regs := z.regs.filter (fun p => !mine p.1 || isKept p.1)
      pages := s.pages.filter (fun p => !mine (p.1 * 4096))
      queues := FMap.mapVals {} (fun _ (q : QueueSt) => { inflight := q.inflight.map (fun x => { x with lost := true }) }) s.queues
      host := { writes := s.host.writes } } := by
  unfold State.linkLost
  dsimp only
  generalize s.committed (rOff .hif 0 0x50) = c
  generalize s.committed (rOff .hif 0 0x50 + 4) = d
  exact ⟨c, d, rfl⟩
theorem thmEnter_keep {β : Type} (g : State → β) (h1 : ∀ s f, g (State.modThm s f) = g s) (h2 : ∀ s o v, g (State.wr s o v) = g s) (s : State) (n : Nat) : g (s.thmEnter n) = g s := by
  unfold State.thmEnter
  have hb := fun s t i o n => bump_keep g h2 s t i o n
  dsimp only
  repeat' split
  all_goals first | rfl | exact h1 _ _ | simp only [hb, h1]
theorem thmEnter_st (s : State) (n : Nat) : (s.thmEnter n).thm.st = n := by
  unfold State.thmEnter
  have hb : ∀ s t i o n, (State.bump s t i o n).thm = s.thm := fun s t i o n => bump_keep (fun s => s.thm) (fun _ _ _ => rfl) s t i o n
  dsimp only
  split
  · rename_i h; exact h.symm
  · repeat' split
    all_goals first | rfl | (simp only [hb]; rfl)
theorem thmEnter_part {β : Type} (p : ThmSt → β) (h : ∀ (t : ThmSt) a b c d, p { t with st := a, enforced := b, grace := c, shed := d } = p t) (s : State) (n : Nat) : p (s.thmEnter n).thm = p s.thm := by
  unfold State.thmEnter
  have hb : ∀ s t i o n, (State.bump s t i o n).thm = s.thm := fun s t i o n => bump_keep (fun s => s.thm) (fun _ _ _ => rfl) s t i o n
  dsimp only
  split
  · rfl
  · repeat' split
    all_goals first | exact h _ _ _ _ _ | (simp only [hb]; exact h _ _ _ _ _)
theorem thmPublish_thm (s : State) (old : Nat) : (s.thmPublish old).thm = { s.thm with pub := if s.thm.st ≠ old ∨ 4 ≤ (s.thm.temp - s.thm.pub).natAbs then s.thm.temp else s.thm.pub } := by
  unfold State.thmPublish
  split <;> rfl
theorem thmPublish_keep {β : Type} (g : State → β) (h1 : ∀ s f, g (State.modThm s f) = g s) (s : State) (n : Nat) : g (s.thmPublish n) = g s := by
  unfold State.thmPublish; split
  · exact h1 _ _
  · rfl
theorem foldDoms_keep {β : Type} (g : State → β) (h : ∀ s d f, g (State.modDom s d f) = g s) (f : Nat → Dom → Dom) (l : List Nat) (s : State) : g (l.foldl (fun s d => s.modDom d (f d)) s) = g s :=
  foldl_keep g (fun s d => s.modDom d (f d)) (fun s d => h s d _) l s
theorem foldDoms_st (f : Nat → Dom → Dom) (h : ∀ d x, (f d x).st = 0) : ∀ (l : List Nat) (s : State) (d : Nat), d ∈ l ∨ (s.dom d).st = 0 → ((l.foldl (fun s d => s.modDom d (f d)) s).dom d).st = 0
  | [], s, d, hd => by
    rcases hd with hd | hd
    · cases hd
    · exact hd
  | e :: l, s, d, hd => by
    refine foldDoms_st f h l _ d ?_
    by_cases he : d = e
    · right; rw [he, State.dom_modDom, if_pos rfl]; exact h _ _
    · rcases hd with hd | hd
      · left; exact (List.mem_cons.1 hd).resolve_left he
      · right; rw [State.dom_modDom, if_neg he]; exact hd
theorem tripped (z : State) (c : Nat) : let u := (z.modThm (fun t => { t with shutdown := c, tripN := false, cool := 0 })).logTrip c
    u.thm.shutdown = c ∧ u.thm.tripN = false ∧ (∀ d, u.domOn d = z.domOn d) ∧ u.ctxs = z.ctxs ∧ u.col.mem = z.col.mem ∧ u.hld = z.hld ∧ (∀ k, u.rd k = z.rd k) ∧
      u.col.queue = z.col.queue ++ [{ steps := [thermStep u] }] := ⟨rfl, rfl, fun _ => rfl, rfl, rfl, rfl, fun _ => rfl, rfl⟩
theorem shutDown_spec (s : State) (c : Nat) (h1 : s.powered = true) (h2 : s.thm.shutdown = 0) :
    (s.shutDown c).thm.shutdown = c ∧ (s.shutDown c).thm.tripN = false ∧ (∀ d, d < 50 → (s.shutDown c).domOn d = false) ∧ (s.shutDown c).ctxs = [] ∧
      (s.shutDown c).col.mem = s.col.mem ∧ (s.shutDown c).hld = s.hld ∧ (s.shutDown c).reg .sec 0 0x40 = s.reg .sec 0 0x40 ∧ (s.shutDown c).reg .thm 0 0x44 = s.reg .thm 0 0x44 ∧
      (s.shutDown c).col.queue = colKept s.col.queue ++ [{ steps := [thermStep (s.shutDown c)] }] := by
  let f : Nat → Dom → Dom := fun d x => { x with st := 0, offs := if (s.dom d).st != 0 then min 65535 (x.offs + 1) else x.offs }
  obtain ⟨z, hz⟩ : ∃ z, z = (List.range 50).foldl (fun s d => s.modDom d (f d)) (s.resetCore true) := ⟨_, rfl⟩
  have hx : s.shutDown c = (z.modThm (fun t => { t with shutdown := c, tripN := false, cool := 0 })).logTrip c := by
    rw [hz]
    unfold State.shutDown
    rw [h1, h2, if_neg (by decide)]
  have hk : ∀ {β : Type} (g : State → β), (∀ s d f, g (State.modDom s d f) = g s) → g z = g (s.resetCore true) := fun g h => by rw [hz]; exact foldDoms_keep g h f _ _
  have hd : ∀ d, d < 50 → (z.dom d).st = 0 := fun d hd => by rw [hz]; exact foldDoms_st f (fun _ _ => rfl) _ _ d (.inl (List.mem_range.2 hd))
  obtain ⟨a1, a2, a3, a4, a5, a6, a7, a8⟩ := tripped z c
  rw [← hx] at a1 a2 a3 a4 a5 a6 a7 a8
  have hc : z.col = (s.resetCore true).col := hk (fun s => s.col) (fun _ _ _ => rfl)
  have hr : ∀ k, z.rd k = (s.resetCore true).rd k := fun k => hk (fun s => s.rd k) (fun _ _ _ => rfl)
  refine ⟨a1, a2, fun d h => ?_, ?_, ?_, ?_, ?_, ?_, ?_⟩
  · rw [a3]; unfold State.domOn; rw [hd d h]; rfl
  · rw [a4]; exact hk (fun s => s.ctxs) (fun _ _ _ => rfl)
  · rw [a5, hc]; rfl
  · rw [a6]; exact hk (fun s => s.hld) (fun _ _ _ => rfl)
  · rw [State.reg_eq, a7, hr, resetCore_rd, if_pos (by decide)]; rfl
  · rw [State.reg_eq, a7, hr, resetCore_rd, if_pos (by decide)]; rfl
  · rw [a8, hc]; rfl
theorem quad_step (s : State) (v n j : Nat) : (if bits v (8 * n + 7) (8 * n) = s.quad n then s else s.withQfreq (FMap.put 80 s.qfreq n (s.quad n % 256 + 256))).quad j =
    if j = n then (if bits v (8 * n + 7) (8 * n) = s.quad n then s.quad n else s.quad n % 256 + 256) else s.quad j := by
  by_cases h : bits v (8 * n + 7) (8 * n) = s.quad n
  · rw [if_pos h, if_pos h]; split
    · rename_i h2; rw [h2]
    · rfl
  · rw [if_neg h, if_neg h]
    show FMap.get 80 (FMap.put 80 s.qfreq n (s.quad n % 256 + 256)) j = if j = n then s.quad n % 256 + 256 else s.quad j
    split
    · rename_i h2; rw [h2, FMap.get_put_same]
    · rename_i h2; rw [FMap.get_put_other _ _ _ _ _ h2]; rfl
theorem quad_fold (v : Nat) : ∀ (l : List Nat) (s : State) (j : Nat), l.Nodup → (l.foldl (fun s n => if bits v (8 * n + 7) (8 * n) = s.quad n then s else s.withQfreq (FMap.put 80 s.qfreq n (s.quad n % 256 + 256))) s).quad j =
    if j ∈ l then (if bits v (8 * j + 7) (8 * j) = s.quad j then s.quad j else s.quad j % 256 + 256) else s.quad j
  | [], s, j, _ => by simp
  | n :: l, s, j, h => by
    rw [List.foldl_cons, quad_fold v l _ j (List.nodup_cons.1 h).2, quad_step]
    by_cases hj : j = n
    · subst hj
      rw [if_neg (List.nodup_cons.1 h).1, if_pos rfl, if_pos (List.mem_cons_self ..)]
    · simp only [hj, if_false, List.mem_cons, false_or]
theorem plain_qfreq : plainReg (rOff .pwr 0 0x50) = true := by decide
def pstep (s : State) (d : Nat) : State :=
  let want := s.requested d && !s.staysOff d
  let st := (s.dom d).st
  if want && st == 0 && s.mayPower d true then s.modDom d (fun x => { x with st := 1 })
  else if !want && st == 2 && s.mayPower d false then s.modDom d (fun x => { x with st := 3 })
  else s
theorem powerEval_fold (s : State) (h1 : s.thm.shutdown = 0) (h2 : s.perst = false) (h3 : s.railOk = true) : s.powerEval = (List.range 50).foldl pstep s := by
  unfold State.powerEval
  rw [h1, h2, h3, if_neg (by decide)]; rfl
theorem pstep_other (s : State) (d j : Nat) (h : j ≠ d) : (pstep s d).dom j = s.dom j := by
  unfold pstep; dsimp only
  split
  · rw [State.dom_modDom, if_neg h]
  · split
    · rw [State.dom_modDom, if_neg h]
    · rfl
theorem pstep_req (s : State) (d : Nat) : (∀ j, ((pstep s d).dom j).req = (s.dom j).req) ∧ (pstep s d).pages = s.pages ∧ (pstep s d).sec = s.sec := by
  have h : ∀ (f : Dom → Dom), (∀ x, (f x).req = x.req) → ∀ j, ((s.modDom d f).dom j).req = (s.dom j).req := fun f hf j => by
    rw [State.dom_modDom]; split
    · rename_i hj; rw [hf, hj]
    · rfl
  unfold pstep; dsimp only
  split
  · exact ⟨h _ (fun _ => rfl), rfl, rfl⟩
  · split
    · exact ⟨h _ (fun _ => rfl), rfl, rfl⟩
    · exact ⟨fun _ => rfl, rfl, rfl⟩
theorem requested_congr {s t : State} (h1 : ∀ j, (t.dom j).req = (s.dom j).req) (h2 : t.pages = s.pages) (d : Nat) : t.requested d = s.requested d := by
  have h3 : ∀ p, t.page p = s.page p := fun p => by unfold State.page; rw [h2]
  have h4 : ∀ d, t.ownReq d = s.ownReq d := fun d => by unfold State.ownReq; simp only [h1, h3]
  unfold State.requested; simp only [h4]
theorem pfold (l : List Nat) : ∀ (s : State), (∀ j, j ∉ l → (l.foldl pstep s).dom j = s.dom j) ∧ (∀ d, (l.foldl pstep s).requested d = s.requested d) ∧ (l.foldl pstep s).sec = s.sec := by
  induction l with
  | nil => exact fun s => ⟨fun _ _ => rfl, fun _ => rfl, rfl⟩
  | cons e l ih =>
    intro s
    obtain ⟨a, b, c⟩ := ih (pstep s e)
    obtain ⟨p1, p2, p3⟩ := pstep_req s e
    refine ⟨fun j hj => ?_, fun d => ?_, c.trans p3⟩
    · rw [List.mem_cons, not_or] at hj
      rw [List.foldl_cons, a j hj.2, pstep_other _ _ _ hj.1]
    · rw [List.foldl_cons, b, requested_congr p1 p2]
theorem peval_dom (s : State) (d : Nat) (hd : d < 50) : ∃ z : State, (((List.range 50).foldl pstep s).dom d) = ((pstep z d).dom d) ∧ z.dom d = s.dom d ∧ z.requested d = s.requested d ∧
    z.sec = s.sec ∧ (∀ j, d < j → z.dom j = s.dom j) := by
  have hr : List.range 50 = List.range d ++ (d :: (List.range (49 - d)).map (fun i => d + 1 + i)) := by
    have h50 : 50 = d + (1 + (49 - d)) := by omega
    conv => lhs; rw [h50]
    rw [List.range_add, List.range_add, List.map_append, List.map_map]
    congr 1
    simp [Function.comp_def, Nat.add_assoc]
  refine ⟨(List.range d).foldl pstep s, ?_, ?_, ?_, ?_, ?_⟩
  · rw [hr, List.foldl_append, List.foldl_cons, (pfold _ _).1]
    simp; omega
  · exact (pfold _ s).1 d (by simp)
  · exact (pfold _ s).2.1 d
  · exact (pfold _ s).2.2
  · intro j hj; exact (pfold _ s).1 j (by simp; omega)
theorem xng_mod (s : State) (a b c e : Nat) (f : Xng → Xng) (h1 : b < 32) (h2 : e < 32) : (s.modXng a b f).xngAt c e = if c = a ∧ e = b then f (s.xngAt a b) else s.xngAt c e := by
  show FMap.get {} (FMap.put {} s.xng (xkey a b) _) (xkey c e) = _
  split
  · rename_i h; rw [h.1, h.2, FMap.get_put_same]
  · rename_i h; rw [FMap.get_put_other _ _ _ _ _ (by unfold xkey; omega)]; rfl
theorem modXng_frame (s : State) (a b : Nat) (f : Xng → Xng) : SameMemory s (s.modXng a b f) ∧ SameRegs s (s.modXng a b f) (fun _ => False) := ⟨⟨fun _ => rfl, fun _ => rfl⟩, fun _ _ => rfl⟩
theorem modXng_frame3 (s : State) (a b c d e g : Nat) (f f2 f3 : Xng → Xng) : SameMemory s (((s.modXng a b f).modXng c d f2).modXng e g f3) ∧ SameRegs s (((s.modXng a b f).modXng c d f2).modXng e g f3) (fun _ => False) :=
  ⟨((modXng_frame _ _ _ _).1.trans (modXng_frame _ _ _ _).1).trans (modXng_frame _ _ _ _).1, fun _ _ => rfl⟩
theorem conv_setConv (h : HkcSt) (c : Nat) (x : HkcConv) (hc : c ≤ 1) : (h.setConv c x).conv c = x ∧ (h.setConv c x).conv (1 - c) = h.conv (1 - c) ∧ (h.setConv c x).stats = h.stats ∧
    (h.setConv c x).running = h.running ∧ (h.setConv c x).pos = h.pos := by
  have : c = 0 ∨ c = 1 := by omega
  rcases this with rfl | rfl <;> exact ⟨rfl, rfl, rfl, rfl, rfl⟩
theorem wr_memory (s : State) (o v : Nat) : SameMemory s (s.wr o v) := ⟨fun _ => rfl, fun _ => rfl⟩
/-- A delivery's effect on the statistics. -/
theorem enter_spec (y : State) (settle : Bool) (i : Nat) (code : Nat × Bool) : let z := if settle then y else y.modHkc (fun h => { h with stats := FMap.upd {} h.stats i (fun x => hkcEnter x code) })
    z.hkc = (if settle then y.hkc else { y.hkc with stats := FMap.upd {} y.hkc.stats i (fun x => hkcEnter x code) }) ∧ (∀ k, z.rd k = y.rd k) ∧ SameMemory y z := by
  cases settle
  · exact ⟨rfl, fun _ => rfl, fun _ => rfl, fun _ => rfl⟩
  · exact ⟨rfl, fun _ => rfl, fun _ => rfl, fun _ => rfl⟩
theorem entered_stats (h : HkcSt) (settle : Bool) (i : Nat) (code : Nat × Bool) : (if settle then h else { h with stats := FMap.upd {} h.stats i (fun x => hkcEnter x code) }).stats = (if settle then h.stats else FMap.upd {} h.stats i (fun x => hkcEnter x code)) ∧
    (if settle then h else { h with stats := FMap.upd {} h.stats i (fun x => hkcEnter x code) }).running = h.running := by
  cases settle <;> exact ⟨rfl, rfl⟩
theorem hkcDeliver_cases (s : State) (i dest word : Nat) (code : Nat × Bool) (settle : Bool) : let off := rOff .hkc 0 (0x100 + 4 * i)
    let act := rOff .hkc 0 0x78
    let z := s.hkcDeliver i dest word code settle
    let stats := fun (y : State) => if settle then y else y.modHkc (fun h => { h with stats := FMap.upd {} h.stats i (fun x => hkcEnter x code) })
    (dest = 0 ∧ z = s.wr off (word + 2 ^ 16 + (b2n (bit (s.rd off) 16) <<< 18))) ∨ (dest ≠ 0 ∧ (dest = 1 ∨ bit (s.rd act) i = true) ∧ z = stats s) ∨
    (dest ≠ 0 ∧ dest ≠ 1 ∧ bit (s.rd act) i = false ∧ bit (s.rd off) 16 = true ∧ z = stats ((s.wr off (s.rd off ||| 2 ^ 18)).wr act (s.rd act ||| 2 ^ i))) ∨
    (dest ≠ 0 ∧ dest ≠ 1 ∧ bit (s.rd act) i = false ∧ bit (s.rd off) 16 = false ∧ z = s.wr off (word + 2 ^ 16)) := by
  intro off act z stats
  simp only [z]
  unfold State.hkcDeliver
  by_cases h0 : dest = 0
  · left; exact ⟨h0, if_pos h0⟩
  · by_cases h1 : dest = 1 ∨ bit (s.rd act) i = true
    · right; left; exact ⟨h0, h1, (if_neg h0).trans (if_pos h1)⟩
    · have h2 : dest ≠ 1 := fun h => h1 (.inl h)
      have h3 : bit (s.rd act) i = false := by simpa using fun h => h1 (.inr h)
      right; right
      by_cases h4 : bit (s.rd off) 16 = true
      · left; exact ⟨h0, h2, h3, h4, (if_neg h0).trans ((if_neg h1).trans (if_pos h4))⟩
      · right; exact ⟨h0, h2, h3, by simpa using h4, (if_neg h0).trans ((if_neg h1).trans (if_neg h4))⟩
theorem modHkc_memory (s : State) (f : HkcSt → HkcSt) : SameMemory s (s.modHkc f) := ⟨fun _ => rfl, fun _ => rfl⟩
theorem plain_seqlen : plainReg (rOff .hkc 0 0x44) = true := by decide
theorem plain_hctrl : plainReg (rOff .hkc 0 0x40) = true := by decide
/-- What staging a register leaves in force. -/
theorem hkcForce_staged (s : State) (o v : Nat) (put : State → State) (hp : (put s).hkc = s.hkc) (hr : s.hkc.running = true) (f : State → Nat) :
    (s.hkcStage o v put).hkcForce o (f (s.hkcStage o v put)) = s.hkcForce o v := by
  unfold State.hkcStage
  dsimp only
  rw [hr, Bool.true_and]
  by_cases h : FMap.get 0 s.hkc.staged o = 0
  · have h' : (FMap.get 0 s.hkc.staged o == 0) = true := by rw [h]; rfl
    rw [h', if_pos rfl]
    unfold State.hkcForce
    have : FMap.get 0 (State.modHkc (put s) (fun h => { h with staged := FMap.put 0 h.staged o (v + 1) })).hkc.staged o = v + 1 := by
      show FMap.get 0 (FMap.put 0 (put s).hkc.staged o (v + 1)) o = v + 1
      exact FMap.get_put_same _ _ _ _
    rw [this, h]
  · have h' : (FMap.get 0 s.hkc.staged o == 0) = false := by simpa using h
    rw [h', if_neg (by decide)]
    unfold State.hkcForce
    rw [hp]
    cases hg : FMap.get 0 s.hkc.staged o with
    | zero => exact absurd hg h
    | succ x => rfl
theorem hkcStage_keep {β : Type} (g : State → β) (hg : ∀ s f, g (State.modHkc s f) = g s) (s : State) (o v : Nat) (put : State → State) : g (s.hkcStage o v put) = g (put s) := by
  unfold State.hkcStage; dsimp only; split
  · exact hg _ _
  · rfl
theorem hkcStage_stopped (s : State) (o v : Nat) (put : State → State) (h : s.hkc.running = false) : s.hkcStage o v put = put s := by
  unfold State.hkcStage; dsimp only; rw [h, Bool.false_and, if_neg (by decide)]
theorem regPut_hkc (s : State) (off v : Nat) : (s.regPut off v).hkc = s.hkc := regPut_keep (fun s => s.hkc) (fun _ _ => rfl) (fun _ _ => rfl) (fun _ _ _ => rfl) (fun _ _ _ => rfl) s off v
theorem ans_frame (s : State) (bs : List Byte) : SameMemory s (s.withHost { s.host with reply := bs, poisoned := false, unsup := false }) ∧ (∀ k, (s.withHost { s.host with reply := bs, poisoned := false, unsup := false }).rd k = s.rd k) :=
  ⟨⟨fun _ => rfl, fun _ => rfl⟩, fun _ => rfl⟩
theorem entry_page : ∀ i < 32, pageAt (rOff .hkc 0 (0x200 + 8 * i) / 4096) = some (.hkc, 0) ∧ ∃ r b, findReg .hkc (rOff .hkc 0 (0x200 + 8 * i) % 4096) = some (r, b) ∧ r.wide = true ∧ (r.acc == .wo || r.acc == .ro) = false := by
  intro i hi
  have h : ∀ i < 32, pageAt (rOff .hkc 0 (0x200 + 8 * i) / 4096) = some (.hkc, 0) ∧ (match findReg .hkc (rOff .hkc 0 (0x200 + 8 * i) % 4096) with | some (r, b) => r.wide && !(r.acc == .wo || r.acc == .ro) | none => false) = true := by decide
  obtain ⟨a, b⟩ := h i hi
  refine ⟨a, ?_⟩
  split at b
  · rename_i r c hr
    rw [Bool.and_eq_true] at b
    exact ⟨r, c, hr, b.1, by simpa using b.2⟩
  · cases b
theorem regPut_wide {s : State} {off v : Nat} {t : PType} {i b : Nat} {r : Reg} (h1 : pageAt (off / 4096) = some (t, i))
    (h2 : findReg t (off % 4096) = some (r, b)) (h3 : r.wide = true) (h4 : (r.acc == .wo || r.acc == .ro) = false) :
    s.regPut off v = s.put64 off v ∨ s.regPut off v = (s.put64 off v).cfgAdvance := by
  unfold State.regPut
  rw [h1]; dsimp only; rw [h2]; dsimp only; rw [h4, h3]
  simp only [Bool.false_eq_true, if_false, if_true]
  split <;> simp
theorem rd_lt (s : State) (o : Nat) : s.rd o < 2 ^ 32 := (FMap.get (wordReset o) s.regs o).isLt
theorem rd64_put64 (s : State) (off v : Nat) : (s.put64 off v).rd64 off = v % 2 ^ 64 := State.rd64_wr64 s off v
theorem entry_take (s : State) (v i low : Nat) (hi : i < 32) (h1 : (s.page 0x52).staging = some (0x200 + 8 * i, low)) :
    s.takeLow (rOff .hkc 0 (0x204 + 8 * i)) v = (s.modPage 0x52 (fun p => { p with staging := none }), low + v * 2 ^ 32) := by
  have hp : rOff .hkc 0 (0x204 + 8 * i) / 4096 = 0x52 := by unfold rOff; simp [pageBase]; omega
  have hm : (rOff .hkc 0 (0x204 + 8 * i) - 4) % 4096 = 0x200 + 8 * i := by unfold rOff; simp [pageBase]; omega
  unfold State.takeLow
  dsimp only
  rw [hp, h1]
  dsimp only
  rw [hm, if_pos rfl]
theorem entry_exec (s z : State) (value : Word) (i v : Nat) (hi : i < 32) (ht : s.takeLow (rOff .hkc 0 (0x204 + 8 * i)) value.toNat = (z, v)) (h2 : hkcEntryBad v = none) (hl : z.locked 3 = false) :
    exec (.hkcStagedWrite (0x204 + 8 * i) value) s = .next (z.hkcStage (0x200 + 8 * i) (z.rd64 (rOff .hkc 0 (0x200 + 8 * i))) (fun s => s.regPut (rOff .hkc 0 (0x200 + 8 * i)) v)) := by
  have h8 : (0x204 + 8 * i - 0x204) / 8 = i := by omega
  have hw : z.hkcEntryWrite ((0x204 + 8 * i - 0x204) / 8) v (rOff .hkc 0 (0x204 + 8 * i)) = z.hkcStage (0x200 + 8 * i) (z.rd64 (rOff .hkc 0 (0x200 + 8 * i))) (fun s => s.regPut (rOff .hkc 0 (0x200 + 8 * i)) v) := by
    rw [h8]
    unfold State.hkcEntryWrite
    rw [h2, hl]
    rfl
  show execHkcStagedWrite (0x204 + 8 * i) value s = _
  unfold execHkcStagedWrite
  dsimp only
  rw [if_neg (by omega), if_pos (by omega), if_neg (by omega), ht]
  exact congrArg Host.Outcome.next hw
theorem hkcStage_page (s : State) (o v : Nat) (put : State → State) (p : Nat) : (s.hkcStage o v put).page p = (put s).page p := hkcStage_keep (fun s => s.page p) (fun _ _ => rfl) s o v put
theorem put64_page (s : State) (o v p : Nat) : (s.put64 o v).page p = s.page p := rfl
theorem cfgAdvance_page (s : State) (p : Nat) : s.cfgAdvance.page p = s.page p := cfgAdvance_keep (fun s => s.page p) (fun _ _ => rfl) (fun _ _ => rfl) s
theorem entry_commit (s : State) (value : Word) (hl : s.locked 3 = false) (i : Nat) (hi : i < 32) (low : Nat) (h1 : (s.page 0x52).staging = some (0x200 + 8 * i, low))
    (h2 : hkcEntryBad (low + value.toNat * 2 ^ 32) = none) (h3 : low < 2 ^ 32) :
    Gives (.hkcStagedWrite (0x204 + 8 * i) value) s (fun t => t.reg64 .hkc 0 (0x200 + 8 * i) = low + value.toNat * 2 ^ 32 ∧ (t.page 0x52).staging = none ∧
            (s.hkc.running = true → t.hkcEntry i = s.hkcEntry i) ∧ (s.hkc.running = false → s.hkc.staged = [] → t.hkcEntry i = low + value.toNat * 2 ^ 32) ∧ SameMemory s t) := by
  have hv : low + value.toNat * 2 ^ 32 < 2 ^ 64 := by have := value.isLt; omega
  have ht := entry_take s value.toNat i low hi h1
  generalize low + value.toNat * 2 ^ 32 = v at *
  obtain ⟨z, hz⟩ : ∃ z, z = s.modPage 0x52 (fun p => { p with staging := none }) := ⟨_, rfl⟩
  rw [← hz] at ht
  have hzh : z.hkc = s.hkc := by rw [hz]; rfl
  have hzl : z.locked 3 = false := by rw [hz]; exact hl
  have hzs : (z.page 0x52).staging = none := by rw [hz]; simp
  have hzm : SameMemory s z := by rw [hz]; exact ⟨fun _ => rfl, fun _ => rfl⟩
  have hze : z.hkcEntry i = s.hkcEntry i := by rw [hz]; rfl
  have hx := entry_exec s z value i v hi ht h2 hzl
  obtain ⟨e1, r, b, e2, e3, e4⟩ := entry_page i hi
  let off := rOff .hkc 0 (0x200 + 8 * i)
  let put := fun (s : State) => s.regPut off v
  have hrd : (put z).rd64 off = v := by
    rcases regPut_wide (s := z) (v := v) e1 e2 e3 e4 with hq | hq
    · simp only [put]; rw [hq, rd64_put64, Nat.mod_eq_of_lt hv]
    · simp only [put]; rw [hq, cfgAdvance_keep (fun s => s.rd64 off) (fun _ _ => rfl) (fun _ _ => rfl), rd64_put64, Nat.mod_eq_of_lt hv]
  have hps : ((put z).page 0x52).staging = none := by
    rcases regPut_wide (s := z) (v := v) e1 e2 e3 e4 with hq | hq
    · simp only [put]; rw [hq, put64_page, hzs]
    · simp only [put]; rw [hq, cfgAdvance_page, put64_page, hzs]
  refine ⟨_, hx, ?_, ?_, fun hr => ?_, fun hr hs => ?_, ?_⟩
  · rw [hkcStage_keep (fun s => s.reg64 .hkc 0 (0x200 + 8 * i)) (fun _ _ => rfl)]; exact hrd
  · rw [hkcStage_page]; exact hps
  · have := hkcForce_staged z (0x200 + 8 * i) (z.rd64 off) put (regPut_hkc _ _ _) (by rw [hzh]; exact hr) (fun s => s.reg64 .hkc 0 (0x200 + 8 * i))
    exact this.trans hze
  · rw [hkcStage_stopped z _ _ _ (by rw [hzh]; exact hr)]
    unfold State.hkcEntry State.hkcForce
    rw [show (put z).hkc = s.hkc from (regPut_hkc _ _ _).trans hzh, hs]
    exact hrd
  · refine ⟨fun a => ?_, fun a => ?_⟩
    · rw [hkcStage_keep (fun s => s.memByte a) (fun _ _ => rfl)]; exact ((regPut_mem z _ _).1 a).trans (hzm.1 a)
    · rw [hkcStage_keep (fun s => s.lpByte a) (fun _ _ => rfl)]; exact ((regPut_mem z _ _).2 a).trans (hzm.2 a)
theorem bit_shift (w k : Nat) : bit w k = decide (w / 2 ^ k % 2 = 1) := by
  unfold bit; rw [Nat.testBit_eq_decide_div_mod_eq]
theorem consume_spec (s : State) (i : Nat) : let data := s.rd (rOff .hkc 0 (0x100 + 4 * i))
    let w := (s.hkcConsume i).rd (rOff .hkc 0 (0x100 + 4 * i))
    bit w 16 = false ∧ (bit data 16 = false → w = data) ∧ (bit data 16 = true → w = data - 2 ^ 16 + (if bit data 17 then 0 else 2 ^ 17) - (if bit data 18 then 2 ^ 18 else 0)) := by
  intro data w
  have hlt : data < 2 ^ 32 := rd_lt s _
  by_cases hb : bit data 16 = true
  · have hw : w = (data - 2 ^ 16 + (if bit data 17 then 0 else 2 ^ 17) - (if bit data 18 then 2 ^ 18 else 0)) % 2 ^ 32 := by
      simp only [w]; unfold State.hkcConsume; dsimp only
      rw [if_pos hb, State.rd_wr, if_pos rfl]
    have h16 := hb
    rw [bit_shift] at h16
    have h16 := of_decide_eq_true h16
    have h17 := bit_shift data 17
    have h18 := bit_shift data 18
    have hv : w = data - 2 ^ 16 + (if bit data 17 then 0 else 2 ^ 17) - (if bit data 18 then 2 ^ 18 else 0) := by
      rw [hw, Nat.mod_eq_of_lt]
      split
      · split <;> omega
      · rename_i h; rw [h17] at h
        have h : ¬ data / 2 ^ 17 % 2 = 1 := fun h' => h (decide_eq_true h')
        split <;> omega
    refine ⟨?_, fun h => absurd (hb.symm.trans h) (by decide), fun _ => hv⟩
    rw [bit_shift, decide_eq_false_iff_not, hv]
    split
    · rename_i h; rw [h17] at h
      have h := of_decide_eq_true h
      split
      · rename_i h'; rw [h18] at h'
        have h' := of_decide_eq_true h'
        omega
      · omega
    · rename_i h; rw [h17] at h
      have h : ¬ data / 2 ^ 17 % 2 = 1 := fun h' => h (decide_eq_true h')
      split
      · rename_i h'; rw [h18] at h'
        have h' := of_decide_eq_true h'
        omega
      · omega
  · rw [Bool.not_eq_true] at hb
    have hw : w = data := by
      simp only [w]; unfold State.hkcConsume; dsimp only
      rw [if_neg (by rw [show bit (s.rd _) 16 = false from hb]; decide)]
    exact ⟨by rw [hw]; exact hb, fun _ => hw, fun h => absurd (hb.symm.trans h) (by decide)⟩
theorem statcap_spec (s : State) (value : Word) (h1 : s.regBad (rOff .hkc 0 0x64) value.toNat = none) (h2 : bit value.toNat 31 = true) :
    let x : HkcStat := FMap.get {} s.hkc.stats (bits value.toNat 4 0)
    Gives (.statcap value) s (fun t => t.reg64 .hkc 0 0x68 = toBits 64 x.sum % 2 ^ 64 ∧ t.reg .hkc 0 0x70 = (x.n + (b2n x.orSeen <<< 28)) % 2 ^ 32 ∧
          (x.n = 0 → t.reg .hkc 0 0x74 = 0x80007FFF) ∧ (x.n ≠ 0 → t.reg .hkc 0 0x74 = (toBits 16 x.mn + (toBits 16 x.mx <<< 16)) % 2 ^ 32) ∧
          FMap.get {} t.hkc.stats (bits value.toNat 4 0) = (if bit value.toNat 8 then {} else x) ∧ SameMemory s t) := by
  intro x
  obtain ⟨m, hm⟩ : ∃ m, m = (if x.n = 0 then 0x80007FFF else toBits 16 x.mn + (toBits 16 x.mx <<< 16)) := ⟨_, rfl⟩
  obtain ⟨sm, hsm⟩ : ∃ m, m = toBits 64 x.sum := ⟨_, rfl⟩
  obtain ⟨cn, hcn⟩ : ∃ m, m = x.n + (b2n x.orSeen <<< 28) := ⟨_, rfl⟩
  let z := ((s.setReg64 .hkc 0 0x68 sm).setReg .hkc 0 0x70 cn).setReg .hkc 0 0x74 m
  have z1 : z.reg64 .hkc 0 0x68 = sm % 2 ^ 64 := by
    simp only [z, State.setReg64_eq, State.setReg_eq, State.reg64_eq]
    unfold State.rd64
    rw [State.rd_wr, if_neg (by decide), State.rd_wr, if_neg (by decide), State.rd_wr, if_neg (by decide), State.rd_wr, if_neg (by decide)]
    exact State.rd64_wr64 s (rOff .hkc 0 0x68) sm
  have z2 : z.reg .hkc 0 0x70 = cn % 2 ^ 32 := by
    simp only [z, State.setReg_eq, State.reg_eq]
    rw [State.rd_wr, if_neg (by decide), State.rd_wr, if_pos rfl]
  have z3 : z.reg .hkc 0 0x74 = m % 2 ^ 32 := by
    simp only [z, State.setReg_eq, State.reg_eq]
    rw [State.rd_wr, if_pos rfl]
  have hz : z.hkc = s.hkc := rfl
  have hzm : SameMemory s z := ⟨fun _ => rfl, fun _ => rfl⟩
  refine ⟨if bit value.toNat 8 then z.modHkc (fun h => { h with stats := FMap.put {} h.stats (bits value.toNat 4 0) {} }) else z, ?_, ?_, ?_, fun hn => ?_, fun hn => ?_, ?_, ?_⟩
  · show execStatcap value s = _
    unfold execStatcap
    dsimp only
    rw [regWrite_ok h1 rfl rfl, h2, if_neg (by decide)]
    simp only [z, hm, hsm, hcn]
    rfl
  · rw [← hsm, ← z1]; split <;> rfl
  · rw [← hcn, ← z2]; split <;> rfl
  · rw [if_pos hn] at hm
    have : z.reg .hkc 0 0x74 = 0x80007FFF := by rw [z3, hm]; rfl
    rw [← this]; split <;> rfl
  · rw [if_neg hn] at hm
    rw [← hm, ← z3]; split <;> rfl
  · by_cases hb : bit value.toNat 8 = true
    · rw [if_pos hb, if_pos hb]
      show FMap.get ({} : HkcStat) (FMap.put {} z.hkc.stats (bits value.toNat 4 0) {}) (bits value.toNat 4 0) = {}
      exact FMap.get_put_same _ _ _ _
    · rw [if_neg hb, if_neg hb, hz]
  · split
    · exact hzm.trans (modHkc_memory _ _)
    · exact hzm
theorem dsyAt_mod (s : State) (p q : Nat) (f : Dsy → Dsy) : (s.modDsy p f).dsyAt q = if q = p then f (s.dsyAt p) else s.dsyAt q := by
  show FMap.get {} (FMap.put {} s.dsy p (f (s.dsyAt p))) q = _
  split
  · rename_i h; rw [h, FMap.get_put_same]
  · rename_i h; rw [FMap.get_put_other _ _ _ _ _ h]; rfl
theorem modDsy_frame (s : State) (p : Nat) (f : Dsy → Dsy) : SameMemory s (s.modDsy p f) ∧ SameRegs s (s.modDsy p f) (fun _ => False) ∧ (s.modDsy p f).chain = s.chain := ⟨⟨fun _ => rfl, fun _ => rfl⟩, fun _ _ => rfl, rfl⟩
theorem withChain_dsyAt (s : State) (x : ChainSt) (q : Nat) : (s.withChain x).dsyAt q = s.dsyAt q := rfl
theorem ctrlFrame_chain (s : State) (a b c : Nat) : (s.ctrlFrame a b c).chain = { s.chain with frames := s.chain.frames ++ [(a, b, c)] } := rfl
theorem ctrlFrame_frame (s : State) (a b c : Nat) : SameMemory s (s.ctrlFrame a b c) ∧ SameRegs s (s.ctrlFrame a b c) (fun _ => False) := ⟨⟨fun _ => rfl, fun _ => rfl⟩, fun _ _ => rfl⟩
theorem enumOn_frame (s : State) : SameMemory s s.enumOn ∧ SameRegs s s.enumOn (fun _ => False) := by
  unfold State.enumOn; split
  · exact ctrlFrame_frame _ _ _ _
  · split
    · exact ⟨SameMemory.refl _, fun _ _ => rfl⟩
    · exact ctrlFrame_frame _ _ _ _
theorem linkDrop_dsyAt (s : State) (p q st : Nat) : (s.linkDrop p st).dsyAt q = if q = p then { s.dsyAt p with st := st } else s.dsyAt q := by
  unfold State.linkDrop
  dsimp only
  split
  · rw [withChain_dsyAt]; exact dsyAt_mod s p q _
  · exact dsyAt_mod s p q _
theorem linkDrop_keep {β : Type} (g : State → β) (h1 : ∀ s x, g (State.withDsy s x) = g s) (h2 : ∀ s x, g (State.withChain s x) = g s) (s : State) (p st : Nat) : g (s.linkDrop p st) = g s := by
  unfold State.linkDrop; dsimp only; split
  · rw [h2]; exact h1 _ _
  · exact h1 _ _
theorem dsyUp_at (s : State) (p : Nat) : s.dsyUp p = decide ((s.dsyAt p).st ≥ 2) := rfl
theorem withChain_frame (s : State) (x : ChainSt) : SameMemory s (s.withChain x) ∧ SameRegs s (s.withChain x) (fun _ => False) := ⟨⟨fun _ => rfl, fun _ => rfl⟩, fun _ _ => rfl⟩
theorem bump_chain (s : State) (t : PType) (i o n : Nat) : (s.bump t i o n).chain = s.chain := bump_keep (fun s => s.chain) (fun _ _ _ => rfl) s t i o n
theorem setReg_frame (s : State) (t : PType) (i o v : Nat) : SameMemory s (s.setReg t i o v) ∧ SameRegs s (s.setReg t i o v) (fun off => off = rOff t i o) :=
  ⟨⟨fun _ => rfl, fun _ => rfl⟩, fun k hk => by show (s.wr (rOff t i o) v).rd k = _; rw [State.rd_wr, if_neg hk]⟩
theorem reg_setReg (s : State) (t : PType) (i o v : Nat) : (s.setReg t i o v).reg t i o = v % 2 ^ 32 := by
  show (s.wr (rOff t i o) v).rd _ = _; rw [State.rd_wr, if_pos rfl]
theorem rd_setReg_other (s : State) (t : PType) (i o v k : Nat) (h : k ≠ rOff t i o) : (s.setReg t i o v).rd k = s.rd k := by
  show (s.wr (rOff t i o) v).rd _ = _; rw [State.rd_wr, if_neg h]
theorem fwd_blocks (y : State) (h : PushHdr) (b : Bool) (c : Prop) [Decidable c] (hb : b = decide c) : 
    (if c then y.withChain { y.chain with blocks := y.chain.blocks ++ [h] } else y).chain.blocks = (if b then y.chain.blocks ++ [h] else y.chain.blocks) := by
  subst hb; by_cases hc : c
  · rw [if_pos hc, decide_eq_true hc]; rfl
  · rw [if_neg hc, decide_eq_false hc]; rfl
theorem cmdWrite_keep {β : Type} (g : State → β) (h : ∀ s x, g (State.withHost s x) = g s) (s : State) (e : Entry) (a : Nat) (bs : List Byte) : g (s.cmdWrite e a bs) = g s := by
  unfold State.cmdWrite
  split
  · split
    · rfl
    · exact hostWrite_keep g h _ _ _
  · rfl
theorem queryDone_keep {β : Type} (g : State → β) (hq : ∀ s q f, g (State.modQueue s q f) = g s) (hh : ∀ s x, g (State.withHost s x) = g s)
    (hw : ∀ s o v, g (State.wr s o v) = g s) (hp : ∀ s p f, g (State.modPage s p f) = g s) (s : State) (e : Entry) : g (s.queryDone e) = g s := by
  unfold State.queryDone State.ctxDone
  dsimp only
  rw [complete_keep g hq hh hw hp, cmdWrite_keep g hh, bump_keep g hw]
theorem passToken_at (s : State) (x : List Byte) (xs : List (List Byte)) : s.passToken (x :: xs) = s.withChain { s.chain with held := none, token := some (x :: xs ++ [s.censusEntry (fieldLe x 56 4)]) } := rfl
theorem setReg_chain (s : State) (t : PType) (i o v : Nat) : (s.setReg t i o v).chain = s.chain := rfl
theorem census_after (s : State) (a b : Nat) (f : State → Entry → State) (hf : ∀ z e, (f z e).chain = z.chain ∧ SameMemory z (f z e)) :
    let t := s.chain.censusReqs.foldl f ((((s.setReg .dsy 1 0x90 (satNat 32 (s.reg .dsy 1 0x90 + 1))).setReg .dsy 1 0x94 a).setReg .dsy 1 0x98 b).withChain
      { s.chain with census := false, censusReqs := s.chain.censusNext, censusNext := [], censusWait := s.chain.censusWait || !s.chain.censusNext.isEmpty })
    t.chain = { s.chain with census := false, censusReqs := s.chain.censusNext, censusNext := [], censusWait := s.chain.censusWait || !s.chain.censusNext.isEmpty } ∧
      (s.chain.censusReqs = [] → t.reg .dsy 1 0x90 = satNat 32 (s.reg .dsy 1 0x90 + 1)) ∧ SameMemory s t := by
  intro t
  refine ⟨?_, fun h => ?_, ?_⟩
  · simp only [t]; rw [foldl_keep (fun s => s.chain) f (fun z e => (hf z e).1)]; rfl
  · simp only [t]; rw [h]
    show (State.setReg (State.setReg (State.setReg _ _ _ _ _) _ _ _ _) _ _ _ _).rd (rOff .dsy 1 0x90) = _
    rw [rd_setReg_other _ _ _ _ _ _ (by decide), rd_setReg_other _ _ _ _ _ _ (by decide)]
    refine (reg_setReg _ _ _ _ _).trans (Nat.mod_eq_of_lt ?_)
    unfold satNat; omega
  · exact (((setReg_frame _ _ _ _ _).1.trans ((setReg_frame _ _ _ _ _).1.trans (setReg_frame _ _ _ _ _).1)).trans (withChain_frame _ _).1).trans (foldl_mem f (fun z e => (hf z e).2) _ _)
theorem page_mod (s : State) (p q : Nat) (f : PageHdr → PageHdr) : (s.modPage p f).page q = if q = p then f (s.page p) else s.page q := by
  show FMap.get {} (FMap.put {} s.pages p (f (s.page p))) q = _
  split
  · rename_i h; rw [h, FMap.get_put_same]
  · rename_i h; rw [FMap.get_put_other _ _ _ _ _ h]; rfl
theorem modPage_frame (s : State) (p : Nat) (f : PageHdr → PageHdr) : SameMemory s (s.modPage p f) ∧ SameRegs s (s.modPage p f) (fun _ => False) := ⟨⟨fun _ => rfl, fun _ => rfl⟩, fun _ _ => rfl⟩
theorem reply_frame (s : State) (bs : List Byte) : SameMemory s (s.reply bs) ∧ SameRegs s (s.reply bs) (fun _ => False) := ⟨⟨fun _ => rfl, fun _ => rfl⟩, fun _ _ => rfl⟩
theorem wordWrite_ordinary (s : State) (t : PType) (i o : Nat) (v : Word) (r : Reg) (b : Nat) (h1 : findReg t o = some (r, b)) (h2 : r.acc ≠ .ro) 
    (h3 : (t, o) ∉ ([(.que, 0x4C), (.que, 0x54), (.que, 0x68), (.hif, 0x48), (.cmp, 0x4C), (.arr, 0x4C), (.acc, 0x50), (.fhp, 0x40), (.fhp, 0x64), (.spd, 0x40), (.dsy, 0x40), (.dsy, 0x84),
      (.col, 0x50), (.hld, 0x60), (.hkc, 0x40), (.hkc, 0x44), (.hkc, 0x60), (.hkc, 0x64), (.hkc, 0x78), (.thm, 0x44), (.thm, 0x54), (.pwr, 0x50), (.pwr, 0x5C), (.flt, 0x84), (.tst, 0x44), (.sec, 0x40), (.sec, 0x44), (.sec, 0x54), (.cfg, 0x44)] : List (PType × Nat)))
    (h4 : t ≠ .gal) (h5 : ¬ (t = .dsy ∧ i = 0 ∧ 0xA0 ≤ o)) :
    s.wordWrite t i o v = s.regWrite (rOff t i o) v.toNat (s.plainRules t i o v.toNat).1 (s.plainRules t i o v.toNat).2 (fun s => s.regPut (rOff t i o) v.toNat) := by
  have hd : (t == .dsy && i == 0 && decide (o ≥ 0xA0)) = false := by
    rw [Bool.eq_false_iff]; intro h; apply h5; simpa [and_assoc] using h
  have ha : (r.acc == Acc.ro) = false := by simpa using h2
  unfold State.wordWrite
  dsimp only
  split
  all_goals first | (exfalso; exact h3 (by decide)) | (exfalso; exact h4 rfl) | skip
  rw [h1]; dsimp only
  rw [ha, hd]; rfl
theorem pageAt_base (p : Nat) (t : PType) (i : Nat) (h : pageAt p = some (t, i)) : pageBase t i = p * 4096 := by
  unfold pageAt at h
  by_cases c0 : p = 0
  · rw [if_pos c0] at h; cases h; simp only [pageBase]; omega
  rw [if_neg c0] at h
  by_cases c1 : p = 1
  · rw [if_pos c1] at h; cases h; simp only [pageBase]; omega
  rw [if_neg c1] at h
  by_cases c2 : 2 ≤ p ∧ p ≤ 5
  · rw [if_pos c2] at h; cases h; simp only [pageBase]; omega
  rw [if_neg c2] at h
  by_cases c3 : 0x10 ≤ p ∧ p ≤ 0x13
  · rw [if_pos c3] at h; cases h; simp only [pageBase]; omega
  rw [if_neg c3] at h
  by_cases c4 : p = 0x20
  · rw [if_pos c4] at h; cases h; simp only [pageBase]; omega
  rw [if_neg c4] at h
  by_cases c5 : 0x21 ≤ p ∧ p ≤ 0x23
  · rw [if_pos c5] at h; cases h; simp only [pageBase]; omega
  rw [if_neg c5] at h
  by_cases c6 : 0x30 ≤ p ∧ p ≤ 0x40
  · rw [if_pos c6] at h; cases h; simp only [pageBase]; omega
  rw [if_neg c6] at h
  by_cases c7 : p = 0x41 ∨ p = 0x42
  · rw [if_pos c7] at h; cases h; simp only [pageBase]; omega
  rw [if_neg c7] at h
  by_cases c8 : p = 0x43
  · rw [if_pos c8] at h; cases h; simp only [pageBase]; omega
  rw [if_neg c8] at h
  by_cases c9 : p = 0x44 ∨ p = 0x45
  · rw [if_pos c9] at h; cases h; simp only [pageBase]; omega
  rw [if_neg c9] at h
  by_cases c10 : p = 0x50
  · rw [if_pos c10] at h; cases h; simp only [pageBase]; omega
  rw [if_neg c10] at h
  by_cases c11 : p = 0x51
  · rw [if_pos c11] at h; cases h; simp only [pageBase]; omega
  rw [if_neg c11] at h
  by_cases c12 : p = 0x52
  · rw [if_pos c12] at h; cases h; simp only [pageBase]; omega
  rw [if_neg c12] at h
  by_cases c13 : p = 0x53
  · rw [if_pos c13] at h; cases h; simp only [pageBase]; omega
  rw [if_neg c13] at h
  by_cases c14 : p = 0x54
  · rw [if_pos c14] at h; cases h; simp only [pageBase]; omega
  rw [if_neg c14] at h
  by_cases c15 : p = 0x55
  · rw [if_pos c15] at h; cases h; simp only [pageBase]; omega
  rw [if_neg c15] at h
  by_cases c16 : p = 0x56
  · rw [if_pos c16] at h; cases h; simp only [pageBase]; omega
  rw [if_neg c16] at h
  by_cases c17 : p = 0x57
  · rw [if_pos c17] at h; cases h; simp only [pageBase]; omega
  rw [if_neg c17] at h
  by_cases c18 : p = 0x58
  · rw [if_pos c18] at h; cases h; simp only [pageBase]; omega
  rw [if_neg c18] at h
  by_cases c19 : p = 0x59
  · rw [if_pos c19] at h; cases h; simp only [pageBase]; omega
  rw [if_neg c19] at h
  by_cases c : 0x1000 ≤ p ∧ p ≤ 0x13FF
  · rw [if_pos c] at h
    obtain ⟨u, hu, hv⟩ := Option.map_eq_some_iff.mp h
    cases hv
    unfold clusterPage at hu
    split at hu <;> first | (cases hu; simp only [pageBase]; omega) | cases hu
  · rw [if_neg c] at h; cases h
theorem rOff_of (off : Nat) (t : PType) (i : Nat) (h : pageAt (off / 4096) = some (t, i)) : rOff t i (off % 4096) = off := by
  unfold rOff; rw [pageAt_base _ _ _ h]; omega
theorem regWrite_bad {s : State} {off v : Nat} {lock : Bool} {st : List (Bool × Code)} {act : State → State} {c : Code}
    (h : (s.regBad off v).or (if lock then some .lock else firstBad st) = some c) : s.regWrite off v lock st act = s.rejectOff off c := by
  unfold State.regWrite; rw [h]
theorem write4_page (s : State) (off : Nat) (v : Word) (t : PType) (i : Nat) (h : pageAt (off / 4096) = some (t, i)) : s.write4 off v =
    if off % 4096 < 0x40 then s.hdrWrite off v else match wideAt off with | some lo => s.halfWrite off lo v.toNat | none => s.wordWrite t i (off % 4096) v := by
  unfold State.write4; rw [h]; all_goals rfl
theorem read4_page (s : State) (off : Nat) (t : PType) (i : Nat) (h : pageAt (off / 4096) = some (t, i)) (h2 : 0x40 ≤ off % 4096) (h3 : s.pageOn t i = true)
    (h4 : ¬ (t = .acc ∧ off % 4096 = 0x58)) (h5 : ¬ (t = .hkc ∧ 0x100 ≤ off % 4096 ∧ off % 4096 < 0x180)) : s.read4 off = match wideAt off with
      | none => s.reply (leBytes 4 (s.word off))
      | some lo =>
        if off = lo then
          (s.reply (leBytes 4 (s.word lo))).modPage (off / 4096) (fun p => { p with snapHi := s.word (lo + 4), latches := (p.latches + 1) % 65536 })
        else s.reply (leBytes 4 (s.page (off / 4096)).snapHi) := by
  unfold State.read4; rw [h]; dsimp only
  rw [if_neg (by rw [h3]; simp; omega), if_neg h4, if_neg h5]
  all_goals rfl
theorem que_plain : ∀ q ≤ 3, plainReg (rOff .que q 0x4C) = true ∧ plainReg (rOff .que q 0x54) = true ∧ plainReg (rOff .que q 0x68) = true := by
  intro q hq
  have : q = 0 ∨ q = 1 ∨ q = 2 ∨ q = 3 := by omega
  rcases this with rfl | rfl | rfl | rfl <;> decide
theorem plain_gives {c : Instr} {s : State} {off v : Nat} (hp : plainReg off = true) (hv : v < 2 ^ 32) (h : exec c s = .next (s.regPut off v)) :
    Gives c s (fun t => t.rd off = v ∧ SameMemory s t ∧ SameRegs s t (fun k => k = off)) := by
  refine ⟨_, h, ?_, regPut_mem _ _ _, fun k hk => ?_⟩
  · rw [regPut_plain hp, if_pos rfl, Nat.mod_eq_of_lt hv]
  · rw [regPut_plain hp, if_neg hk]
theorem four_setReg (z : State) (a b c d : Nat) (hab : a ≠ b) (hac : a ≠ c) (had : a ≠ d) (hbc : b ≠ c) (hbd : b ≠ d) (hcd : c ≠ d) : let t := (((z.wr a 0).wr b 0).wr c 0).wr d 0
    t.rd a = 0 ∧ t.rd b = 0 ∧ t.rd c = 0 ∧ t.rd d = 0 ∧ ∀ k, k ≠ a → k ≠ b → k ≠ c → k ≠ d → t.rd k = z.rd k := by
  intro t
  simp only [t, State.rd_wr]
  refine ⟨?_, ?_, ?_, ?_, fun k h1 h2 h3 h4 => ?_⟩
  · simp [had, hac, hab]
  · simp [hbd, hbc]
  · simp [hcd]
  · simp
  · rw [if_neg h4, if_neg h3, if_neg h2, if_neg h1]
theorem fetch_fold (s : State) (q : Nat) (l : List Nat) (hl : l.Nodup) : ∀ z : State, (∀ j, z.queWaits j = s.queWaits j) →
    let t := l.foldl (fun s j => s.modQueue j (fun x => { x with turn := if j ≠ q ∧ s.queWaits j then x.turn + 1 else 0 })) z
    (∀ j, (j ∈ l) → t.queue j = { z.queue j with turn := if j ≠ q ∧ s.queWaits j = true then (z.queue j).turn + 1 else 0 }) ∧ (∀ j, j ∉ l → t.queue j = z.queue j) := by
  induction l with
  | nil => intro z _; exact ⟨fun j h => absurd h (List.not_mem_nil), fun _ _ => rfl⟩
  | cons x xs ih =>
    intro z hz
    rw [List.foldl_cons]
    have hn := List.nodup_cons.mp hl
    obtain ⟨i1, i2⟩ := ih hn.2 (z.modQueue x (fun y => { y with turn := if x ≠ q ∧ z.queWaits x then y.turn + 1 else 0 })) (fun j => hz j)
    refine ⟨fun j hj => ?_, fun j hj => ?_⟩
    · rcases List.mem_cons.mp hj with rfl | hj
      · rw [i2 _ hn.1, State.queue_modQueue, if_pos rfl]; dsimp only; rw [hz]
      · rw [i1 _ hj, State.queue_modQueue, if_neg (fun h => hn.1 (by rw [← h]; exact hj))]
    · rw [i2 _ (fun h => hj (List.mem_cons_of_mem _ h)), State.queue_modQueue, if_neg (fun h => hj (by rw [h]; exact List.mem_cons_self ..))]
theorem scoreboard_one (s : State) (a : TAcc) : ∃ w, (s.scoreboard [a]).2 = [{ a with wait := w }] ∧ ∀ k, k ≠ rOff .acc a.cl 0x7C → k ≠ rOff .acc a.cl 0x80 → (s.scoreboard [a]).1.rd k = s.rd k := by
  refine ⟨s.accWaits s.ops a, rfl, fun k h1 h2 => ?_⟩
  show (if s.accWaits s.ops a then s.bump .acc a.cl 0x7C 1 else if s.accOverlaps s.ops a then s.bump .acc a.cl 0x80 1 else s).rd k = _
  split
  · exact State.rd_bump_other _ _ _ _ _ _ h1
  · split
    · exact State.rd_bump_other _ _ _ _ _ _ h2
    · rfl
theorem scoreboard_nextOp (s : State) (l : List TAcc) : (s.scoreboard l).1.nextOp = s.nextOp := by
  induction l generalizing s with
  | nil => rfl
  | cons a r ih =>
    show ((if s.accWaits s.ops a then s.bump .acc a.cl 0x7C 1 else if s.accOverlaps s.ops a then s.bump .acc a.cl 0x80 1 else s).scoreboard r).1.nextOp = _
    rw [ih]
    split
    · exact bump_keep (fun s => s.nextOp) (fun _ _ _ => rfl) _ _ _ _ _
    · split
      · exact bump_keep (fun s => s.nextOp) (fun _ _ _ => rfl) _ _ _ _ _
      · rfl
theorem clu_mod (s : State) (c k : Nat) (f : Clu → Clu) : (s.modClu c f).clu k = if k = c then f (s.clu c) else s.clu k := by
  unfold State.modClu; rw [State.clu_setClu]
theorem sigCount_keep {β : Type} (g : State → β) (h3 : ∀ s o v, g (State.wr s o v) = g s) (s : State) (img : List Byte) : g (s.sigCount img) = g s := bump_keep g h3 _ _ _ _ _
theorem stageSigs_keep {β : Type} (g : State → β) (h3 : ∀ s o v, g (State.wr s o v) = g s) (s : State) (e : Entry) (img : List Byte) : g (s.stageSigs e img) = g s := by
  unfold State.stageSigs
  split
  · exact sigCount_keep g h3 _ _
  · exact sigCount_keep g h3 _ _
  · split
    · rfl
    · exact sigCount_keep g h3 _ _
  · rfl
theorem stage_order (s : State) (e : Entry) (img : List Byte) (h : entryBad e [2] false [(8, 12)] false = none) (hn : ¬ (e.p 16 4 < 17472 ∨ e.p 16 4 > 8388608 ∨ e.p 16 4 % 64 ≠ 0)) :
    s.stageCheck e img = firstBad
      [(decide (e.p 8 8 % 64 ≠ 0), .align), (s.locked 5, .lock), (s.sec.op != 0, .busy), (!fwHeader img || fwLen img != e.p 16 4, .value),
       (fwSigFails img != 0, .sig), (decide (fwSvn img < s.sec.svnMin), .lock)] := by
  unfold State.stageCheck; dsimp only; rw [h]; dsimp only; rw [if_neg hn]; rfl
theorem due_fold (s : State) (l : List Nat) (hl : l.Nodup) : ∀ z : State, (∀ j, z.fenced j = s.fenced j) →
    ∀ j, j ∈ l → ((l.foldl (fun s k => s.modCmp k (fun x => { x with fw := false, fwDue := !s.fenced (uCmp k) })) z).cmp j).fw = false ∧
      ((l.foldl (fun s k => s.modCmp k (fun x => { x with fw := false, fwDue := !s.fenced (uCmp k) })) z).cmp j).fwDue = !s.fenced (uCmp j) := by
  induction l with
  | nil => intro z _ j h; exact absurd h List.not_mem_nil
  | cons x xs ih =>
    intro z hz j hj
    have hn := List.nodup_cons.mp hl
    rw [List.foldl_cons]
    rcases List.mem_cons.mp hj with h | h
    · subst h
      have hk : ∀ (l : List Nat) (y : State), j ∉ l → (l.foldl (fun s k => s.modCmp k (fun x => { x with fw := false, fwDue := !s.fenced (uCmp k) })) y).cmp j = y.cmp j := by
        intro l
        induction l with
        | nil => intro y _; rfl
        | cons a as ih2 =>
          intro y hy
          rw [List.foldl_cons, ih2 _ (fun h => hy (List.mem_cons_of_mem _ h)), State.cmp_modCmp, if_neg (fun h => hy (by rw [h]; exact List.mem_cons_self ..))]
      rw [hk xs _ hn.1, State.cmp_modCmp, if_pos rfl]
      exact ⟨rfl, by rw [hz]⟩
    · exact ih hn.2 (z.modCmp x _) (fun k => hz k) j h
theorem bit_and (a b k : Nat) : bit (a &&& b) k = (bit a k && bit b k) := by
  unfold bit; exact Nat.testBit_and a b k
theorem setMarch_frame (s : State) (m u st alg rep un : Nat) : SameMemory s (s.setMarch m u st alg rep un) := by
  unfold State.setMarch; dsimp only; split
  · exact (setReg_frame _ _ _ _ _).1
  · exact (setReg_frame _ _ _ _ _).1
theorem take_frame (s : State) (off v : Nat) : SameMemory s (s.takeLow off v).1 ∧ SameRegs s (s.takeLow off v).1 (fun _ => False) ∧ ∀ o, (s.takeLow off v).1.regBad o = s.regBad o := by
  unfold State.takeLow; dsimp only
  split
  · split
    · exact ⟨⟨fun _ => rfl, fun _ => rfl⟩, fun _ _ => rfl, fun _ => rfl⟩
    · exact ⟨⟨fun _ => rfl, fun _ => rfl⟩, fun _ _ => rfl, fun _ => rfl⟩
  · exact ⟨⟨fun _ => rfl, fun _ => rfl⟩, fun _ _ => rfl, fun _ => rfl⟩
theorem hif_on {s : State} {o v : Nat} (hp : pageAt (o / 4096) = some (.hif, 0)) (h : s.regBad o v = none) : s.pageOn .hif 0 = true := by
  unfold State.regBad at h; rw [hp] at h; dsimp only at h
  cases hq : s.pageOn .hif 0 with
  | true => rfl
  | false => rw [hq, if_pos (by decide)] at h; cases h
theorem hif_low {s : State} (h : s.pageOn .hif 0 = true) : (s.regBad (rOff .hif 0 0x40) 0 == some .power) = false ∧ (s.regBad (rOff .hif 0 0x50) 0 == some .power) = false := by
  unfold State.regBad
  rw [show pageAt (rOff .hif 0 0x40 / 4096) = some (.hif, 0) from by decide, show pageAt (rOff .hif 0 0x50 / 4096) = some (.hif, 0) from by decide]
  dsimp only
  rw [h]; decide
theorem begin_early {s : State} {e : Entry} {op : Nat} (h1 : s.canStart e op = true) (h2 : s.accepted e = false) (act : State → State) : s.begin e op act = (s.marked e).complete e .state 0 0 := by
  unfold State.begin; rw [if_pos h1]; dsimp only
  rw [show (s.marked e).accepted e = false from h2, if_neg (by decide)]
theorem begin_not {s : State} {e : Entry} {op : Nat} (h1 : s.canStart e op = false) (act : State → State) : s.begin e op act = s := by
  unfold State.begin; rw [h1, if_neg (by decide)]
theorem entryBad_cases (e : Entry) (qs : List Nat) (need : Bool) (used : List (Nat × Nat)) (rsvd : Bool) :
      (e.queue ∉ qs → entryBad e qs need used rsvd = some .opcode) ∧
      (e.queue ∈ qs → (31 < e.ctx ∧ e.ctx ≠ 255 ∨ need = true ∧ e.ctx = 255) → entryBad e qs need used rsvd = some .value) ∧
      (e.queue ∈ qs → ¬ (31 < e.ctx ∧ e.ctx ≠ 255 ∨ need = true ∧ e.ctx = 255) → (1 < e.flags ∨ rsvd = true) → entryBad e qs need used rsvd = some .rsvd) ∧
      (∀ i, 8 ≤ i → i < 64 → fieldLe e.bytes i 1 ≠ 0 → (∀ u, u ∈ used → i < u.1 ∨ u.1 + u.2 ≤ i) → entryBad e qs need used rsvd ≠ none) := by
  refine ⟨fun h => ?_, fun h h2 => ?_, fun h h2 h3 => ?_, fun i h1 h2 h3 h4 => ?_⟩
  · unfold entryBad; rw [if_pos (by simpa using h)]
  · unfold entryBad; rw [if_neg (by simpa using h), if_pos h2]
  · unfold entryBad; rw [if_neg (by simpa using h), if_neg h2, if_pos]
    rcases h3 with h3 | h3
    · simp [h3]
    · simp [h3]
  · unfold entryBad
    split
    · exact fun h => by cases h
    · split
      · exact fun h => by cases h
      · rw [if_pos]
        · exact fun h => by cases h
        · have : (List.range 64).any (fun i => decide (8 ≤ i) && !used.any (fun u => decide (u.1 ≤ i ∧ i < u.1 + u.2)) && fieldLe e.bytes i 1 != 0) = true := by
            rw [List.any_eq_true]
            refine ⟨i, List.mem_range.mpr h2, ?_⟩
            have : used.any (fun u => decide (u.1 ≤ i ∧ i < u.1 + u.2)) = false := by
              rw [List.any_eq_false]; intro u hu
              have := h4 u hu; simp; omega
            rw [this, decide_eq_true h1]; simpa using h3
          rw [this]; simp

end Sys2Proof.Machine
end

