-- ==== Sys2Proof/WellFormed.lean ====
section
/-!
DEFINITION. Sys2Proof/WellFormed.lean: the ranges a command's operands lie in (how many contexts, streams, clusters,
arrays, ports and so on the LV8 has: R19 to R21, R34, R35, R59, R204, R324, R497).
-/
namespace Sys2Proof

/-- A submission entry: 64 bytes from one of the four queues (R52, R59). -/
def Entry.wf (e : Entry) : Bool := decide (e.queue < 4) && decide (e.bytes.length = 64)

/-- A host request to BAR2 stays within 4 GiB (R38, R267). -/
def MemAccess.wf : MemAccess → Bool
  | .read o n => decide (o + n ≤ 2 ^ 32)
  | .write o d => decide (o + d.length ≤ 2 ^ 32)

/-- The header frame of a pushed block: 48 bytes of digest, at most 64 KiB of data (R380). -/
def PushHdr.wf (h : PushHdr) : Bool := decide (h.digest.length = 48) && decide (h.len ≤ 65536) && decide (h.index < h.count)

/-- A well-formed command. -/
def Instr.wf : Instr → Bool
  | .devCommit e => e.wf
  | .ctxCreate e => e.wf
  | .ctxLoad e _ _ => e.wf
  | .ctxProgram e _ => e.wf
  | .ctxSwitch e => e.wf
  | .ctxSave e => e.wf
  | .ctxRestore e _ _ => e.wf
  | .ctxDestroy e => e.wf
  | .run e => e.wf
  | .slotDesc e _ => e.wf
  | .slotClose e => e.wf
  | .calRun e => e.wf
  | .testRun e => e.wf
  | .marchRun e => e.wf
  | .colRead e => e.wf
  | .colWrite e _ => e.wf
  | .hkcUrgent e => e.wf
  | .digestQuery e => e.wf
  | .census e => e.wf
  | .fwStage e _ => e.wf
  | .fwActivate e => e.wf
  | .unitFence e => e.wf
  | .unitUnfence e => e.wf
  | .attest e => e.wf
  | .queueFetch bytes => decide (bytes.length = 64)
  | .statusRecordWrite => true
  | .nop ctx stream => decide (ctx < 32) && decide (stream < 16)
  | .loop ctx stream => decide (ctx < 32) && decide (stream < 16)
  | .endloop ctx stream => decide (ctx < 32) && decide (stream < 16)
  | .brc ctx stream => decide (ctx < 32) && decide (stream < 16)
  | .wait ctx stream => decide (ctx < 32) && decide (stream < 16)
  | .waitMet ctx stream _ => decide (ctx < 32) && decide (stream < 16)
  | .waitLimit ctx stream => decide (ctx < 32) && decide (stream < 16)
  | .sig ctx stream => decide (ctx < 32) && decide (stream < 16)
  | .halt ctx stream => decide (ctx < 32) && decide (stream < 16)
  | .seta ctx stream => decide (ctx < 32) && decide (stream < 16)
  | .adda ctx stream => decide (ctx < 32) && decide (stream < 16)
  | .mvm ctx stream => decide (ctx < 32) && decide (stream < 16)
  | .mvms ctx stream => decide (ctx < 32) && decide (stream < 16)
  | .refread ctx stream => decide (ctx < 32) && decide (stream < 16)
  | .pmm ctx stream => decide (ctx < 32) && decide (stream < 16)
  | .pmmc ctx stream => decide (ctx < 32) && decide (stream < 16)
  | .pout ctx stream => decide (ctx < 32) && decide (stream < 16)
  | .drain ctx stream => decide (ctx < 32) && decide (stream < 16)
  | .argx ctx stream => decide (ctx < 32) && decide (stream < 16)
  | .asave ctx stream => decide (ctx < 32) && decide (stream < 16)
  | .arestore ctx stream => decide (ctx < 32) && decide (stream < 16)
  | .azero ctx stream => decide (ctx < 32) && decide (stream < 16)
  | .move ctx stream => decide (ctx < 32) && decide (stream < 16)
  | .gather ctx stream => decide (ctx < 32) && decide (stream < 16)
  | .pack ctx stream => decide (ctx < 32) && decide (stream < 16)
  | .rank ctx stream => decide (ctx < 32) && decide (stream < 16)
  | .chkpt ctx stream => decide (ctx < 32) && decide (stream < 16)
  | .digest ctx stream => decide (ctx < 32) && decide (stream < 16)
  | .testvec ctx stream => decide (ctx < 32) && decide (stream < 16)
  | .cmpr ctx stream => decide (ctx < 32) && decide (stream < 16)
  | .xsend ctx stream => decide (ctx < 32) && decide (stream < 16)
  | .xrecv ctx stream => decide (ctx < 32) && decide (stream < 16)
  | .invocationStart ctx => decide (ctx < 32)
  | .invocationEnd ctx => decide (ctx < 32)
  | .invocationStop ctx => decide (ctx < 32)
  | .abort cmp _ => decide (cmp < 17)
  | .vectorStart cluster array _ => decide (cluster < 64) && decide (array < 68)
  | .vectorResult cluster array _ => decide (cluster < 64) && decide (array < 68)
  | .tileOpRelease cluster tile => decide (cluster < 64) && decide (tile < 512)
  | .clusterEntryRelease cluster _ => decide (cluster < 64)
  | .proofOpRetire cluster _ _ => decide (cluster < 64)
  | .drainRetire cluster _ => decide (cluster < 64)
  | .accOpRetire cluster => decide (cluster < 64)
  | .moveRetire cluster => decide (cluster < 64)
  | .engineOpRetire engine _ => decide (engine < 3)
  | .refreadDone cluster array _ _ => decide (cluster < 64) && decide (array < 68)
  | .chkptRecord ctx stream => decide (ctx < 32) && decide (stream < 16)
  | .digestDone => true
  | .testvecDone cluster => decide (cluster < 64)
  | .cmprDone cluster => decide (cluster < 64)
  | .xsendAccepted => true
  | .xrecvMessage cluster => decide (cluster < 64)
  | .fronthaulFrame port _ _ _ => decide (port < 4)
  | .pauseTransmit port _ => decide (port < 4)
  | .pauseRepeat port => decide (port < 4)
  | .fhLinkChange port _ => decide (port < 4)
  | .s0BufferAssign carrier => decide (carrier < 4)
  | .egressWrite carrier => decide (carrier < 4)
  | .slotCompletion carrier => decide (carrier < 4)
  | .driftClockRead cluster array _ _ _ _ => decide (cluster < 64) && decide (array < 68)
  | .referenceStep ctx => decide (ctx < 32)
  | .statWindowClose ctx => decide (ctx < 32)
  | .statFit ctx => decide (ctx < 32)
  | .converterSelfCal cluster array _ _ _ => decide (cluster < 64) && decide (array < 68)
  | .twinCheck cluster array _ _ => decide (cluster < 64) && decide (array < 68)
  | .refreshStart cluster => decide (cluster < 64)
  | .arrayProgrammed cluster array _ _ _ _ _ _ => decide (cluster < 64) && decide (array < 68)
  | .domainRepowerRestore ctx => decide (ctx < 32)
  | .arrayTest cluster array _ => decide (cluster < 64) && decide (array < 68)
  | .clusterTest cluster _ => decide (cluster < 64)
  | .clusterTestPreempt cluster _ => decide (cluster < 64)
  | .digestRound ctx => decide (ctx < 32)
  | .verifiedReadback cluster array _ _ _ => decide (cluster < 64) && decide (array < 68)
  | .faultEvent _ _ => true
  | .unitReturn _ _ _ _ => true
  | .cmpReplaceStart => true
  | .cmpCopyDone => true
  | .cmpReload => true
  | .cmpReloadDone _ => true
  | .cmpCarryEnd => true
  | .marchTestDone memory unit _ => decide (memory ≤ 3) && decide (unit < 64)
  | .lpxTrainingDone channel density => decide (channel < 2) && decide (density ≤ 3)
  | .lpxPatrolScrub channel outcome => decide (channel < 2) && decide (outcome.found ≤ 2)
  | .lpxMr4Poll channel _ => decide (channel < 2)
  | .colophonStepStart => true
  | .colophonStepEnd => true
  | .colophonWriteTimeout => true
  | .powerOnHour => true
  | .holdupMeasureDone _ _ => true
  | .holdupReady _ => true
  | .holdupDroop _ => true
  | .eusableUpdate _ => true
  | .vddAonFall _ => true
  | .railDroop => true
  | .perstNAssert => true
  | .perstNRelease role => decide (role < 4)
  | .bootStageComplete => true
  | .hotReset => true
  | .aspmL1Entry => true
  | .d3hotEntry => true
  | .diodeReading _ => true
  | .graceExpiry => true
  | .sensorFaultTimeout => true
  | .thermalTrip => true
  | .thermalRestart => true
  | .hkcEntryStart => true
  | .hkcOutput conv _ _ => decide (conv < 2)
  | .hkcWrap => true
  | .hkcTwinCheck _ _ => true
  | .hkcSelfCal _ => true
  | .hkcUrgentResult _ _ => true
  | .qfreqRelock quadrant => decide (quadrant < 4)
  | .domainOffDone domain => decide (domain < 50)
  | .domainOnDone domain => decide (domain < 50)
  | .crossingClose src peer _ _ => decide (1 ≤ src ∧ src ≤ 18) && decide (1 ≤ peer ∧ peer ≤ 18) && decide (src ≠ peer)
  | .crossingReopen src peer => decide (1 ≤ src ∧ src ≤ 18) && decide (1 ≤ peer ∧ peer ≤ 18) && decide (src ≠ peer)
  | .daisyLinkUp port peer => decide (port < 2) && decide (peer < 16)
  | .enumReceived port pos => decide (port < 2) && decide (pos ≤ 16)
  | .endReceived pos => decide (pos ≤ 16)
  | .positionLoss => true
  | .daisyNak port => decide (port < 2)
  | .laneFail port lane => decide (port < 2) && decide (lane < 9)
  | .daisyLinkReset port healthy => decide (port < 2) && decide (healthy ≤ 9)
  | .collMessageReceived _ => true
  | .remoteRegAccess _ offset size _ => decide (offset < 0x2000000) && decide (1 ≤ size ∧ size ≤ 4096)
  | .tunnelRequest position _ => decide (position ≤ 16)
  | .tunnelTimeout e => e.wf
  | .pushBlock hdr _ => hdr.wf
  | .pushDone => true
  | .pushFail _ position => decide (position ≤ 16)
  | .censusStart => true
  | .censusToken _ => true
  | .censusFinish _ _ => true
  | .configDigestPublish => true
  | .lowWordRead offset => decide (offset < 0x2000000)
  | .lowWordWrite offset _ => decide (offset < 0x2000000)
  | .highWordWrite offset _ => decide (offset < 0x2000000)
  | .bar0OddAccess _ offset size => decide (offset < 0x2000000) && decide (1 ≤ size ∧ size ≤ 4096)
  | .bar0Unmapped _ offset => decide (offset < 0x2000000)
  | .bar2Access a => a.wf
  | .rotateAliasAccess a => a.wf
  | .setAliasWrite a => a.wf
  | .clearAliasWrite a => a.wf
  | .apertureAccess a => a.wf
  | .remoteWindowAccess _ offset size _ => decide (offset < 0x2000000) && decide (1 ≤ size ∧ size ≤ 4096)
  | .registerWrite offset _ => decide (offset < 0x2000000)
  | .sqDoorbell queue _ => decide (queue < 4)
  | .cqHeadWrite queue _ => decide (queue < 4)
  | .queueEnable queue _ => decide (queue < 4)
  | .statctrlWrite _ => true
  | .arrCntclr cluster _ => decide (cluster < 64)
  | .fhpCntclr port _ => decide (port < 4)
  | .rbselGo cluster _ => decide (cluster < 64)
  | .readbackArrive cluster => decide (cluster < 64)
  | .rbdataRead cluster size => decide (cluster < 64) && decide (1 ≤ size ∧ size ≤ 8)
  | .maintWrite cluster _ => decide (cluster < 64)
  | .slack _ => true
  | .periodWrite _ => true
  | .passwordChange _ => true
  | .remeasure _ => true
  | .scalgo _ => true
  | .statcap _ => true
  | .statactClear _ => true
  | .hkcStagedWrite offset _ => decide (offset < 0x2000000)
  | .hkcCtrlRun _ => true
  | .hkcDataRead entry size => decide (entry < 32) && decide (1 ≤ size ∧ size ≤ 8)
  | .peakclr _ => true
  | .tripWrite _ => true
  | .qfreqWrite _ => true
  | .powerRequestWrite offset _ => decide (offset < 0x2000000)
  | .fhpCfgWrite port _ => decide (port < 4)
  | .galMapWrite offset _ => decide (offset < 0x2000000)
  | .dsyCfgWrite port _ => decide (port < 2)
  | .pushGo _ => true
  | .align _ => true
  | .rbcommit _ => true
  | .lockWrite _ => true
  | .lockbootWrite _ => true
  | .tapInstruction _ => true
  | .arrayProbe _ => true
  | .mbistAccess _ => true
  | .scanLockStatus => true
  | .powerUp => true
  | .railRecovery role => decide (role < 4)
  | .pcieLinkUp => true
  | .attestReportDone => true
  | .fwStageDone _ _ => true

end Sys2Proof
end

