-- ==== Sys2Proof/Tests/Slice0.lean ====
section
/-!
SUPPORT. Sys2Proof/Tests/Slice0.lean: the model's own tests: ill-formed commands refused by WellFormed, results that the manual
gives, and for each obligation a concrete state and operands that meet its hypotheses.
-/
namespace Sys2Proof.Tests

open Sys2Proof Sys2Proof.Machine

set_option Elab.async false

/-! ### Small states -/

/-- A submission entry of a queue: opcode, flags 0, tag 0, context, then parameter bytes from byte 8. -/
def ent (q op ctx : Nat) (ps : List (Nat × Nat)) : Entry :=
  { queue := q, bytes := (List.range 64).map (fun i =>
      BitVec.ofNat 8 (if i = 0 then op else if i = 4 then ctx else ((ps.find? (fun p => p.1 == i)).map (fun p => p.2)).getD 0)) }

/-- A device that serves (boot stage 10, supplies up, PERST_N released). -/
def up : State := { perst := false, sec := { stage := 10 } }

/-- A device with one entry fetched and not begun. -/
def fetched (s : State) (e : Entry) : State := s.modQueue e.queue (fun _ => { inflight := [{ e := e, started := false }] })

/-- Context 0 with an invocation in flight, whose one stream stands at an instruction word. -/
def running (s : State) (w : Nat) : State :=
  s.setCtx 0 { ex := true, state := 1, active := some 0, prog := [[w, 0]], cmps := [0],
               inv := some { slot := false, entry := ent 0 9 0 [], num := 1, gen := 0, gennum := 0, streams := [{ cmp := 0 }] } }

/-- The invocation of `running`. -/
def inv0 : Inv := { slot := false, entry := ent 0 9 0 [], num := 1, gen := 0, gennum := 0, streams := [{ cmp := 0 }] }

theorem of_isSome {α β γ : Type} {o : Option (α × β × γ)} (h : o.isSome = true) : ∃ a b c, o = some (a, b, c) := by
  cases o with
  | none => cases h
  | some x => exact ⟨x.1, x.2.1, x.2.2, rfl⟩

/-- Every opcode of R232 can be the instruction that a stream issues next (ControlInstructionsIssue, RegisterInstructionsIssue,
SemaphoreInstructions, ArrayAndAccumulatorInstructionsIssue, EngineInstructionsIssue, CheckpointHoldsThenRecords). -/
theorem wit_issuable : ∀ op ∈ [0x00, 0x01, 0x02, 0x03, 0x04, 0x05, 0x06, 0x07, 0x08, 0x10, 0x11, 0x12, 0x20, 0x21, 0x22, 0x30, 0x31, 0x32, 0x33,
      0x34, 0x40, 0x41, 0x42, 0x43, 0x50, 0x51, 0x52, 0x53, 0x60, 0x61],
    ∃ v st w, (running up (op * 2 ^ 120)).issuable 0 0 op = some (v, st, w) := by
  intro op h
  exact of_isSome (by revert op h; decide +kernel)

/-- ENDLOOP with a loop of two trips open, and with one of one trip (ControlInstructionsIssue). -/
theorem wit_endloop : ∀ n ∈ [1, 2],
    (((running up (0x02 * 2 ^ 120)).setStream 0 0 { cmp := 0, loops := [(n, 0)] }).issuable 0 0 0x02).map (fun x => x.2.1.loops) = some [(n, 0)] := by
  decide +kernel

/-- SIG at the highest value a semaphore takes, and beyond it: local semaphore 5, and global semaphore 5 (SemaphoreInstructions). -/
theorem wit_sig :
    (running up (0x05 * 2 ^ 120 + 5 * 2 ^ 104 + 65535)).issuable 0 0 0x05 = some (inv0, { cmp := 0 }, 0x05 * 2 ^ 120 + 5 * 2 ^ 104 + 65535) ∧
    wRglob (0x05 * 2 ^ 120 + 5 * 2 ^ 104 + 65535) = false ∧ FMap.get 0 ({ cmp := 0 } : StreamSt).sems 5 + 65535 ≤ 65535 ∧
    (let s := (running up (0x05 * 2 ^ 120 + 2 ^ 113 + 5 * 2 ^ 104 + 1)).setGs 5 65534
     (s.issuable 0 0 0x05).isSome = true ∧ s.gs 5 + 1 ≤ 65535) ∧
    (let s := (running up (0x05 * 2 ^ 120 + 2 ^ 113 + 5 * 2 ^ 104 + 1)).setGs 5 65535
     (s.issuable 0 0 0x05).isSome = true ∧ s.gs 5 + 1 > 65535) := by decide +kernel

/-- A WAIT for the value 1 of local semaphore 5; the same wait under way and met; and one that waits too long
(SemaphoreInstructions). -/
theorem wit_wait :
    (running up (0x04 * 2 ^ 120 + 5 * 2 ^ 104 + 1)).issuable 0 0 0x04 = some (inv0, { cmp := 0 }, 0x04 * 2 ^ 120 + 5 * 2 ^ 104 + 1) ∧
    waitOf inv0 { cmp := 0 } (0x04 * 2 ^ 120 + 5 * 2 ^ 104 + 1) = .inr { glob := false, ix := 5, v := 1, sub := true } ∧
    (let s := ((running up 0).setStream 0 0 { cmp := 0, sems := [(5, 1)], waiting := some { glob := false, ix := 5, v := 1, sub := true } }).setReg .cmp 0 0x48 4
     ((s.ctx 0).inv.map (fun v => (decide (0 < v.streams.length), v.stop, v.heldTest))) = some (true, none, false) ∧
     (s.stream 0 0).waiting = some { glob := false, ix := 5, v := 1, sub := true } ∧ s.semVal (s.stream 0 0) { glob := false, ix := 5, v := 1, sub := true } ≥ 1 ∧
     s.reg .cmp (s.stream 0 0).page 0x48 ≠ 0) := by decide +kernel

/-- An operation of stream 0 of context 0 in cluster 0. -/
def op0 (w : Nat) : Op := { id := 0, ctx := 0, stream := 0, cmp := 0, word := w, stage := 1, clusters := [0], arrays := [0], tiles := [0] }

/-- The operation under way in its invocation. -/
def with0 (o : Op) : State := (running up o.word).withOps [o]

/-- The array serves context 0 with 128 rows. -/
def served (s : State) : State := s.modArr 0 (fun a => { a with st := 3, owned := true, layer := { rows := 128 } })

/-- A held CHKPT whose stream has nothing else under way (CheckpointHoldsThenRecords). -/
theorem wit_chkpt : (running up (0x50 * 2 ^ 120)).chkptBad (effA { cmp := 0 } (0x50 * 2 ^ 120) 64) = none ∧
    (let s := with0 (op0 (0x50 * 2 ^ 120))
     (s.ctx 0).inv = some { inv0 with streams := [{ cmp := 0 }] } ∧ op0 (0x50 * 2 ^ 120) ∈ s.ops ∧ (op0 (0x50 * 2 ^ 120)).opc = 0x50 ∧
     (∀ x ∈ s.ops, x.ctx = 0 → x.stream = 0 → x = op0 (0x50 * 2 ^ 120)) ∧ (op0 (0x50 * 2 ^ 120)).a1 < 2 ^ 63) := by decide +kernel

/-- An MVM of one vector on a serving array (VectorStarts), and its result (VectorResults). -/
theorem wit_vector :
    (let s := served (with0 (op0 (0x10 * 2 ^ 120)))
     (s.arr 0).st = 3 ∧ s.cluOn 0 = true ∧ s.relocking 0 = false ∧ (s.arr 0).res.length < 2 ∧ (s.arr 0).testDue = false ∧ (s.arr 0).cmpDue = false ∧
     s.nextFor 0 0 = some (op0 (0x10 * 2 ^ 120), 0) ∧ (op0 (0x10 * 2 ^ 120)).opc ≠ 0x12 ∧ s.vecBad (op0 (0x10 * 2 ^ 120)) (s.arr 0).layer 0 = none) ∧
    (let r : VecRes := { op := 0, copy := 0, pos := 0, vals := [[1]], coarse := [false], clip := [false], cks := [] }
     let s := (served (with0 (op0 (0x10 * 2 ^ 120)))).modArr 0 (fun a => { a with res := [r] })
     (s.arr 0).res = [r] ∧ s.getOp 0 = some (op0 (0x10 * 2 ^ 120)) ∧ s.deliverable 0 (op0 (0x10 * 2 ^ 120)) r = true ∧
     (op0 (0x10 * 2 ^ 120)).arrays.length < 2) ∧
    (let o := { op0 (0x10 * 2 ^ 120) with arrays := [0, 1] }
     let r : VecRes := { op := 0, copy := 0, pos := 0, vals := [[1]], coarse := [false], clip := [false], cks := [] }
     let s := (served (with0 o)).modArr 0 (fun a => { a with res := [r] })
     (s.arr 0).res = [r] ∧ s.getOp 0 = some o ∧ s.deliverable 0 o r = true ∧ 2 ≤ o.arrays.length ∧ o.hold.find? (fun h => h.pos == r.pos) = none) := by
  decide +kernel

/-- A REFREAD on a serving array; an access that waits; a held operation that fits (ReferenceReadsEndAndTilesRelease). -/
theorem wit_refread_release :
    (let s := served (with0 (op0 (0x12 * 2 ^ 120)))
     s.nextFor 0 0 = some (op0 (0x12 * 2 ^ 120), 0) ∧ (op0 (0x12 * 2 ^ 120)).opc = 0x12 ∧ (s.arr 0).st = 3) ∧
    (let o := { op0 (0x30 * 2 ^ 120) with acc := [{ cl := 0, tile := 0, write := false, add := false, wait := true }] }
     (with0 o).ops.find? (fun x => x.acc.any (fun a => a.cl == 0 && a.tile == 0 && a.wait)) = some o) ∧
    (let o := { op0 (0x30 * 2 ^ 120) with stage := 0 }
     let s := (with0 o).setStream 0 0 { cmp := 0, held := some 0 }
     s.ops.find? (fun x => x.stage == 0 && x.clusters.contains 0) = some o ∧ ((s.ctx 0).inv.map (fun v => (v.stop, decide (0 < v.streams.length)))) = some (none, true) ∧
     (s.stream 0 0).held = some 0 ∧ s.accepts o (s.ops.takeWhile (fun x => x.id != o.id)) = true) := by decide +kernel

/-- Released output and accumulator operations on a tile whose 256 entries hold their right parity, and on one with a wrong bit
(DrainWritesItsValues, ArgxWritesItsWinner, TileOperationsRetire). -/
theorem wit_output :
    (∀ op ∈ [0x30, 0x31], let s := with0 (op0 (op * 2 ^ 120))
      s.ops.find? (fun o => o.clusters == [0] && (o.opc == 0x30 || o.opc == 0x31) && o.free) = some (op0 (op * 2 ^ 120)) ∧
      (s.tile 0).badPar 1 = none ∧ wX5 (op * 2 ^ 120) = false) ∧
    (let w := 0x31 * 2 ^ 120 + 2 ^ 117
     (with0 (op0 w)).badIn 0 8 = none ∧ wX5 w = true) ∧
    ((with0 (op0 (0x30 * 2 ^ 120))).modTile 0 (fun t => { t with ent := [(0, 1)] })).tile 0 = { ent := [(0, 1)] } ∧ ({ ent := [(0, 1)] } : Tile).badPar 1 = some 0 ∧
    (∀ op ∈ [0x32, 0x33, 0x34], let o := op0 (op * 2 ^ 120)
      (with0 o).ops.find? (fun o => o.clusters == [0] && (o.opc == 0x32 || o.opc == 0x33 || o.opc == 0x34) && o.free) = some o ∧
      o.tiles.findSome? (fun t => (((with0 o).tile (tkey 0 t)).badPar 256).map (fun e => (t, e))) = none ∧ (with0 o).badIn o.a1 (68 + 1296 * o.tiles.length) = none ∧
      o.tiles.Nodup) := by decide +kernel

/-- A released CMPR of one entry (CompareDecides). -/
theorem wit_cmpr : let o := { op0 (0x53 * 2 ^ 120) with tiles := [0, 1] }
    (with0 o).ops.find? (fun o => o.clusters.headD 64 == 0 && o.opc == 0x53 && o.free) = some o ∧
    ((with0 o).tile (tkey 0 0)).badPar 1 = none ∧ ((with0 o).tile (tkey 0 1)).badPar 1 = none := by decide +kernel

/-- A PMM, a PMMC, and a POUT whose descriptor names no rows (its check refuses it), each the earliest of its cluster; a
spilled MVM (ProofEngineRetires). -/
theorem wit_proof :
    (∀ op ∈ [0x20, 0x21, 0x22], let o := op0 (op * 2 ^ 120)
      (with0 o).ops.find? (fun o => o.clusters == [0] && o.isProof && decide (o.stage ≥ 1)) = some o ∧ o.free = true ∧ o.spilled = false) ∧
    (let s := ((with0 (op0 (0x20 * 2 ^ 120))).bump .prf 0 0x6C 0).stallAt 0 0
     s.pmmBadRow (op0 (0x20 * 2 ^ 120)) = none ∧ s.pmmBadIn (op0 (0x20 * 2 ^ 120)) = none ∧ s.pmmcBadIn (op0 (0x21 * 2 ^ 120)) = none ∧
     s.poutBad 0 (op0 (0x22 * 2 ^ 120)) (s.poutShift 0 (op0 (0x22 * 2 ^ 120))) (s.poutDesc (op0 (0x22 * 2 ^ 120))) = some .value) := by decide +kernel

/-- 64 descriptor bytes, given by place and value. -/
def descB (ps : List (Nat × Nat)) : List Byte :=
  (List.range 64).map (fun i => BitVec.ofNat 8 (((ps.find? (fun p => p.1 == i)).map (fun p => p.2)).getD 0))

/-- A POUT of one element and no rows whose descriptor passes every check; a spilled MVM of one vector (ProofEngineRetires). -/
theorem wit_pout :
    (let o := { op0 (0x22 * 2 ^ 120) with a1 := 0x10000000, a2 := 0x10002000 }
     let s := (with0 o).engWrite 0x10000000 (descB [(0, 1), (4, 1), (8, 1), (25, 0x10), (27, 0x10)])
     let u := (s.bump .prf 0 0x6C 0).stallAt o.a1 0
     let d := u.poutDesc o
     u.poutBad 0 o (u.poutShift 0 o) d = none ∧ u.badIn o.a1 (64 + 2 * min 512 (fieldLe d 2 2)) = none ∧
     u.blockedAny (u.poutWork o (u.poutShift 0 o) d).ext = none ∧ (u.poutWork o (u.poutShift 0 o) d).bad = none) ∧
    (let o := { op0 (0x10 * 2 ^ 120) with spilled := true }
     let u := ((with0 o).bump .prf 0 0x6C 0).stallAt 0 0
     (with0 o).ops.find? (fun o => o.clusters == [0] && o.isProof && decide (o.stage ≥ 1)) = some o ∧ o.chainIx = none ∧
     u.blockedAny [((u.spillWork o).base, (u.spillWork o).n), (o.a1, ((u.spillWork o).nv * (u.spillWork o).G - 1) * (u.spillWork o).str + (u.spillWork o).rows)] = none ∧
     u.badIn (u.spillWork o).base (u.spillWork o).n = none ∧ u.spillBadIn o (u.spillWork o) = none) := by decide +kernel

/-- A MOVE of one row of zeros, and one whose descriptor is refused (MoveCopiesItsRows). -/
theorem wit_move :
    (let s := (with0 (op0 (0x40 * 2 ^ 120))).engWrite 0 (descB [(9, 0x10), (16, 64), (20, 1), (32, 1)])
     let d := s.engRead 0 64
     s.ops.find? (fun o => o.clusters == [0] && o.opc == 0x40 && decide (o.stage ≥ 1)) = some (op0 (0x40 * 2 ^ 120)) ∧ s.moveBad (op0 (0x40 * 2 ^ 120)) d = none ∧
     s.badIn 0 64 = none ∧ s.blockedAny [(descAddr d 8 0, (fieldLe d 20 4 - 1) * fieldLe d 28 4 + fieldLe d 16 4)] = none ∧ bit (fieldLe d 32 1) 0 = true) ∧
    (let s := with0 (op0 (0x40 * 2 ^ 120))
     s.moveBad (op0 (0x40 * 2 ^ 120)) (s.engRead 0 64) = some .value) ∧
    (let s := (with0 (op0 (0x40 * 2 ^ 120))).engWrite 0 (descB [(1, 0x20), (9, 0x10), (16, 64), (20, 1)])
     let d := s.engRead 0 64
     s.moveBad (op0 (0x40 * 2 ^ 120)) d = none ∧ s.blockedAny [(descAddr d 8 0, 64), (descAddr d 0 0, 64)] = none ∧ bit (fieldLe d 32 1) 0 = false ∧
     s.badIn (descAddr d 0 0) 64 = none) := by decide +kernel

/-- A GATHER of one PRB of stream 0, a PACK of one LLR, a RANK of one element; each passes its checks, and with an empty
descriptor each is refused (FixedEnginesRetire). -/
theorem wit_engines :
    (∀ q ∈ [(0, 0x41, [(10, 1), (24, 1), (30, 1), (34, 1)]), (1, 0x42, [(2, 2), (10, 1), (16, 1), (23, 5)]), (2, 0x43, [(2, 2), (10, 1), (24, 1), (28, 1)])],
      let o := op0 (q.2.1 * 2 ^ 120)
      let s := (with0 o).engWrite 0 (descB q.2.2)
      let u := (s.bump .eng q.1 0x60 0).bump .gal 0 0x70 0
      let d := u.engRead 0 64
      s.ops.find? (fun o => o.engine == some q.1 && decide (o.stage ≥ 1)) = some o ∧ u.engineBad q.1 o d = none ∧ u.badIn 0 64 = none ∧
      u.blockedAny (engineExt q.1 o d) = none ∧ (q.1 = 0 → u.gatherBadIn o d = none) ∧
      (q.1 = 1 → u.badIn (descAddr d 0 0) (fieldLe d 16 4 * (fieldLe d 22 1 + 1)) = none) ∧ (q.1 = 2 → u.rankBadIn o d = none)) ∧
    (∀ q ∈ [(0, 0x41), (1, 0x42), (2, 0x43)], let u := ((with0 (op0 (q.2 * 2 ^ 120))).bump .eng q.1 0x60 0).bump .gal 0 0x70 0
      u.engineBad q.1 (op0 (q.2 * 2 ^ 120)) (u.engRead 0 64) = some .value) := by decide +kernel

/-- A DIGEST without and with COMPARE, one over a byte of wrong parity, a TESTVEC, an XSEND and an XRECV with its message
(DigestsTestVectorsAndCollectivesEnd). -/
theorem wit_digest_test_coll :
    (∀ w ∈ [0x51 * 2 ^ 120, 0x51 * 2 ^ 120 + 2 ^ 116], let s := with0 { op0 w with a2 := 0x1000, a3 := 0x2000 }
      s.ops.find? (fun o => o.opc == 0x51 && decide (o.stage ≥ 1)) = some { op0 w with a2 := 0x1000, a3 := 0x2000 } ∧ s.badIn 0 (64 * (bits w 103 86 + 1)) = none) ∧
    (let s : State := { with0 (op0 (0x51 * 2 ^ 120)) with parBad := [(63, true)] }
     s.badIn 0 64 = some 63) ∧
    (with0 (op0 (0x52 * 2 ^ 120))).ops.find? (fun o => o.clusters == [0] && o.opc == 0x52 && decide (o.stage ≥ 1)) = some (op0 (0x52 * 2 ^ 120)) ∧
    (let s := (with0 (op0 (0x60 * 2 ^ 120))).withDsy [(0, { st := 2 })]
     s.ops.find? (fun o => o.opc == 0x60 && o.free) = some (op0 (0x60 * 2 ^ 120)) ∧ s.dsyUp 0 = true ∧ (s.tile 0).badPar 1 = none ∧
     ((s.modTile 0 (fun t => { t with ent := [(0, 1)] })).tile 0).badPar 1 = some 0) ∧
    (let o := op0 (0x61 * 2 ^ 120)
     let m := collBody 0 0 0 1 0 [0]
     let s := with0 o
     let want := fun (o : Op) (m : List Byte) => fieldLe m 0 1 == bits o.word 76 69 && fieldLe m 1 1 == bits o.word 68 65
     [o].find? (fun o => o.clusters == [0] && o.opc == 0x61 && o.free && [m ++ leBytes 8 (crc64 m)].any (want o)) = some o ∧
     takeFirst (want o) [m ++ leBytes 8 (crc64 m)] = some (m ++ leBytes 8 (crc64 m), []) ∧ s.collBad 1 (m ++ leBytes 8 (crc64 m)) = none ∧
     s.collBad 1 (m ++ leBytes 8 1) = some .digest ∧ (s.tile 0).badPar 256 = none) := by decide +kernel

/-- A serving device with a READY context 0. -/
def ready : State := up.setCtx 0 { ex := true, state := 1, prog := [[0]], cmps := [0] }

/-- A RUN that is accepted (InvocationsRun). -/
theorem wit_run : let e := ent 0 0x09 0 [(16, 1)]
    let s := fetched ready e
    (s.canStart e 0x09 = true ∧ s.accepted e = true) ∧ entryBad e [0, 1] true [(8, 20)] false = none ∧ 1 ≤ e.p 16 4 ∧ e.p 16 4 ≤ 4096 ∧
    (s.ctx e.ctx).ex = true ∧ (s.ctx e.ctx).state = 1 := by decide +kernel

/-- The trigger of a RUN. -/
def trig0 : Trig := { slot := false, entry := ent 0 0x09 0 [(16, 1)] }

/-- A context with its trigger, on a compositor in service and on a fenced one (InvocationsRun). -/
theorem wit_start : let b := (ready.modCtx 0 (fun x => { x with trigs := [trig0] })).boundary 0
    (b.ctx 0).inv = none ∧ (b.ctx 0).trigs = [trig0] ∧ (b.ctx 0).ex = true ∧ (b.ctx 0).state = 1 ∧ (b.ctx 0).gap = false ∧ (b.ctx 0).restoreHold = false ∧
    b.testHolds 0 = false ∧ b.trigReady trig0 = true ∧ (b.ctx 0).cmps.any b.cmpOut = false := by decide +kernel
theorem wit_start_fenced : let b := ((ready.modCtx 0 (fun x => { x with trigs := [trig0] })).modUnit (uCmp 0) (fun u => { u with state := 1 })).boundary 0
    (b.ctx 0).inv = none ∧ (b.ctx 0).trigs = [trig0] ∧ b.trigReady trig0 = true ∧ (b.ctx 0).cmps.any b.cmpOut = true := by decide +kernel

/-- An invocation whose stream has ended, without and with a chain open; one that stops; an ABORT with and without an invocation
(InvocationsRun). -/
theorem wit_end : let s := (running up 0).setStream 0 0 { cmp := 0, ended := true }
    ((s.ctx 0).inv.map (fun v => (v.stop, v.streams.all (fun st => st.ended)))) = some (none, true) ∧ s.ops.any (fun o => o.ctx == 0) = false ∧
    s.openChainOf 0 = none ∧ (s.modClu 3 (fun u => { u with chains := [(0, { bound := true })] })).openChainOf 0 = some 0 ∧
    findIdx (fun st => st.cmp == 0) [({ cmp := 0, ended := true } : StreamSt)] 0 = some 0 := by decide +kernel
theorem wit_stop : let s := (running up 0).modCtx 0 (fun x => x.modInv (fun v => { v with stop := some (.limit, 0, 0) }))
    ((s.ctx 0).inv.map (fun v => v.stop)) = some (some (.limit, 0, 0)) ∧ s.ops.any (fun o => o.ctx == 0 && decide (o.stage ≥ 1)) = false := by
  decide +kernel
theorem wit_abort : bits 0x80000000 30 5 = 0 ∧ bit 0x80000000 31 = true ∧ ((running up 0).ctx (bits 0x80000000 4 0)).inv = some inv0 ∧
    findIdx (fun st => st.page == 0 && !st.ended) inv0.streams 0 = some 0 ∧ inv0.streams.all (fun st => st.ended) = false ∧
    (ready.ctx (bits 0x80000000 4 0)).inv = none := by decide +kernel

/-- Port 0 enabled and promiscuous, its link up, with one eAxC field mapped to carrier 0. -/
def portOn : State := ((up.setReg .fhp 0 0x40 0x94).setReg .fhp 0 0x4C 4).modPort 0 (fun x => { x with linkUp := true })

/-- A frame of 64 bytes, by place and value. -/
def frame (ps : List (Nat × Nat)) : List Byte :=
  (List.range 64).map (fun i => BitVec.ofNat 8 (((ps.find? (fun p => p.1 == i)).map (fun p => p.2)).getD 0))

/-- EtherType of eCPRI and a right header of a U-plane packet of slot 0. -/
def uPlane : List (Nat × Nat) := [(12, 0xAE), (13, 0xFE), (14, 0x10), (17, 8), (21, 0x80), (22, 0x10)]

/-- Frames that fail each check of R302 at its boundary, a PAUSE, and one of an open slot (FramesReachTheirSlot). -/
theorem wit_frames :
    portOn.portUp 0 = true ∧ (frame uPlane).length = 64 ∧ ((frame uPlane).take 63).length < 64 ∧
    (beNat (sliceB (frame [(12, 0x88), (13, 0x08), (15, 1)]) 12 2) = 0x8808 ∧ beNat (sliceB (frame [(12, 0x88), (13, 0x08), (15, 1)]) 14 2) = 1) ∧
    portOn.addrOk 0 (frame [(13, 1)]) = false ∧
    (let fr := frame uPlane
     let u := (portOn.bump64 .fhp 0 0x68 1).bump64 .fhp 0 0x70 fr.length
     let h := u.header 0 ((vlanTags fr).1 + 2) fr
     ¬ (beNat (sliceB fr 12 2) = 0x8808) ∧ u.addrOk 0 fr = true ∧ h.ok = true ∧ u.eaxcMap 0 h.eaxc = some (0, 0) ∧
     (u.setReg .fhp 0 0x4C 0).eaxcMap 0 h.eaxc = none ∧ (u.header 0 14 (frame [(12, 0xAE), (13, 0xFE)])).ok = false ∧
     let z := u.seqSeen 0 0 0 h.seq
     (z.carrier 0).slotFor (slotIndex (z.mu 0) h) = none ∧
     (z.carrier 0).slots.any (fun l => (z.carrier 0).recent l && l.num % (slotIndex (z.mu 0) h).2 == (slotIndex (z.mu 0) h).1) = false ∧
     (let y := z.modCarrier 0 (fun x => { x with slots := [{ entry := ent 0 0x0A 0 [], num := 0, ctx := 0, map := [], closed := true }] })
      (y.carrier 0).slots.any (fun l => (y.carrier 0).recent l && l.num % (slotIndex (y.mu 0) h).2 == (slotIndex (y.mu 0) h).1) = true) ∧
     (let l : Slot := { entry := ent 0 0x0A 0 [], num := 0, ctx := 0, map := [], buf := true }
      ((z.modCarrier 0 (fun x => { x with slots := [l] })).carrier 0).slotFor (slotIndex (z.mu 0) h) = some l)) := by decide +kernel

/-- PAUSE at XOFF and XON, the port's register writes and the galley maps (FronthaulPortCommands). -/
theorem wit_port :
    (let s := (portOn.setReg .fhp 0 0x5C 0x01020001).modPort 0 (fun x => { x with occ := 2048, xoff := true })
     let r := s.reg .fhp 0 0x5C
     bit (s.reg .fhp 0 0x40) 4 = true ∧ (s.port 0).occ ≤ 1024 * bits r 22 16 ∧ 1024 * bits r 22 16 < 2049 ∧ ¬ 1024 * bits r 22 16 < 1024 ∧ 1024 ≤ 1024 * bits r 30 24 ∧
     (s.port 0).xoff = true ∧ 1024 * bits r 30 24 < (s.port 0).occ) := by decide +kernel
theorem wit_port_writes :
    up.portUp 0 = false ∧ portOn.regBad (rOff .fhp 0 0x40) 0x94 = none ∧ up.regBad (rOff .fhp 0 0x40) 0x94 = none ∧ bit (up.reg .fhp 0 0x40) 7 = false ∧
    up.regBad (rOff .fhp 0 0x64) 1 = none := by decide +kernel
theorem wit_galley_maps :
    (∀ i, i < 4 → up.regBad (0x20040 + 4 * i) 0x80000000 = none) ∧ (∀ i, i < 8 → 4 ≤ i → up.regBad (0x20040 + 4 * i) 0x80000100 = none) ∧
    (∀ i, i < 8 → (up.carrier (i % 4)).slots.any (fun l => !l.closed || (l.started && !l.ended)) = false) ∧
    (areaOf true 0x80000100).getD (0, 0) = (0, 2) ∧ (areaOf false 0x80000054).getD (0, 0) = (84, 12) ∧ up.otherAreas 4 = [] ∧ up.fenced (uSlice 0) = false ∧ up.domOn 36 = true := by
  decide +kernel

/-- A carrier with its S0 and S3 areas on. -/
def mapped : State := (ready.setReg .gal 0 0x40 0x80000000).setReg .gal 0 0x50 0x80000010

/-- A section map of one entry: one stream, one symbol, one PRB. -/
def map1 : List Byte := (List.range 16).map (fun i => if i = 4 ∨ i = 8 then 1#8 else 0#8)

/-- A described slot with that map. -/
def slot1 : Slot := { entry := ent 0 0x0A 0 [(24, 1), (26, 1), (27, 1), (36, 8)], num := 0, ctx := 0, map := map1 }

/-- SLOT_DESC, SLOT_CLOSE of an open and of an unknown slot, a buffer, an egress block and a completion (SlotsRunTheirCourse). -/
theorem wit_slots :
    (let e := ent 0 0x0A 0 [(24, 1), (26, 1), (27, 1), (36, 8)]
     let s := fetched mapped e
     (s.canStart e 0x0A = true ∧ s.accepted e = true) ∧ entryBad e [0] true [(8, 1), (12, 25)] false = none ∧ s.descCheck e = none ∧ mapBad map1 (e.p 24 2) = none) ∧
    (let e := ent 0 0x0B 0 []
     let s := (fetched mapped e).modCarrier 0 (fun x => { x with slots := [slot1] })
     (s.canStart e 0x0B = true ∧ s.accepted e = true) ∧ entryBad e [0] false [(8, 1), (12, 4)] false = none ∧ e.p 8 1 ≤ 3 ∧
     (((s.marked e).closeSlot 0 0).carrier 0).slots.reverse.any (fun l => l.num == 0 && (((s.marked e).closeSlot 0 0).carrier 0).recent l) = true ∧
     ((fetched mapped e).carrier 0).slots.reverse.find? (fun l => l.num == 0) = none) ∧
    (let s := mapped.modCarrier 0 (fun x => { x with slots := [slot1] })
     (s.carrier 0).slots.find? (fun l => !l.buf && !l.done) = some slot1 ∧ ((s.carrier 0).before 0).any (fun p => !p.ended) = false ∧ slot1.closed = false) ∧
    (let l := { slot1 with egress := [(0, 1)] }
     let s := mapped.modCarrier 0 (fun x => { x with slots := [l] })
     (s.carrier 0).slots.find? (fun l => !l.done && !l.egress.isEmpty) = some l ∧ s.blocked ((s.s3Buf 0 0).1) 64 = none ∧
     (s.modDom 36 (fun d => { d with st := 0 })).blocked ((s.s3Buf 0 0).1) 64 = some .power) ∧
    (let l := { slot1 with closed := true, ended := true, high := 64 }
     let s := mapped.modCarrier 0 (fun x => { x with slots := [l] })
     (s.carrier 0).slots.find? (fun l => !l.done) = some l ∧ l.egress = [] ∧ l.high ≠ 0) := by decide +kernel

/-- A small Thaska image: one stream that halts, one logical array of one row and 128 outputs (all weights 0) in cluster 0, and
one claimed tile; its slice's CRC-32C and its trailer come from a SHA-384 and a CRC of another hand. -/
def body0 : List Byte :=
  let ps := [(0, 84), (1, 72), (2, 75), (3, 49), (4, 1), (7, 1), (8, 64), (9, 2), (13, 4), (14, 1), (16, 1), (20, 1), (64, 1), (69, 1), (72, 32), (80, 2), (84, 64), (85, 1), (88, 32), (96, 3), (100, 128), (101, 1), (104, 128), (112, 4),
    (117, 2), (120, 16), (260, 1), (287, 6), (332, 8), (333, 16), (340, 255), (341, 255), (342, 255), (343, 255), (344, 219), (345, 100), (346, 39), (347, 8), (512, 1), (520, 1)]
  (List.range 528).map (fun i => BitVec.ofNat 8 (((ps.find? (fun p => p.1 == i)).map (fun p => p.2)).getD 0))
def img0 : List Byte := body0 ++ (leBytes 48 0x2cdec04ec2490c92ed31c01905de691bc977c6ed39155e541569989b9e677b5b18fbc79a944015c258fee1b29855528b).reverse

/-- An array of context 0's ACTIVE letter A that serves. -/
def ownedBy0 (s : State) : State := s.setArr 0 { st := 3, owned := true, layer := { w8 := true, rows := 1 } }

/-- A READY context 0 whose ACTIVE letter A, backed in host memory, holds array 0. -/
def active0 : State :=
  ownedBy0 (up.setCtx 0 { ex := true, state := 1, active := some 0, tol := 1, digper := 1, digDone := 1, prog := [[0]], cmps := [0],
                          la := { st := 3, image := img0, backing := some (false, 0) }, cal := { mask := 1 } })

/-- The entry of a context command for context 0. -/
def cmd (op : Nat) (ps : List (Nat × Nat)) : Entry := ent 2 op 0 ps
def begun (s : State) (e : Entry) : Bool := (fetched s e).canStart e e.op && (fetched s e).accepted e

/-- A drift-clock read at the consistency limit of R116 and beyond it; the steps of a calibration run; self-calibration; a twin
check; CAL_RUN with and without arrays; a refresh and a worn-out array (CalibrationProceedsAndIsChecked). -/
theorem wit_drift_read : let s := active0.modArr 0 (fun r => { r with readDue := true, twinDue := true })
    (s.arr (akey 0 0)).readDue = true ∧ s.cluOn 0 = true ∧ ((100 - 101) + (101 - 100)) * 200 ≤ 100 + 101 ∧ ((100 - 102) + (102 - 100)) * 200 > 100 + 102 ∧
    s.sensorFault = false ∧ ({ s with thm := { s.thm with st := 3 } } : State).sensorFault = true ∧ (s.arr (akey 0 0)).twinDue = true ∧ (s.arr (akey 0 0)).st ≠ 2 := by
  decide +kernel
theorem wit_cal_run : ∀ n ∈ [1, 3, 4], let s := active0.modCtx 0 (fun x => { x with cal := { run := n, mask := 1, invocs := 4096 } })
    (s.ctx 0).cal.run = n ∧ s.runArrays 0 = [0] ∧ (s.runArrays 0).any (fun k => (s.arr k).readDue) = false ∧ (s.runArrays 0).all (s.winDone 0) = true := by
  decide +kernel
theorem wit_self_cal : ({ up with sec := { stage := 6 } } : State).scalDue (akey 0 0) = true ∧ up.cluOn 0 = true := by decide +kernel
theorem wit_cal_command :
    (∀ q ∈ [(0, 0, 1), (1, 255, 2)], let e := ent 2 0x0C q.2.1 [(8, q.1), (16, q.2.2)]
     let s := fetched active0 e
     (s.canStart e 0x0C = true ∧ s.accepted e = true) ∧ entryBad e [2] false [(8, 1), (16, 8)] false = none ∧ e.p 8 1 ≤ 1 ∧ (bit (e.p 8 1) 0 = false → e.ctx ≠ 255) ∧
     e.p 16 8 ≠ 0 ∧ (∀ k, k < 64 → bit (e.p 16 8) k = true → s.cluFenced k = false) ∧ (e.ctx ≠ 255 → (s.ctx e.ctx).ex = true)) ∧
    (active0.inService 0).filter (fun k => bit 1 (k / 128)) = [0] ∧ (active0.inService 0).filter (fun k => bit 2 (k / 128)) = [] ∧
    active0.scalArrays 2 ≠ [] ∧ (active0.modDom 0 (fun d => { d with st := 0 })).scalArrays 2 = [] := by decide +kernel
theorem wit_refresh : let s := active0.modArr 0 (fun r => { r with due := true })
    s.refreshDue 0 = some 0 ∧ bit (s.reg .cal 0 0x50) 2 = true ∧ s.cluOn 0 = true ∧ (∀ b, b < 68 → (s.arr (akey 0 b)).refreshing = false) ∧ (s.arr 0).progcyc < 100000 ∧
    s.refreshTarget 0 = some 1 ∧ (s.backingSlice 0 0 0).2.isSome = true ∧ ((s.modArr 0 (fun r => { r with progcyc := 100000 })).arr 0).progcyc ≥ 100000 := by decide +kernel

/-- A pair's new values at each limit of R126: LOW, HIGH, STEP, OFFSET and accepted. -/
theorem wit_coefs : ∃ q, q < 260 ∧ ({} : Arr).active ≤ 1 ∧ 13107 * 5 < 4 * 16384 ∧ ¬ 13108 * 5 < 4 * 16384 ∧ ¬ 20480 * 4 > 5 * 16384 ∧ 20481 * 4 > 5 * 16384 ∧
    (((15564 : Nat) : Int) - (16384 : Nat)).natAbs * 20 > 16384 ∧ (((15565 : Nat) : Int) - (16384 : Nat)).natAbs * 20 ≤ 16384 ∧ (33 : Int).natAbs > 32 ∧ (-32 : Int).natAbs ≤ 32 :=
  ⟨0, by decide +kernel⟩

/-- Each context command can begin with its parameters in range (ContextCommandsBegin). -/
theorem wit_ctx_begin :
    (∀ op ∈ [0x02, 0x03, 0x04, 0x05, 0x06, 0x07, 0x08], begun active0 (cmd op []) = true) ∧
    entryBad (cmd 0x02 []) [1, 2] true [(8, 3), (16, 8)] (decide ((cmd 0x02 []).p 10 1 > 1)) = none ∧ entryBad (cmd 0x04 []) [1, 2] true [(8, 2)] false = none ∧
    entryBad (cmd 0x05 [(8, 1)]) [1, 2] true [(8, 1)] false = none ∧ entryBad (cmd 0x06 [(18, 1)]) [2] true [(8, 13)] false = none ∧
    entryBad (cmd 0x07 []) [2] true [(8, 13)] false = none ∧ entryBad (cmd 0x08 []) [1, 2] true [] false = none ∧
    (up.ctx 0).ex = false ∧ up.ctxList.length < 32 ∧ (active0.ctx 0).cmd = none ∧ (active0.ctx 0).ex = true ∧ (active0.ctx 0).state = 1 := by decide +kernel

/-- The parameters of a CTX_LOAD of `img0` from host memory into letter A. -/
def load0 : Entry := cmd 0x03 [(16, 0x40), (17, 2)]
theorem wit_load : entryBad load0 [1, 2] true [(8, 15)] (decide (load0.p 21 1 > 3)) = none ∧ load0.p 20 1 ≤ 1 ∧ load0.p 22 1 ≤ 1 ∧ load0.p 8 8 % 64 = 0 ∧
    load0.p 16 4 = 576 ∧ up.lpBadExtent false 0 576 = none ∧ up.imageFrom false 0 576 img0 = img0 := by decide +kernel
/-- The image passes on an EMPTY context, on a READY one that lacks the letter, and on a DORMANT one that held it. -/
theorem wit_load_first : let s := up.setCtx 0 { ex := true }
    s.loadCheck 0 0 576 img0 false = none ∧ (match s.fitLoad 0 img0 false false 0 with | .inr _ => true | .inl _ => false) = true := by decide +kernel
theorem wit_load_no_space : let s := (up.setCtx 0 { ex := true }).modTile 0 (fun t => { t with owned := true, ctx := 1 })
    (match s.fitLoad 0 img0 false false 0 with | .inl q => decide (q = (shortWord 1 1, 0)) | .inr _ => false) = true := by decide +kernel
theorem wit_load_staged : (up.setCtx 0 { ex := true, state := 1 }).loadCheck 0 0 576 img0 false = none := by decide +kernel
theorem wit_load_dormant : let x : Ctx := { ex := true, state := 2, tol := 1, la := { st := 3, image := img0, digest := weightDigest img0 }, prog := [[0]] }
    (up.setCtx 0 x).loadCheck 0 0 576 img0 false = none ∧ x.state = 2 ∧ x.prog ≠ [] := by decide +kernel

/-- CTX_PROGRAM of a STAGED letter, CTX_SWITCH to a RESIDENT one, CTX_SAVE with room, CTX_RESTORE of a save image that names no
letter (ContextCommandsBegin). -/
theorem wit_program : let s := active0.modCtx 0 (fun x => { x with lb := { st := 1, image := img0, backing := some (false, 0) } })
    ((s.ctx 0).letter 1).st = 1 ∧ ((s.ctx 0).letter 1).backing = some (false, 0) ∧ s.imageFrom false 0 img0.length img0 = img0 ∧
    sha384 (img0.take (img0.length - 48)) = imgTrailer img0 ∧ s.partShort 0 = 0 ∧ (s.placeAll img0 0 false false (some [])).2.2 = 0 := by decide +kernel
theorem wit_switch : ((active0.modCtx 0 (fun x => { x with lb := { st := 2 } })).ctx 0).letter 1 = { st := 2 } := by decide +kernel
theorem wit_save : (ready.ctxSaveImage 0).length ≤ 65536 := by decide +kernel
theorem wit_restore : let s := up.setCtx 0 { ex := true, state := 2 }
    let im := s.ctxSaveImage 0
    (s.ctx 0).state = 2 ∧ fieldLe im 0 4 = 0x31565343 ∧ fieldLe im 4 2 = 1 ∧ zeroAt im 20 44 = true ∧ 112 ≤ im.length ∧
    sha384 (im.take (im.length - 48)) = sliceB im (im.length - 48) 48 ∧ fieldLe im 6 1 = 0 ∧ fieldLe im 8 4 = (s.ctx 0).epoch ∧ savedImages im = [] := by decide +kernel

/-- An array in programming at both limits of its baseline and with a second bad row of a segment; a digest round; readbacks; a
repowered context (ArraysAreProgrammedAndReadBack). -/
theorem wit_programmed : let s := active0.modArr 0 (fun r => { r with st := 2, begun := true })
    (s.arr 0).st = 2 ∧ (s.arr 0).begun = true ∧ s.cluOn 0 = true ∧ (replaceRows [5] (s.arr 0).rowmap) = some [(0, 5)] ∧ replaceRows [5, 6] (s.arr 0).rowmap = none ∧
    186368 ≤ 93184 + 93184 ∧ 95231 + 95232 ≤ 190463 ∧ ¬ (95232 + 95232 ≤ 190463) ∧ ((s.arr 0).colmap ++ trimPairs (s.arr 0)).length ≤ 2 := by decide +kernel
theorem wit_digest_round : (active0.ctx 0).active = some 0 ∧ (active0.ctx 0).digper ≠ 0 ∧ (active0.ctx 0).digper ≤ (active0.ctx 0).digDone ∧
    ((active0.ctx 0).letter 0).backing.isSome = true ∧ (active0.ctx 0).digLeft = [] := by decide +kernel
theorem wit_readback : ∀ l ∈ [[0], [0, 1]], let s := active0.modCtx 0 (fun x => { x with digLeft := l })
    (s.ctx (s.arr 0).ctx).digLeft.contains 0 = true ∧ s.cluOn 0 = true ∧ (((s.driftRead 0 94208 94208).evalTriggers 0).ctx 0).digLeft = l := by decide +kernel
theorem wit_repower : let s := active0.modCtx 0 (fun x => { x with restoreHold := true })
    (s.ctx 0).restoreHold = true ∧ (∀ k ∈ s.ctxArrays 0, (s.unit (uArr (k / 128) (k % 128))).state ≠ 2) ∧
    [0, 1].filter (fun g => decide (((s.ctx 0).letter g).st ≥ 2)) = [0] ∧ ((s.ctx 0).letter 0).backing.isNone = false ∧
    (((s.modCtx 0 (fun x => { x with la := { x.la with backing := none } })).ctx 0).letter 0).backing.isNone = true := by decide +kernel

/-- Array, cluster and march tests, TEST_RUN, PERIOD and MAINT (TestsRun). -/
theorem wit_array_test : let s := active0.modArr 0 (fun r => { r with testDue := true })
    (s.arr 0).st = 3 ∧ s.cluOn 0 = true ∧ (s.arr 0).testDue = true ∧ (s.backingSlice 0 0 0).2.isSome = true ∧
    ((s.modCtx 0 (fun x => { x with la := { x.la with backing := none } })).backingSlice 0 0 0).2 = none ∧
    ((active0.modArr 0 (fun r => { r with cmpDue := true })).arr 0).testDue = false := by decide +kernel
theorem wit_cluster_test : let s := up.modClu 0 (fun u => { u with testDue := true })
    (s.clu 0).testDue = true ∧ s.cluFenced 0 = false ∧ s.cluOn 0 = true ∧ s.testOwners 0 = [] := by decide +kernel

theorem get_map {α : Type} (d v : α) : ∀ (l : List Nat) (t : Nat), t ∈ l → FMap.get d (l.map (fun t => (t, v))) t = v := by
  intro l
  induction l with
  | nil => intro t h; cases h
  | cons x r ih =>
    intro t h
    by_cases e : t = x
    · simp [FMap.get, e]
    · simp only [List.map_cons, FMap.get, if_neg e]
      exact ih t (by simpa [e] using h)

/-- The first `n` tiles, all of context 0. -/
def tilesOf (n : Nat) : FMap Tile := (List.range n).map (fun t => (t, { owned := true }))
theorem tilesOf_get (n t : Nat) (h : t < n) : FMap.get {} (tilesOf n) t = { owned := true } :=
  get_map ({} : Tile) { owned := true } _ t (List.mem_range.2 h)

/-- Every tile of cluster 0 belongs to context 0, whose invocation a due test holds. -/
def allTiles (n : Nat) : State :=
  { (running up 0).modClu 0 (fun u => { u with testDue := true }) with tiles := tilesOf n }.modCtx 0 (fun x => x.modInv (fun v => { v with heldTest := true }))
theorem allTiles_tile (n t : Nat) (h : t < n) : (allTiles n).tile t = { owned := true } := tilesOf_get n t h
theorem wit_test_tiles : (allTiles 512).testTiles 0 = [511, 510] := by
  have e : ((List.range 512).reverse.filter (fun t => !((allTiles 512).tile (tkey 0 t)).owned)) = [] := by
    simp only [List.filter_eq_nil_iff, List.mem_reverse, List.mem_range]
    intro t h
    rw [show tkey 0 t = t by simp [tkey], allTiles_tile 512 t h]
    simp
  simp only [State.testTiles, e]
  rfl
theorem wit_test_late : (allTiles 512).testLate 0 ≠ [] := by
  have o : (allTiles 512).testOwners 0 = [0] := by
    simp only [State.testOwners, wit_test_tiles]
    rw [show (allTiles 512).ctxList = [0] by decide +kernel]
    simp only [List.filter_cons, List.filter_nil, List.any_cons, List.any_nil, show tkey 0 511 = 511 by rfl, allTiles_tile 512 511 (by omega)]
    decide +kernel
  simp only [State.testLate, o]
  decide +kernel
theorem wit_tile_quiet : (allTiles 512).tileQuiet 0 511 = true ∧ (allTiles 512).tileQuiet 0 510 = true ∧
    ((allTiles 512).withOps [{ op0 0 with acc := [{ cl := 0, tile := 511, write := false, add := false, wait := false }] }]).tileQuiet 0 511 = false := by decide +kernel
theorem wit_test_run : ∀ m ∈ [0, 1, 2], let e := ent 2 0x0D 0 [(8, m), (16, 1)]
    begun active0 e = true ∧ entryBad e [2, 3] false [(8, 1), (16, 8)] false = none ∧ e.p 8 1 ≤ 2 ∧ e.p 16 8 ≠ 0 ∧
    (∀ k, k < 64 → bit (e.p 16 8) k = true → (fetched active0 e).cluFenced k = false) ∧ ((fetched active0 e).ctx e.ctx).ex = true := by decide +kernel
theorem wit_march_run : ∀ m ∈ [0, 1, 2, 3], let e := ent 2 0x0E 255 [(8, m), (16, 8)]
    let s := fetched (up.setReg .spd 3 0x40 1) e
    (s.canStart e 0x0E = true ∧ s.accepted e = true) ∧ entryBad e [2, 3] false [(8, 2), (16, 8)] false = none ∧ e.p 8 1 ≤ 3 ∧ e.p 9 1 ≤ 1 ∧ e.p 16 8 ≠ 0 ∧ e.p 16 8 < 16 ∧
    s.cluOn 3 = true ∧ s.domOn 39 = true ∧ s.reg .spd 3 0x40 % 2 = 1 ∧ s.otherAreas 8 = [] ∧ (s.marked e).marchBusy m 3 = false := by decide +kernel
theorem wit_march_done : ∀ m ∈ [0, 1, 2, 3], ({ up with sec := { stage := 7 } } : State).marchAlg m 3 = some 0 := by decide +kernel
theorem wit_test_writes : up.regBad (rOff .tst 0 0x44) 1 = none ∧ up.locked 2 = false ∧ up.regBad (rOff .spd 63 0x40) 1 = none ∧ up.ready = true ∧
    ((up.modUnit (uClu 63) (fun u => { u with state := 1 })).unit (uClu 63)).state ≠ 0 := by decide +kernel

/-- Reports without a unit, of a kind with its own reason, of one that does not count, and of a counted one on an ordinary and on a
CRITICAL context; the windows of R409 at their limits (FaultReportsAreJudged). -/
theorem wit_reports : immediate 9 = some 9 ∧ immediate 3 = none ∧ kindCounts 3 = false ∧ kindCounts 1 = true ∧ kindCounts 2 = true ∧
    active0.repeats { kind := 2, ctx := 0, unit := 0 } = false ∧
    (active0.modCtx 0 (fun x => { x with critical := true })).repeats { kind := 2, ctx := 0, unit := 0 } = true ∧
    (up.withReports [{ kind := 2, ctx := 0, unit := 0 }]).reports = [{ kind := 2, ctx := 0, unit := 0 }] := by decide +kernel
theorem wit_judge : ∀ n ∈ [0, 1, 2], let s := up.modUnit 0 (fun u => { u with total := n, evs := (List.range n).map (fun _ => { kind := 2, ctx := 255, invoc := 0, all := 0 }) })
    ((s.unit 0).evs.filter (s.inWindow 255 0)).length = n ∧
    (((s.recordEvent { kind := 2, unit := 0 } 0).bump .flt 0 0x94 1).unit 0).total < ((s.recordEvent { kind := 2, unit := 0 } 0).bump .flt 0 0x94 1).reg .flt 0 0x40 := by
  decide +kernel
theorem wit_judge_lifetime : let s := up.modUnit 0 (fun u => { u with total := 7 })
    (((s.recordEvent { kind := 2, unit := 0 } 0).bump .flt 0 0x94 1).unit 0).total ≥ ((s.recordEvent { kind := 2, unit := 0 } 0).bump .flt 0 0x94 1).reg .flt 0 0x40 := by
  decide +kernel

/-- UNIT_FENCE of an array, of an array whose context runs, and of a lane; UNIT_UNFENCE of each kind; returns; SLACK
(UnitsLeaveAndReturn). -/
theorem wit_fence : let e := ent 2 0x16 255 []
    begun active0 e = true ∧ entryBad e [2] false [(8, 1), (12, 3)] false = none ∧ namedUnit e = some 0 ∧
    (((fetched active0 e).marked e).fenceNow 0 1).unit 0 = { state := 1, reason := 1 } ∧
    ((((fetched (active0.modCtx 0 (fun x => { x with inv := some inv0 })) e).marked e).fenceNow 0 1).unit 0).due = some 1 := by decide +kernel
theorem wit_fence_lane : let e := ent 2 0x16 255 [(8, 3)]
    begun up e = true ∧ entryBad e [2] false [(8, 1), (12, 3)] false = none ∧ namedUnit e = some (uLane 0 0) ∧ uLane 0 0 / 8192 = 3 ∧
    (fetched up e).domOn (46 + uLane 0 0 / 128 % 64) = true := by decide +kernel
theorem wit_unfence : ∀ q ∈ [(0, uArr 0 0), (1, uClu 0), (2, uCmp 0)], let e := ent 2 0x17 255 [(8, q.1)]
    let s := up.modUnit q.2 (fun u => { u with state := 1, reason := 1 })
    begun s e = true ∧ entryBad e [2] false [(8, 1), (12, 3)] false = none ∧ namedUnit e = some q.2 ∧ (s.unit q.2).state = 1 ∧ q.2 / 8192 = q.1 := by decide +kernel
theorem wit_return : ∀ u ∈ [uArr 0 0, uClu 0], let s := up.modUnit u (fun x => { x with state := 2 })
    ((BitVec.ofNat 16 u).toNat = u ∧ (s.unit u).state = 2) ∧ s.cluOn 0 = true ∧ s.cluFenced 0 = false := by decide +kernel
theorem wit_slack : up.regBad (rOff .flt 0 0x84) 0x80000000 = none ∧ bit 0x80000000 31 = true ∧
    ((up.setCtx 0 { ex := true, frozen := true }).ctx (bits 0x80000000 4 0)).frozen = true := by decide +kernel

/-- The stages of a replacement by CMP16, and of its own reload (CompositorsAreReplaced). -/
theorem wit_replace :
    (let s := up.modUnit (uCmp 15) (fun u => { u with due := some 1 })
     (s.cmp 16).carry = 0 ∧ (s.cmp 16).phase = 0 ∧ (s.cmp 16).fwDue = false ∧ s.fenced (uCmp 16) = false ∧ (List.range 16).find? s.waitsReplace = some 15) ∧
    (let s := up.modCmp 16 (fun x => { x with fwDue := true })
     s.reloads = some 16 ∧ (s.unit (uCmp 16)).due = none) ∧
    (let s := ((up.modCmp 16 (fun x => { x with carry := 1 })).modCmp 0 (fun x => { x with phase := 2 })).modUnit (uCmp 0) (fun u => { u with due := some 1 })
     s.reloads = some 0 ∧ (s.unit (uCmp 0)).due = some 1) ∧
    (let s := up.modCmp 0 (fun x => { x with phase := 3 })
     ([16] ++ List.range 16).find? (fun k => (s.cmp k).phase == 3) = some 0) ∧
    (let s := (up.modCmp 16 (fun x => { x with carry := 1 })).modCmp 0 (fun x => { x with phase := 4 })
     (s.cmp 16).carry = 0 + 1 ∧ (s.cmp 0).phase = 4 ∧
     s.ctxs.any (fun p => match p.2.inv with | some v => v.streams.any (fun st => st.carried) | none => false) = false) := by decide +kernel

/-- Windows of BAR2 at their first and last bytes (MemoryWindowsReachTheirBytes). -/
theorem wit_windows :
    (∀ o ∈ [0x10000000, 0x1FFFFFFF], o / 0x10000000 = 1 ∧ up.cluOn (o % 0x10000000 / 0x400000) = true) ∧
    (∀ o ∈ [0, galEnd - 1], o < galEnd ∧ up.domOn (36 + sliceOf o) = true ∧ up.fenced (uSlice (sliceOf o)) = false) ∧
    (∀ o ∈ [0x20000000, 0x2FFFFFFF], o / 0x10000000 = 2 ∧ up.cluOn (o % 0x10000000 / 0x400000) = true ∧ up.underMarch (0x10000000 + o % 0x10000000) = false) ∧
    (∀ o ∈ [0x30000000, 0x3FFFFFFF, 0x40000000, 0x4FFFFFFF], let c := o % 0x10000000 / 0x400000
      (o / 0x10000000 = 3 ∨ o / 0x10000000 = 4) ∧ (up.setReg .spd c 0x40 1).cluOn c = true ∧ (up.setReg .spd c 0x40 1).reg .spd c 0x40 % 2 = 1 ∧
      up.reg .spd c 0x40 % 2 = 0) := by decide +kernel
theorem wit_no_march : ∀ a, up.underMarch a = false := by
  intro a
  have h : up.marching = [] := rfl
  have g : up.sec.stage = 10 := rfl
  simp [State.underMarch, State.marchAlg, h, g]

/-- A device whose two channels are trained with density 1. -/
def lpUp : State := (up.setReg .lpx 0 0x44 0x310).setReg .lpx 1 0x44 0x310
theorem wit_aperture : ∀ o ∈ [0x80000000, 0xBFFFFFFF], lpUp.lpReady = true ∧ lpUp.domOn 48 = true ∧ lpUp.domOn 49 = true ∧
    lpUp.reg64 .hif 0 0x50 + (o - 0x80000000) < lpUp.lpCap := by decide +kernel

/-- Training of a channel with a device, without one, and after the other channel; a patrol (ExternalMemoryIsMaintained). -/
theorem wit_lpx : (∀ c ∈ [0, 1], up.domOn (48 + c) = true ∧ bit (up.reg .lpx c 0x44) 9 = false ∧ 6 ≤ up.sec.stage ∧ FMap.get 0 up.lpx (5 - c) ≠ 1 ∧
      bits (lpUp.reg .lpx c 0x40) 15 8 ≠ 0 ∧ lpUp.lpReady = true ∧ FMap.get false lpUp.lpBad (chanBlock c (FMap.get 0 lpUp.lpx (2 * c)) / 64) = false) ∧
    (let s := (up.setReg .lpx 1 0x44 0x20).withLpx [(5, 1)]
     FMap.get 0 s.lpx (5 - 0) = 1 ∧ bits (s.reg .lpx (1 - 0) 0x44) 7 4 = 2) := by decide +kernel

/-- A holdup node that is charged, so that the supply check of R434 passes. -/
def held : State := { up with hld := { st := 1, mainGood := true, cap := 5400, vtarget := 24000, vhold := 24000, eusable := 60000 } }

/-- A password write in the queue: before its step, with its step in progress, with and without the energy for it
(ColophonWritesProceed); a command's write that waits. -/
def colW : ColWrite := { steps := [{ home := 37, recs := [(0, leBytes 64 0)] }], k := 19, args := [0, 5] }
theorem wit_colophon :
    (let s := held.withCol { held.col with queue := [colW] }
     colW.active = none ∧ colW.steps = [{ home := 37, recs := [(0, leBytes 64 0)] }] ∧ s.supplyOk (s.stepBytes { home := 37, recs := [(0, leBytes 64 0)] }).2.2.2 = true ∧
     (up.withCol { up.col with queue := [colW] }).supplyOk 60 = false ∧ (37 < 64 ∨ 96 ≤ 37) ∧ takeJob s.col.queue = some (colW, []) ∧ colW.job = none) ∧
    ({ colW with active := some (0, [0#8], 1) } : ColWrite).active = some (0, [0#8], 1) ∧
    (let x := { colW with k := 17, job := some (cmd 0x10 []) }
     takeJob [x] = some (x, []) ∧ x.job = some (cmd 0x10 []) ∧ x.k = 17) := by decide +kernel

/-- An hour, DEV_COMMIT (SettingsAndHoursAreWritten). -/
theorem wit_settings : up.powered = true ∧ (up.withCol { up.col with mounted := true }).col.mounted = true ∧ begun up (ent 2 1 255 []) = true ∧
    entryBad (ent 2 1 255 []) [2] false [] false = none := by decide +kernel

/-- COL_READ and COL_WRITE of the last byte of a region, with the right and a wrong password, of a locked region, out of range, and
of the factory pages; PWCTL (ColophonAccessIsChecked). -/
theorem wit_col_access : let e := ent 2 0x0F 255 [(8, 63), (10, 255), (11, 3), (12, 1)]
    begun up e = true ∧ ((fetched up e).marked e).colCheck e false = (((fetched up e).marked e).withCol { up.col with tries := [0, 0, 0, 0] }, none) ∧
    entryBad e [2, 3] false [(8, 24)] false = none ∧ 1 ≤ e.p 12 4 ∧ e.p 8 2 ≤ 255 ∧ e.p 10 2 ≤ 1023 ∧ e.p 8 2 + (e.p 10 2 + e.p 12 4 - 1) / 1024 ≤ 255 ∧
    regionOf (e.p 8 2) = regionOf (e.p 8 2 + (e.p 10 2 + e.p 12 4 - 1) / 1024) ∧ nth false up.col.locked 0 = false ∧ up.locked 6 = false ∧ nth 0 up.col.pw 0 = 0 ∧
    up.busyPages = [] ∧ e.p 8 2 + (e.p 10 2 + e.p 12 4 + 1023) / 1024 ≤ 224 := by decide +kernel
theorem wit_col_turned_away :
    (ent 2 0x0F 255 []).p 12 4 = 0 ∧ 228 ≤ (ent 2 0x0F 255 [(8, 228), (12, 1)]).p 8 2 ∧ nth false [true, false, false, false] (regionOf 0) = true ∧
    (let s := up.withCol { up.col with pw := [7, 0, 0, 0, 0, 0, 0, 0], tries := [7, 0, 0, 0] }
     nth 0 s.col.pw (2 * 0 + b2n false) ≠ 0 ∧ nth 0 s.col.pw (2 * 0 + b2n false) ≠ (ent 2 0x0F 255 [(12, 1)]).p 24 8) ∧
    up.regBad (rOff .col 0 0x50) 0x80000000 = none ∧ bit 0x80000000 31 = true ∧ up.col.pwBusy = false ∧ nth 0 up.col.pw 1 = 0 := by decide +kernel

/-- The holdup controller's states and the limits of its measurement (HoldupEnergyIsManaged). -/
theorem wit_holdup : held.powered = true ∧ ({ held with hld := { held.hld with measuring := true } } : State).hld.measuring = true ∧ held.hld.measuring = false ∧
    98 * held.hld.vtarget ≤ 23520 * 100 ∧ 21599 * 10 < 9 * held.hld.vtarget ∧ held.busyPages = [] ∧ held.hld.mainGood = true ∧ held.regBad (rOff .hld 0 0x60) 1 = none ∧
    held.col.queue = [] ∧ (held.withCol { held.col with queue := [colW] }).col.queue ≠ [] := by decide +kernel

/-- Resets and restarts (ResetsKeepWhatIsRetained); reset itself is with PERST_N asserted. -/
theorem wit_resets : State.reset.powered = true ∧ State.reset.perst = true ∧ State.reset.thm.shutdown = 0 ∧ State.reset.railOk = true ∧ up.perst = false ∧ up.powered = true ∧
    up.railOk = true ∧ up.thm.shutdown ≠ 1 ∧ ({ up with thm := { shutdown := 1, cool := 10 } } : State).thm.cool = 10 ∧ ({ up with railOk := false } : State).railOk = false ∧
    ({ up with powered := false } : State).powered = false := by decide +kernel

/-- Each boot stage in progress; a Colophon without a FACTORY record; a flash without an image (BootStagesFollow). -/
theorem wit_boot : up.powered = true ∧ up.perst = false ∧ up.railOk = true ∧ up.thm.shutdown = 0 ∧ up.sec.fail = false ∧ up.scalRunning = false ∧ up.busyPages = [] ∧
    (∀ n ∈ [1, 2, 3, 4, 5, 6, 7, 8, 9], ({ up with sec := { stage := n } } : State).sec.stage = n) ∧ up.arrays.any (fun p => p.2.readDue) = false ∧
    (∀ ch, ch ≤ 1 → FMap.get 0 (up.withLpx [(4, 1), (5, 1)]).lpx (4 + ch) ≠ 0) ∧ up.fwDir.1.active = 0 := by decide +kernel
/-- An erased flash region is no image: its RSA check fails, whatever the fuses hold. (That an image passes rests on the fuses'
digests and on the signature schemes, which the model leaves free: log 64.) -/
theorem wit_no_image : up.fwBad (up.fwImage 0) = some .sig ∧
    bit (up.dirWrite { up.fwDir.1 with staged := 1 } true).fwDir.1.staged 1 = false := by
  refine ⟨?_, by decide +kernel⟩
  have h : rsaPssVerify (sliceB (up.fwImage 0) 64 384) (sliceB (up.fwImage 0) 0 496) (sliceB (up.fwImage 0) 496 384) = false := by decide +kernel
  have g : fwSigFails (up.fwImage 0) ≠ 0 := by
    simp only [fwSigFails, h, b2n, Bool.not_false, if_true]
    omega
  simp [State.fwBad, g]

/-- The host link down and up (TheHostLinkComesAndGoes). -/
theorem wit_link : up.domOn 45 = true ∧ up.host.linkUp = false ∧ ({ up with host := { linkUp := true } } : State).host.linkUp = true := by decide +kernel

/-- The diode's thresholds, its faults and the grace time (TheDieTemperatureIsSupervised). -/
theorem wit_diode : up.thm.flt = 0 ∧ (∀ q ∈ [(-240 : Int), 359, 360, 379, 380, 399, 400, 419, 420, 640], -240 ≤ q ∧ q ≤ 640) ∧ diodeFault .openD ≠ 0 ∧ diodeFault .shortD ≠ 0 ∧
    up.thm.bad ≠ diodeFault .openD ∧ ({ up with thm := { bad := diodeFault .openD } } : State).thm.st ≠ 3 ∧
    ({ up with thm := { st := 2, grace := true } } : State).thm.grace = true := by decide +kernel

/-- A trip, a faulty diode in SENSOR FAULT, PEAKCLR, and TRIP unlocked, locked and lowered, locked and raised
(TheDeviceShutsDownWhenTooHot). -/
theorem wit_trip : ({ up with thm := { st := 3, flt := 1 } } : State).thm.flt ≠ 0 ∧ up.regBad (rOff .thm 0 0x54) 1 = none ∧ up.regBad (rOff .thm 0 0x44) 118 = none ∧
    bit (up.reg .thm 0 0x44) 31 = false ∧
    (let s := up.setReg .thm 0 0x44 0x80000065
     bit (s.reg .thm 0 0x44) 31 = true ∧ s.regBad (rOff .thm 0 0x44) 0x80000064 = none ∧ bits 0x80000064 6 0 ≤ bits (s.reg .thm 0 0x44) 6 0 ∧
     bits (s.reg .thm 0 0x44) 6 0 < bits 0x80000066 6 0 ∧ s.regBad (rOff .thm 0 0x44) 0x80000066 = none) := by decide +kernel

/-- A quadrant that relocks with nothing in flight, and a crossing of two domains (QuadrantsRelockAndCrossingsClose). -/
theorem wit_quadrant : up.regBad (rOff .pwr 0 0x50) 0x50505028 = none ∧ (up.withQfreq [(3, 336)]).relocking 3 = true ∧ up.quadBusy 3 = false ∧ crossed 1 2 = true := by
  decide +kernel

/-- Domains that may start and that may go off; requests that are taken and that are turned away (PowerRequestsTakeEffect). -/
theorem wit_power :
    (∀ d ∈ [0, 31, 36, 49], let s := up.modDom d (fun x => { x with st := 0 })
      s.requested d = true ∧ s.staysOff d = (d == 46 || d == 47) ∧ (s.dom d).st = 0 ∧ (d < 32 → (s.dom (32 + d / 8)).st = 2) ∧ (s.dom 40).st = 2) ∧
    (let s : State := { up.modDom 49 (fun x => { x with req := false }) with pages := [(0x45, { gate := 2 })] }
     s.requested 49 = false ∧ (s.dom 49).st = 2) ∧
    (∀ d ∈ [0, 49], (up.modDom d (fun x => { x with st := 3 })).domBusy d = false) ∧
    up.staysOff 46 = true ∧ up.regBad (rOff .pwr 0 0x5C) 0 = none := by decide +kernel
theorem wit_gate : pageAt (rOff .eng 0 8 / 4096) = some (.eng, 0) ∧ rOff .eng 0 8 % 4096 = 8 ∧ rOff .eng 0 8 ≠ rOff .pwr 0 0x5C ∧
    (∀ v ∈ [0, 3], firstBad (up.requestBad (up.modPage (rOff .eng 0 8 / 4096) (fun h => { h with gate := v })) ((domOf .eng 0).getD 0) (bit v 0)) = none) ∧
    pageAt (rOff .dsy 0 8 / 4096) = some (.dsy, 0) ∧ domOf .dsy 0 = some 46 ∧
    (let s := (active0.modCtx 0 (fun x => { x with inv := some inv0 })).modPage (rOff .acc 1 0 / 4096) (fun h => { h with gate := 0 })
     ∀ p ∈ [(.arr, 0), (.acc, 0)], domOf p.1 p.2 = some 0 ∧ s.keepsOn 0 = true) := by decide +kernel

/-- The sequencer runs with entry 0 next; an output with and without SETTLE; self-calibration; a twin check
(TheSequencerRunsItsTable). -/
theorem wit_sequencer :
    (let s : State := { up with hkc := { running := true } }
     s.hkc.running = true ∧ s.hkc.pos < s.hkcLen ∧ s.scalRunning = false ∧ s.hkc.twinDue = false ∧ s.hkc.a.busy = none ∧ enDelay (s.hkcEntry (s.hkcLen - 1)) = 0 ∨
     s.hkc.a.busy = none) ∧
    (let s : State := { up with hkc := { running := true, pos := 12, a := { busy := some 31, last := some (0, 0, 0, 0), left := 1 } } }
     s.hkcLen ≠ 0 ∧ s.hkcLen ≤ s.hkc.pos ∧ (s.hkc.conv 0).busy = some 31 ∧ (s.hkc.conv 0).last = some (0, 0, 0, 0)) ∧
    (let s := up.setReg .hkc 0 0x98 1
     s.scalRunning = true ∧ s.hkc.a.busy = none ∧ s.hkc.b.busy = none) ∧
    ({ up with hkc := { twinDue := true } } : State).hkc.twinDue = true ∧ ((32767 : Int) - 0).natAbs ≤ 32767 := by decide +kernel

/-- HKC_URGENT with a free converter and with none, its result, the staged writes, RUN, data reads and the captures
(HousekeepingIsCommanded). -/
theorem wit_hkc : let e := ent 2 0x11 255 [(8, 47), (9, 4), (10, 2)]
    let s := fetched (up.setReg .hkc 0 0x98 2) e
    (s.canStart e 0x11 = true ∧ s.accepted e = true) ∧ entryBad e [2, 3] false [(8, 3)] false = none ∧ e.p 8 1 ≤ 47 ∧ e.p 9 1 ∈ [1, 2, 4] ∧ e.p 10 1 ≤ 2 ∧
    bit (s.reg .hkc 0 0x98) 1 = true ∧ s.hkc.a.busy = none := by decide +kernel
theorem wit_hkc_writes : up.locked 3 = false ∧ up.regBad (rOff .hkc 0 0x44) 32 = none ∧ up.regBad (rOff .hkc 0 0x40) 1 = none ∧ up.hkc.staged = [] ∧ up.hkc.running = false ∧
    hkcEntryBad (up.reg64 .hkc 0 0x200) = none ∧ up.regBad (rOff .hkc 0 0x60) 1 = none ∧ up.regBad (rOff .hkc 0 0x64) 0x80000000 = none ∧
    (let low := up.reg64 .hkc 0 0x200 % 2 ^ 32
     ((up.modPage 0x52 (fun p => { p with staging := some (0x200, low) })).page 0x52).staging = some (0x200, low) ∧
     hkcEntryBad (low + (up.reg64 .hkc 0 0x200 / 2 ^ 32) * 2 ^ 32) = none) := by decide +kernel

/-- A manager and a worker whose Daisy ports are up. -/
def manager : State := { (up.withDsy [(1, { st := 2 })]).withChain { valid := true, count := 3 } with sec := { stage := 10, role := 1 } }
def worker : State := { (up.withDsy [(0, { st := 2 }), (1, { st := 2 })]).withChain { valid := true, pos := 1 } with sec := { stage := 10, role := 2 } }

/-- The chain's links, positions and lanes (ChainsAreEnumerated). -/
theorem wit_chain : manager.dsyUp 1 = true ∧ manager.dsyUp 0 = false ∧ manager.sec.role = 1 ∧ bit (manager.reg .dsy 0 0x40) 0 = true ∧ manager.domOn 46 = true ∧
    (manager.dsyAt 0).failed = [] ∧ worker.dsyUp 0 = true ∧ ({ worker with chain := {} } : State).chain.valid = false ∧ (worker.withDsy []).dsyUp 0 = false ∧
    (∀ l, l ≤ 7 → (worker.dsyAt 0).failed.contains l = false ∧ bit (worker.dsyAt 0).lanes l = true) ∧ (worker.dsyAt 0).spare = some 8 ∧
    ((worker.withDsy [(0, { st := 2, spare := none })]).dsyAt 0).spare = none ∧ (worker.dsyAt 0).st ≠ 0 ∧ worker.regBad (rOff .dsy 0 0x40) 0x400 = none ∧
    worker.regBad (rOff .dsy 0 0x40) 0x401 = none ∧ bit 0x400 0 = false ∧ bit ((worker.setReg .dsy 0 0x40 0x400).reg .dsy 0 0x40) 0 = false := by decide +kernel

/-- Messages for this device and for another, tunnelled accesses, a push and its blocks (MessagesAndImagesMoveAlongTheChain). -/
theorem wit_messages : (worker.chain.xrx.length < 256 ∧ bit (worker.reg .dsy 1 (0xA0 + 4 * (0 / 32))) (0 % 32) = true ∧ worker.dsyUp 1 = true) ∧
    ({ manager with host := { linkUp := true } } : State).host.linkUp = true ∧ 2 < manager.chain.count ∧ manager.regBad (rOff .dsy 1 0x84) 0x80000002 = none ∧ manager.pushState ≠ 1 ∧
    (let s := manager.setReg .dsy 1 0x80 64
     s.reg .dsy 1 0x80 % 64 = 0 ∧ s.reg64 .dsy 1 0x70 % 64 = 0 ∧ s.reg64 .dsy 1 0x78 % 64 = 0 ∧ bits 0x80000002 15 0 ≠ 0 ∧ bits 0x80000002 15 0 < 2 ^ s.chain.count ∧
     (s.setReg .dsy 1 0x88 1).pushState = 1 ∧ s.reg .dsy 1 0x8C < s.pushBlocks ∧ (s.setReg .dsy 1 0x8C 1).reg .dsy 1 0x8C = s.pushBlocks) := by decide +kernel
theorem wit_push_block : let w := (worker.setReg .lpx 0 0x44 0x310).setReg .lpx 1 0x44 0x310
    w.chain.valid = true ∧ bit (2#16 : Half).toNat w.chain.pos = true ∧ w.pushRefuse 0 64 = none ∧ worker.pushRefuse 0 64 = some .range ∧ bit (4#16 : Half).toNat w.chain.pos = false ∧
    (sha384 []).length = 48 := by decide +kernel
theorem wit_tunnel_timeout : let e := ent 2 0x11 255 []
    let s := (worker.setReg .dsy 0 0x40 2).withDsy []
    s.tunnels = true ∧ s.dsyUp 0 = false ∧ ((s.modQueue 2 (fun _ => { inflight := [{ e := e, started := true }] })).queue e.queue).inflight.any (fun x => x.started && x.e == e) = true := by
  decide +kernel

/-- Digest queries, the census and ALIGN (ConfigurationsAreCompared). -/
theorem wit_census : let e := ent 2 0x13 255 []
    begun manager e = true ∧ entryBad e [2] false [(16, 8)] false = none ∧ manager.chain.census = false ∧ up.sec.role ≠ 1 ∧ worker.chain.valid = true ∧
    (∀ k ∈ [0, 3], begun up (ent 2 0x12 255 [(8, k)]) = true ∧ entryBad (ent 2 0x12 255 [(8, k)]) [1, 2, 3] false [(8, 1), (16, 8)] false = none) ∧
    begun ready (ent 2 0x12 0 [(8, 1)]) = true ∧ (ready.ctx 0).ex = true ∧ up.regBad (rOff .cfg 0 0x44) 5 = none ∧ up.locked 1 = false ∧ up.cfg.epoch < 5 ∧ held.supplyOk 60 = true ∧
    ({ up with cfg := { epoch := 6 } } : State).cfg.epoch = 6 := by decide +kernel
theorem wit_cfg_pending : ({ up with cfg := { pending := true } } : State).cfgPending = true := by decide +kernel

/-- BAR0 accesses: an unmapped page, a plain register's write that each check turns away and one that is stored, a 64-bit register's
halves, an odd access (RegisterAccessesAreChecked, UnmappedAccessesAreRecorded). -/
theorem wit_bar0 : pageAt (0x1FFF000 / 4096) = none ∧ up.forwards 0x1FFF000 = false ∧ pageAt (0x1000 / 4096) = some (.hif, 0) ∧
    pageAt (0xBFFFFF / 4096) = none ∧ up.forwards 0xBFFFFF = false ∧ manager.forwards 0x800000 = true ∧ worker.forwards 0x800000 = false := by decide +kernel
theorem wit_write : let off := rOff .que 3 0x48
    pageAt (off / 4096) = some (.que, 3) ∧ (findReg .que 0x48).isSome = true ∧ ((findReg .que 0x48).map (fun r => (r.1.wide, r.1.acc != .ro))) = some (false, true) ∧
    up.regBad off 4 = none ∧ up.regBad off 0xFFFFFFFF ≠ none ∧ (up.plainRules .que 3 0x48 4).1 = false ∧ firstBad (up.plainRules .que 3 0x48 4).2 = none ∧
    (firstBad ((up.setReg .que 3 0x68 1).plainRules .que 3 0x48 5).2).isSome = true ∧ up.forwards off = false := by decide +kernel
theorem wit_wide : wideAt (rOff .hif 0 0x40) = some (rOff .hif 0 0x40) ∧ up.regBad (rOff .hif 0 0x40) 0 ≠ some .power ∧ up.pageOn .hif 0 = true ∧
    ((up.modPage (rOff .hif 0 0 / 4096) (fun p => { p with staging := some (0x40, 64) })).page (rOff .hif 0 0 / 4096)).staging = some (0x40, 64) ∧
    wideAt (rOff .hif 0 0x48) = none ∧ properAccess (rOff .hif 0 0x48) 2 = false ∧ properAccess (rOff .hif 0 0x44) 8 = false := by decide +kernel

/-- Doorbells at the last entry and beyond it, the enable, a fetch, a status record and CNTCLR (QueuesAndRecordsServeTheHost). -/
theorem wit_queues : (∀ q ∈ [0, 3], up.regBad (rOff .que q 0x4C) 15 = none ∧ 15 < 2 ^ up.reg .que q 0x48 ∧ 2 ^ up.reg .que q 0x48 ≤ 16 ∧ up.regBad (rOff .que q 0x4C) 16 = none ∧
      up.regBad (rOff .que q 0x54) 0 = none ∧ up.regBad (rOff .que q 0x68) 1 = none ∧ bit (up.reg .que q 0x68) 0 = false) ∧
    up.regBad (rOff .hif 0 0x48) 1 = none ∧ bit (up.reg .hif 0 0x48) 0 = false ∧ (∀ c ∈ [0, 63], up.regBad (rOff .arr c 0x4C) 1 = none) ∧ up.domOn 45 = true := by decide +kernel
theorem wit_fetch : let s : State := { (up.setReg .que 2 0x68 1).setReg .que 2 0x4C 1 with host := { linkUp := true } }
    s.nextQueue = some 2 ∧ (List.range 4).filter s.fetchable = [2] := by decide +kernel

/-- Readback requests and reads, accesses in the remote window, and a worker's (ReadbacksAndRemoteAccessesReturn). -/
theorem wit_readbacks : up.pageOn .acc 63 = true ∧ bits 0x80000000 30 17 = 0 ∧ (up.clu 63).rb.pend = none ∧
    (let s := (with0 { op0 0 with acc := [] }).modClu 0 (fun u => { u with rb := { u.rb with pend := some (0, 0) } })
     (s.clu 0).rb.pend = some (0, 0) ∧ s.getOp (s.clu 0).rb.op = some { op0 0 with acc := [] } ∧ ({ op0 0 with acc := [] } : Op).free = true) ∧
    manager.sec.role = 1 ∧ bits ((manager.setReg .dsy 1 0x64 2).reg .dsy 1 0x64) 3 0 < manager.chain.count ∧
    manager.chain.count ≤ bits ((manager.setReg .dsy 1 0x64 3).reg .dsy 1 0x64) 3 0 ∧ worker.dsyUp 0 = true := by decide +kernel

/-- FW_STAGE's first checks, FW_ACTIVATE's refusal and RBCOMMIT; what a passing image would need rests on the free signature
schemes (FirmwareIsStagedAndActivated). -/
theorem wit_firmware :
    (let e := ent 2 0x14 255 [(17, 0x40)]
     entryBad e [2] false [(8, 12)] false = none ∧ e.p 16 4 < 17472 ∧ begun up e = true ∧ up.stageCheck e [] = some .value) ∧
    (let e := ent 2 0x14 255 [(16, 0x40), (17, 0x44), (8, 1)]
     entryBad e [2] false [(8, 12)] false = none ∧ 17472 ≤ e.p 16 4 ∧ e.p 16 4 % 64 = 0 ∧ e.p 8 8 % 64 ≠ 0) ∧
    (let e := ent 2 0x14 255 [(16, 0x40), (17, 0x44)]
     e.p 8 8 % 64 = 0 ∧ up.locked 5 = false ∧ (up.setReg .sec 0 0x40 0x20).locked 5 = true ∧ up.sec.op = 0 ∧ fwHeader [] = false) ∧
    up.regBad (rOff .sec 0 0x54) 1 = none ∧ up.fwCount ≠ 17 ∧
    (let s : State := { up with cmps := (List.range 17).map (fun k => (k, { fw := true })), sec := { stage := 10, svn := 2, svnMin := 1 } }
     s.fwCount = 17 ∧ s.sec.svnMin < s.sec.svn ∧ s.col.queue.any (fun w => w.k == 20) = false) := by decide +kernel

/-- Locks, ATTEST, the test port (LocksAttestationAndTestPort, TheLockStatusIsCaptured, StatusAddressAndApertureAreGuarded). -/
theorem wit_locks : let s := up.setReg .sec 0 0x40 0x10
    s.regBad (rOff .sec 0 0x40) 0x11 = none ∧ s.reg .sec 0 0x40 &&& 0x11 = s.reg .sec 0 0x40 ∧ s.reg .sec 0 0x40 &&& 0x01 ≠ s.reg .sec 0 0x40 ∧ s.locked 4 = true ∧
    s.regBad (rOff .sec 0 0x44) 0 = none ∧ bit 0x11 4 = true ∧ ({ s with tap := { ir := 0x22 } } : State).tap.ir = 0x22 := by decide +kernel
theorem wit_attest : let e := ent 2 0x18 255 [(48, 0x90), (49, 0x43)]
    begun up e = true ∧ entryBad e [2, 3] false [(8, 44)] false = none ∧ e.p 48 4 = 17296 ∧ e.p 40 8 % 64 = 0 ∧ (ent 2 0x18 255 [(40, 1)]).p 40 8 % 64 ≠ 0 ∧
    (up.withJobs [{ e := e, kind := 21 }]).jobs.find? (fun j => j.kind == 21) = some { e := e, kind := 21 } := by decide +kernel
theorem wit_tap : up.locked 4 = false ∧ up.probeOff 0 = false ∧ up.probeOff 0x4400 = true ∧ bits 0x200 63 10 = 0 ∧ bit 0x204 9 = true ∧ bit 0x204 2 = true ∧ bits 0x204 1 0 ≠ 1 ∧
    up.cluOn (bits 0x204 8 3) = true ∧ up.marchBusy (bits 0x204 1 0) (bits 0x204 8 3) = false ∧ bit 0x1F8 9 = false := by decide +kernel
theorem wit_status : let s := up.setReg .hif 0 0x48 1
    (s.takeLow (rOff .hif 0 0x44) 0).2 = 0 ∧ s.regBad (rOff .hif 0 0x40) 0 = none ∧ bit (s.reg .hif 0 0x48) 0 = true ∧ s.regBad (rOff .hif 0 0x50) 0 = none ∧ s.lpCap ≤ 0 ∧
    lpUp.lpCap < lpUp.lpCap - 2 ^ 30 + 1 + 2 ^ 30 := by decide +kernel

/-- A completion of a command in flight, one that a Hot Reset lost, and the entries that R60 turns away (CompletionsAreWritten,
SubmissionEntriesAreChecked). -/
theorem wit_completions : ∀ lost ∈ [false, true], let e := ent 2 0x18 255 []
    (up.modQueue 2 (fun _ => { inflight := [{ e := e, started := true, lost := lost }] })).inFl e = some { e := e, started := true, lost := lost } := by decide +kernel
theorem wit_entries : (fetched up (ent 2 1 255 [])).canStart (ent 2 1 255 []) 1 = true ∧ (fetched { up with sec := { stage := 4 } } (ent 2 1 255 [])).accepted (ent 2 1 255 []) = false ∧
    up.canStart (ent 2 1 255 []) 1 = false ∧ (0 : Nat) ∉ [2] ∧ entryBad (ent 0 1 255 []) [2] false [] false = some .opcode ∧ entryBad (ent 2 1 32 []) [2] false [] false = some .value ∧
    entryBad (ent 2 8 255 []) [1, 2] true [] false = some .value ∧ entryBad (ent 2 1 255 [(63, 1)]) [2] false [] false = some .rsvd := by decide +kernel

/-- A legal state that is not reset, with a command that waits (StepRunsTheFrontCommand, ExecKeepsTheQueue, StepKeepsLegal). -/
theorem wit_legal : up.Legal := ⟨by decide +kernel, by decide +kernel, by decide +kernel, by decide +kernel, by decide +kernel, by decide +kernel, by decide +kernel, by decide +kernel⟩
theorem wit_step : ∃ t, step { up with pending := [.powerOnHour] } = .next t ∧ t.pending = [] := ⟨_, rfl, rfl⟩
/-! ### Ill-formed commands are refused (WellFormed) -/

/-- A submission entry comes from one of four queues and has 64 bytes. -/
theorem test_wf_entry_queue : (Instr.run { queue := 4, bytes := List.replicate 64 0 }).wf = false := by decide +kernel
theorem test_wf_entry_length : (Instr.ctxLoad { queue := 0, bytes := List.replicate 63 0 } [] []).wf = false := by decide +kernel
theorem test_wf_fetch_length : (Instr.queueFetch (List.replicate 65 0)).wf = false := by decide +kernel
theorem test_wf_context : (Instr.nop 32 0).wf = false ∧ (Instr.invocationStart 32).wf = false := by decide +kernel
theorem test_wf_stream : (Instr.mvm 31 16).wf = false := by decide +kernel
theorem test_wf_compositor : (Instr.abort 17 0).wf = false := by decide +kernel
theorem test_wf_cluster : (Instr.moveRetire 64).wf = false ∧ (Instr.rbselGo 64 0).wf = false := by decide +kernel
theorem test_wf_array : (Instr.vectorStart 63 68 []).wf = false := by decide +kernel
theorem test_wf_tile : (Instr.tileOpRelease 0 512).wf = false := by decide +kernel
theorem test_wf_engine : (Instr.engineOpRetire 3 0).wf = false := by decide +kernel
theorem test_wf_port : (Instr.pauseRepeat 4).wf = false ∧ (Instr.daisyNak 2).wf = false ∧ (Instr.dsyCfgWrite 2 0).wf = false := by decide +kernel
theorem test_wf_carrier : (Instr.egressWrite 4).wf = false := by decide +kernel
theorem test_wf_lpx : (Instr.lpxTrainingDone 2 0).wf = false ∧ (Instr.lpxTrainingDone 0 4).wf = false ∧ (Instr.lpxPatrolScrub 0 { found := 3 }).wf = false := by
  decide +kernel
theorem test_wf_march : (Instr.marchTestDone 4 0 []).wf = false ∧ (Instr.marchTestDone 0 64 []).wf = false := by decide +kernel
theorem test_wf_role : (Instr.perstNRelease 4).wf = false ∧ (Instr.railRecovery 4).wf = false := by decide +kernel
theorem test_wf_converter : (Instr.hkcOutput 2 0 false).wf = false := by decide +kernel
theorem test_wf_quadrant : (Instr.qfreqRelock 4).wf = false := by decide +kernel
theorem test_wf_domain : (Instr.domainOffDone 50).wf = false ∧ (Instr.domainOnDone 50).wf = false := by decide +kernel
theorem test_wf_crossing :
    (Instr.crossingClose 0 2 ⟨0, 0⟩ 0).wf = false ∧ (Instr.crossingClose 19 2 ⟨0, 0⟩ 0).wf = false ∧ (Instr.crossingReopen 2 2).wf = false := by decide +kernel
theorem test_wf_position : (Instr.enumReceived 0 17).wf = false ∧ (Instr.endReceived 17).wf = false ∧ (Instr.daisyLinkUp 0 16).wf = false ∧
    (Instr.tunnelRequest 17 (.read 0 4)).wf = false ∧ (Instr.pushFail 0 17).wf = false := by decide +kernel
theorem test_wf_lane : (Instr.laneFail 0 9).wf = false ∧ (Instr.daisyLinkReset 0 10).wf = false := by decide +kernel
theorem test_wf_offset : (Instr.lowWordRead 0x2000000).wf = false ∧ (Instr.registerWrite 0x2000000 0).wf = false := by decide +kernel
theorem test_wf_size : (Instr.bar0OddAccess false 0 0).wf = false ∧ (Instr.remoteRegAccess false 0 4097 0).wf = false ∧
    (Instr.rbdataRead 0 9).wf = false ∧ (Instr.hkcDataRead 0 0).wf = false := by decide +kernel
theorem test_wf_queue : (Instr.sqDoorbell 4 0).wf = false ∧ (Instr.cqHeadWrite 4 0).wf = false ∧ (Instr.queueEnable 4 0).wf = false := by decide +kernel
theorem test_wf_hkc_entry : (Instr.hkcDataRead 32 4).wf = false := by decide +kernel
theorem test_wf_bar2 : (Instr.bar2Access (.read 0xFFFFFFFF 2)).wf = false ∧ (Instr.apertureAccess (.write 0xFFFFFFFF [none, none])).wf = false := by
  decide +kernel
theorem test_wf_push : (Instr.pushBlock { push := 0, index := 1, count := 1, mask := 2, dest := 0, len := 4, total := 4, digest := List.replicate 48 0 } []).wf = false ∧
    (Instr.pushBlock { push := 0, index := 0, count := 1, mask := 2, dest := 0, len := 65537, total := 4, digest := List.replicate 48 0 } []).wf = false ∧
    (Instr.pushBlock { push := 0, index := 0, count := 1, mask := 2, dest := 0, len := 4, total := 4, digest := [] } []).wf = false := by
  decide +kernel

/-! ### Results that the manual gives in its examples, or that a published standard gives -/

/-- The page ID of ACC37 in the example of R10, and its place. -/
theorem test_page_id : up.hdrWord .acc 37 0 = 0x08025003 := by decide +kernel
theorem test_page_place : pageAt (0x01252000 / 4096) = some (.acc, 37) := by decide +kernel

/-- The conversions of the example of R84: 63 fine, 17 coarse, and the clip at g = 8. -/
theorem test_conversion : segConv 16 1010 0 0 = (63, 1, false, false) ∧ segConv 16 1100 0 0 = (68, 4, true, false) ∧
    segConv 8 2880 0 0 = (252, 4, true, true) := by decide +kernel

/-- The fit of the example of R126: gain 0x3502, offset a quarter LSB. -/
theorem test_fit : fitPair { n := 65536, su := 13107200, su2 := 2688876544, sn := 44564480 } (37 * 256) (2869 * 256) =
    .inl { gain := 0x3502, off := 1 } := by decide +kernel

/-- The stochastic rounding example of R152: 2^24 + 3 with draws 0x3A5C and 0xC001. -/
theorem test_draws : (fpWrite true (fpEntry (ofInt 16777216) false false) (ofInt 3) 0x3A5C).1 = fpEntry (ofInt 16777220) false false ∧
    (fpWrite true (fpEntry (ofInt 16777216) false false) (ofInt 3) 0xC001).1 = fpEntry (ofInt 16777218) false false := by decide +kernel

/-- The drain example of R163: sums 1,530, -2,304 and 2,200,000,000, a fused addition of 0.5, INT8. -/
theorem test_drain :
    let p := leBytes 4 0x3C000000 ++ leBytes 4 0xC1800000 ++ [0xFD, 1, 0, 0] ++ leBytes 4 0x41000000 ++
      (List.replicate 128 (leBytes 2 0x2C00 ++ leBytes 2 0)).flatten ++ (List.replicate 128 (leBytes 2 0x3C00 ++ leBytes 2 0)).flatten
    let t : Tile := { ent := [(0, fxEntry 1530 false), (1, fxEntry (-2304) false), (2, fxEntry 2200000000 false)] }
    drainVals t p (List.replicate 3 (leBytes 2 0x3800)).flatten (2 * 2 ^ 77 + 2 ^ 71 + 2 * 2 ^ 69) 0 =
      [(100, 0, 0), (toBits 8 (-9), 0, 0), (127, 1, 0)] := by decide +kernel

/-- The rotation example of R271: eight bytes written at 0x20040038 with ROT = 5. -/
theorem test_rotate :
    let s := (up.setReg .spd 0 0x44 5).bar2Write 0x20040038 ([0x11, 0x22, 0x33, 0x44, 0x55, 0x66, 0x77, 0x88].map some)
    ((s.engRead 0x1004003D 3 = [0x11, 0x22, 0x33]) ∧ s.engRead 0x10040000 6 = [0x44, 0x55, 0x66, 0x77, 0x88, 0]) := by decide +kernel

/-- The addresses of the example of R281. -/
theorem test_s0_address : valAddr 0x01E00000 9 1000 5 = 0x021B8A14 ∧ eraAddr 0x01E00000 9 1000 = 0x023B7C50 := by decide +kernel

/-- The frame of the example of R310: its slot, its first value's place, and its values under exponents 6 and 8. -/
theorem test_frame :
    (slotIndex 1 { payload := 70, eaxc := 0, seq := 0, frame := 37, sub := 4, slot := 1, sym := 9, ok := true }).1 = 749 ∧
    valAddr 0x01E00000 9 996 5 = 0x021B8814 ∧
    ((prbValues 0x91 (6 :: leBytes 27 0 |>.set 1 0xBE |>.set 2 0xBF |>.set 3 0xC0)).1.take 2 = [-131 * 64, 255 * 64]) ∧
    (prbValues 0x91 (8 :: leBytes 27 0 |>.set 1 0x7F |>.set 2 0x80)).1.take 1 = [32767] := by decide +kernel

/-- The holdup target at 3,240 microfarads: the root is 3.42896 V (3.429 V in the example of R452), rounded down to 1 mV (R450). -/
theorem test_vtarget : vTarget 3240 = 3428 := by decide +kernel

/-- Check values of CRC-32C and of the 64-bit CRC of ECMA-182 (both over "123456789"), and SHA-384 of "abc" (FIPS 180-4). -/
theorem test_crc32c : crc32c [0x31, 0x32, 0x33, 0x34, 0x35, 0x36, 0x37, 0x38, 0x39] = 0xE3069283 := by decide +kernel
theorem test_crc64 : crc64 [0x31, 0x32, 0x33, 0x34, 0x35, 0x36, 0x37, 0x38, 0x39] = 0x6C40DF5F0B497347 := by decide +kernel
theorem test_sha384 : sha384 [0x61, 0x62, 0x63] =
    (leBytes 48 0xcb00753f45a35e8bb5a03d699ac65007272c32ab0eded1631a8b605a43ff5bed8086072ba1e7cc2358baeca134c825a7).reverse := by decide +kernel

/-! ### One step each -/

/-- An empty queue idles; a command at the front runs and leaves the queue. -/
theorem test_idle : step up = .next up := by rfl
theorem test_step_takes_front : step { up with pending := [.maintWrite 99 1, .pauseRepeat 9] } = .next { up with pending := [.pauseRepeat 9] } := by
  rfl

/-- No row of the table has bits, so no word spells a command. -/
theorem test_no_words : decodeTableWord 0 0 = none ∧ decodeTableWord 128 1 = none := by decide +kernel
end Sys2Proof.Tests
end

section
/-!
PROOFS. Registers, queues and errors: an access at an unmapped BAR0 offset (R37), and the high-word writes that HIF turns away (R66).
-/
open Sys2Proof Sys2Proof.Machine

namespace Sys2Proof.Machine

/-! ### Rejected accesses (R44) -/

theorem page_reject (s : State) (p q : Nat) (c : Code) (o : Nat) :
    (s.reject p c o).page q =
      if q = p then { s.page p with errCode := c.num, errOff := o % 4096, errCnt := satNat 32 ((s.page p).errCnt + 1) } else s.page q :=
  page_mod _ _ _ _

/-- A rejection reaches only its page's header words. -/
theorem rejectOff_frame (s : State) (off : Nat) (c : Code) :
    SameMemory s (s.rejectOff off c) ∧ SameRegs s (s.rejectOff off c) (fun _ => False) := modPage_frame _ _ _

theorem SameRegs.trans {s t u : State} {p : Nat → Prop} (h : SameRegs s t p) (g : SameRegs t u p) : SameRegs s u p :=
  fun off hn => (g off hn).trans (h off hn)

/-! ### Unmapped BAR0 offsets (R37) -/

/-- From `s` to `t` the access at `off` was recorded in DEV.ERR with E_RANGE and counted; every other page header, the memories
and the register words stayed. -/
def UnmappedNoted (s : State) (off : Nat) (t : State) : Prop :=
  t.page 0 = { s.page 0 with errCode := Code.range.num, errOff := off % 4096, errCnt := satNat 32 ((s.page 0).errCnt + 1) } ∧
  (∀ p, p ≠ 0 → t.page p = s.page p) ∧ SameMemory s t ∧ SameRegs s t (fun _ => False)

theorem unmapped_noted (s : State) (off : Nat) : UnmappedNoted s off (s.unmapped off) := by
  have hpage := fun q => page_reject s 0 q .range (off % 4096)
  refine ⟨?_, fun p hp => ?_, modPage_frame _ _ _⟩
  · exact (hpage 0).trans (by rw [if_pos rfl, Nat.mod_mod])
  · exact (hpage p).trans (if_neg hp)

/-- An answer to the host changes nothing that the record of the access speaks of. -/
theorem UnmappedNoted.reply {s t : State} {off : Nat} (h : UnmappedNoted s off t) (bs : List Byte) : UnmappedNoted s off (t.reply bs) := by
  obtain ⟨hdev, hother, hmem, hregs⟩ := h
  exact ⟨hdev, hother, hmem.trans (reply_frame t bs).1, hregs.trans (reply_frame t bs).2⟩

/-- A read that is answered with `bs` at an unmapped offset. -/
theorem gives_unmapped_read {c : Instr} {s : State} {off : Nat} {bs : List Byte} (h : exec c s = .next ((s.unmapped off).reply bs)) :
    Gives c s (fun t => t.host.reply = bs ∧ UnmappedNoted s off t) := ⟨_, h, rfl, (unmapped_noted s off).reply bs⟩

/-- A write that is discarded at an unmapped offset. -/
theorem gives_unmapped_write {c : Instr} {s : State} {off : Nat} (h : exec c s = .next (s.unmapped off)) :
    Gives c s (fun t => t.host = s.host ∧ UnmappedNoted s off t) := ⟨_, h, rfl, unmapped_noted s off⟩

section
variable {s : State} {off : Nat}

theorem exec_lowWordRead (ha : off % 4 = 0) (hr : off < 0x2000000) (hf : s.forwards off = false) :
    exec (.lowWordRead off) s = .next (s.read4 off) := congrArg Host.Outcome.next (if_neg (by simp [ha, hf]; omega))

theorem exec_registerWrite (value : Word) (ha : off % 4 = 0) (hr : off < 0x2000000) (hf : s.forwards off = false) :
    exec (.registerWrite off value) s = .next (s.write4 off value) := congrArg Host.Outcome.next (if_neg (by simp [ha, hf]; omega))

theorem exec_bar0OddAccess (w : Bool) {size : Nat} (hp : properAccess off size = false) (hr : off < 0x2000000) (hf : s.forwards off = false) :
    exec (.bar0OddAccess w off size) s = .next (s.oddAccess w off size) := congrArg Host.Outcome.next (if_neg (by simp [hp, hf]; omega))

theorem exec_bar0Unmapped (w : Bool) (h : pageAt (off / 4096) = none) (hr : off < 0x2000000) (hf : s.forwards off = false) :
    exec (.bar0Unmapped w off) s = .next (if w then s.unmapped off else (s.unmapped off).reply (leBytes 4 0)) :=
  congrArg Host.Outcome.next (if_neg (by simp [h, hf]; omega))

theorem read4_unmapped (h : pageAt (off / 4096) = none) : s.read4 off = (s.unmapped off).reply (leBytes 4 0) := by
  unfold State.read4; rw [h]

theorem write4_unmapped (value : Word) (h : pageAt (off / 4096) = none) : s.write4 off value = s.unmapped off := by
  unfold State.write4; rw [h]

theorem oddAccess_unmapped (w : Bool) {size : Nat} (hs : size ≤ 8) (h : pageAt (off / 4096) = none) :
    s.oddAccess w off size = if w then s.unmapped off else (s.unmapped off).reply (leBytes size 0) := by
  unfold State.oddAccess; rw [if_neg (by omega), h]

end

/-- No page lies in the remote window (R34). -/
theorem pageAt_remote {p : Nat} (h1 : 0x800 ≤ p) (h2 : p < 0x1000) : pageAt p = none := by
  unfold pageAt
  repeat rw [if_neg (by omega)]

theorem forwards_of_not_manager {s : State} (h : s.sec.role ≠ 1) (off : Nat) : s.forwards off = false := by
  simp [State.forwards, h]

/-- Settles O52: each access comes down to `State.unmapped`, whose record is `unmapped_noted`. -/
theorem unmappedAccessesAreRecorded : Obligations.UnmappedAccessesAreRecorded := by
  unfold Obligations.UnmappedAccessesAreRecorded
  intro s off hr hf
  refine ⟨fun hpage => ⟨fun ha => ?_, fun value ha => ?_, ?_, ?_, fun size hs hp => ⟨?_, ?_⟩⟩, fun hrole o h1 h2 => ⟨?_, ?_⟩⟩
  · exact gives_unmapped_read ((exec_lowWordRead ha hr hf).trans (by rw [read4_unmapped hpage]))
  · exact gives_unmapped_write ((exec_registerWrite value ha hr hf).trans (by rw [write4_unmapped value hpage]))
  · exact gives_unmapped_read (exec_bar0Unmapped false hpage hr hf)
  · exact gives_unmapped_write (exec_bar0Unmapped true hpage hr hf)
  · exact gives_unmapped_read ((exec_bar0OddAccess false hp hr hf).trans (by rw [oddAccess_unmapped false hs hpage]; rfl))
  · exact gives_unmapped_write ((exec_bar0OddAccess true hp hr hf).trans (by rw [oddAccess_unmapped true hs hpage]; rfl))
  · exact pageAt_remote (by omega) (by omega)
  · exact forwards_of_not_manager hrole o

/-! ### High-word writes that are turned away (R50, R66) -/

section
variable {s z : State} {off lo v w : Nat} {value : Word} {c : Code}

/-- HIGH_WORD_WRITE of a register whose page has power goes on with the value that `takeLow` commits. -/
theorem exec_highWordWrite (hw : wideAt off = some lo) (ho : off = lo + 4) (hp : (s.regBad lo 0 == some .power) = false)
    (ht : s.takeLow off value.toNat = (z, v)) : exec (.highWordWrite off value) s = .next (z.wideWrite lo v off) := by
  have hexec : exec (.highWordWrite off value) s = .next (s.halfWrite off lo value.toNat) := by
    show execHighWordWrite off value s = _
    unfold execHighWordWrite
    rw [hw]
    exact congrArg Host.Outcome.next (if_pos ho)
  rw [hexec]
  unfold State.halfWrite
  rw [hp, if_neg Bool.false_ne_true, if_neg (by omega), ht]

/-- A value with a fault leaves the whole 64-bit register alone: the access is rejected. -/
theorem wideWrite_bad {t : PType} {i b : Nat} {r : Reg} (h1 : pageAt (lo / 4096) = some (t, i)) (h2 : findReg t (lo % 4096) = some (r, b))
    (h3 : (r.acc == .ro) = false) (h4 : z.wideBad lo v = some c) : z.wideWrite lo v off = z.rejectOff off c := by
  unfold State.wideWrite
  rw [h1]; dsimp only
  rw [h2]; dsimp only
  rw [h3, if_neg Bool.false_ne_true, h4]

/-- What HIF asks of a whole value that passes its field checks (R66): STATADDR first, then APBASE. -/
def State.hifRules (s : State) (lo v : Nat) : List (Bool × Code) :=
  [(lo % 4096 == 0x40 && bit (s.reg .hif 0 0x48) 0, .state), (lo % 4096 == 0x50 && decide (v + 2 ^ 30 > s.lpCap), .range)]

theorem wideBad_hif (h1 : pageAt (lo / 4096) = some (.hif, 0)) (h2 : z.regBad lo v = none) :
    z.wideBad lo v = firstBad (z.hifRules lo v) := by
  unfold State.wideBad
  rw [h1]; dsimp only
  rw [h2]; rfl

theorem lpCap_of_sameRegs (h : SameRegs s z (fun _ => False)) : z.lpCap = s.lpCap := by
  unfold State.lpCap State.reg
  rw [h _ id]

/-- The rules read registers only. -/
theorem hifRules_of_sameRegs (h : SameRegs s z (fun _ => False)) : z.hifRules lo v = s.hifRules lo v := by
  have hctrl : z.reg .hif 0 0x48 = s.reg .hif 0 0x48 := h _ id
  unfold State.hifRules
  rw [hctrl, lpCap_of_sameRegs h]

theorem takeLow_keeps (ht : s.takeLow off v = (z, w)) :
    SameMemory s z ∧ SameRegs s z (fun _ => False) ∧ ∀ o, z.regBad o = s.regBad o := by
  simpa only [ht] using take_frame s off v

/-- A high word of HIF whose committed value breaks a rule is rejected: the staging word is spent (R50), and no register and no
byte of memory changes. -/
theorem gives_hif_rejected {r : Reg} {b : Nat} (hpage : pageAt (lo / 4096) = some (.hif, 0)) (hreg : findReg .hif (lo % 4096) = some (r, b))
    (hacc : (r.acc == .ro) = false) (hw : wideAt off = some lo) (ho : off = lo + 4) (hp : (s.regBad lo 0 == some .power) = false)
    (ht : s.takeLow off value.toNat = (z, v)) (hok : s.regBad lo v = none) (hrule : firstBad (s.hifRules lo v) = some c) :
    Gives (.highWordWrite off value) s (fun t => t = z.rejectOff off c ∧ SameMemory s t ∧ SameRegs s t (fun _ => False)) := by
  obtain ⟨hmem, hregs, hbad⟩ := takeLow_keeps ht
  obtain ⟨hmem', hregs'⟩ := rejectOff_frame z off c
  have hwide : z.wideBad lo v = some c := by
    rw [wideBad_hif hpage (by rw [hbad, hok]), hifRules_of_sameRegs hregs, hrule]
  exact ⟨_, (exec_highWordWrite hw ho hp ht).trans (by rw [wideWrite_bad hpage hreg hacc hwide]), rfl, hmem.trans hmem', hregs.trans hregs'⟩

end

/-- Settles O53: each register's field check passes only with the page's power on, so the write comes to HIF's rules, and the
register's own rule answers. -/
theorem statusAddressAndApertureAreGuarded : Obligations.StatusAddressAndApertureAreGuarded := by
  unfold Obligations.StatusAddressAndApertureAreGuarded
  intro s z value v
  refine ⟨fun ht hok hen => ?_, fun ht hok hcap => ?_⟩
  · have hpage : pageAt (rOff .hif 0 0x40 / 4096) = some (.hif, 0) := by decide
    have hrule : firstBad (s.hifRules (rOff .hif 0 0x40) v) = some .state := by
      unfold State.hifRules; rw [hen]; rfl
    exact gives_hif_rejected hpage rfl rfl (by decide) (by decide) (hif_low (hif_on hpage hok)).1 ht hok hrule
  · have hpage : pageAt (rOff .hif 0 0x50 / 4096) = some (.hif, 0) := by decide
    have hrule : firstBad (s.hifRules (rOff .hif 0 0x50) v) = some .range := by
      have hcap' : v + 2 ^ 30 > s.lpCap := by omega
      unfold State.hifRules; rw [decide_eq_true hcap']; rfl
    exact gives_hif_rejected hpage rfl rfl (by decide) (by decide) (hif_low (hif_on hpage hok)).2 ht hok hrule

end Sys2Proof.Machine
end

section
/-!
PROOFS. The test access port: what SCAN_LOCK_STATUS captures, and what SEC.LOCK.TAPVEND shuts off (R561).
-/
open Sys2Proof Sys2Proof.Machine

namespace Sys2Proof.Machine

section
variable {s : State}

/-- The port's own state is no register and no memory. -/
theorem withTap_frame (s : State) (x : TapSt) : SameMemory s (s.withTap x) ∧ SameRegs s (s.withTap x) (fun _ => False) :=
  ⟨⟨fun _ => rfl, fun _ => rfl⟩, fun _ _ => rfl⟩

/-! ### The capture -/

/-- What SCAN_LOCK_STATUS captures, with the fields at their places in the scan register. -/
def State.lockScan (s : State) : Nat := bits (s.reg .sec 0 0x40) 6 0 + s.sec.stage * 256 + (if s.sec.recovery then 4096 else 0)

/-- The model's shifts put each field where `State.lockScan` has it. -/
theorem lockScan_eq_shifts (s : State) :
    s.lockScan = bits (s.reg .sec 0 0x40) 6 0 + (s.sec.stage <<< 8) + (b2n s.sec.recovery <<< 12) := by
  have hstage : s.sec.stage <<< 8 = s.sec.stage * 256 := Nat.shiftLeft_eq _ _
  have hrecovery : b2n s.sec.recovery <<< 12 = if s.sec.recovery then 4096 else 0 := by
    cases s.sec.recovery <;> rfl
  rw [hstage, hrecovery, State.lockScan]

theorem exec_scanLockStatus (hir : s.tap.ir = 0x22) :
    exec .scanLockStatus s = .next (s.withTap { s.tap with scan := s.lockScan }) := by
  rw [lockScan_eq_shifts]
  exact congrArg Host.Outcome.next (if_neg (not_not_intro hir))

/-! ### Instructions under TAPVEND -/

/-- A listed instruction is selected whatever the locks and PERST_N are (R557). -/
theorem exec_tapInstruction_listed {code : Byte} (hcode : [0x01, 0x02, 0x20, 0x21, 0x22].contains code.toNat = true) :
    exec (.tapInstruction code) s = .next (s.withTap { s.tap with ir := code.toNat }) := by
  have hsel : ([0x01, 0x02, 0x20, 0x21, 0x22].contains code.toNat || (s.perst && [0x00, 0x03, 0x04].contains code.toNat)) = true := by
    rw [hcode, Bool.true_or]
  exact congrArg (fun c => Host.Outcome.next (s.withTap { s.tap with ir := c })) (if_pos hsel)

theorem exec_mbistAccess_locked (hlock : s.locked 4 = true) (value : DWord) : exec (.mbistAccess value) s = .next s :=
  congrArg Host.Outcome.next (if_pos (.inr (.inl hlock)))

theorem exec_arrayProbe_locked (hlock : s.locked 4 = true) (value : Word) : exec (.arrayProbe value) s = .next s :=
  congrArg Host.Outcome.next (if_pos (.inr hlock))

/-! ### The write that sets TAPVEND -/

/-- A LOCK write that passes its checks, clears no lock and sets TAPVEND also empties the taps' selections. -/
theorem exec_lockWrite_tapvend {value : Word} (hok : s.regBad (rOff .sec 0 0x40) value.toNat = none)
    (hkeep : s.reg .sec 0 0x40 &&& value.toNat = s.reg .sec 0 0x40) (hvend : bit value.toNat 4 = true) :
    exec (.lockWrite value) s = .next ((s.setReg .sec 0 0x40 value.toNat).withTap { s.tap with probe := [] }) :=
  congrArg Host.Outcome.next ((regWrite_ok hok (decide_eq_false (not_not_intro hkeep)) rfl).trans (if_pos hvend))

end

/-- Settles O54: under TAPVEND both instructions can still be selected but act on nothing, and the write that sets it leaves the
taps' map empty, where every selection reads 0. -/
theorem theLockStatusIsCaptured : Obligations.TheLockStatusIsCaptured := by
  unfold Obligations.TheLockStatusIsCaptured
  intro s
  refine ⟨fun hir => ?_, fun hlock => ⟨?_, ?_, ?_, ?_⟩, fun value hok hkeep hvend => ?_⟩
  · exact gives (exec_scanLockStatus hir) ⟨rfl, rfl, rfl, withTap_frame s _⟩
  · exact gives (exec_tapInstruction_listed (by decide)) rfl
  · exact gives (exec_tapInstruction_listed (by decide)) rfl
  · exact exec_mbistAccess_locked hlock
  · exact exec_arrayProbe_locked hlock
  · exact gives (exec_lockWrite_tapvend hok hkeep hvend) (fun _ => rfl)

end Sys2Proof.Machine
end

section
/-!
PROOFS. What every command keeps: the queue of waiting commands (log 1), and the legal form of the state (R399, R456, R481, R514).
One lemma for each operation of the model, which names the operations it is made of, in their order.
-/
open Sys2Proof Sys2Proof.Machine

namespace Sys2Proof.Machine

/-! ### The relation -/

/-- From `s` to `t` no command joined or left the queue, and a legal state stayed legal. -/
structure Keeps (s t : State) : Prop where
  pending : t.pending = s.pending
  legal   : s.Legal → t.Legal

/-- The parts of the state that `Keeps` speaks of. -/
def State.keptParts (s : State) : List Instr × FMap Word × FMap Byte × FMap Byte × FMap Byte × Nat × Nat × Nat × List Event :=
  (s.pending, s.regs, s.mem, s.lpmem, s.sec.flash, s.sec.stage, s.thm.st, s.hld.st, s.events)

/-- Whatever state an outcome goes on to is kept. -/
def KeepsOut (s : State) (o : Host.Outcome State Fault Refusal) : Prop := ∀ t, o = .next t → Keeps s t

/-- The state that an operation answers beside a value is kept. -/
def KeepsFst {α : Type} (s : State) (p : State × α) : Prop := Keeps s p.1

/-- Whatever state an operation that may fail answers is kept. -/
def KeepsOpt (s : State) (o : Option State) : Prop := ∀ t, o = some t → Keeps s t

theorem Keeps.refl (s : State) : Keeps s s := ⟨rfl, id⟩

section
variable {s t u : State} (h : Keeps s t)
include h

theorem Keeps.step_of (hp : u.pending = t.pending) (hl : t.Legal → u.Legal) : Keeps s u := ⟨hp.trans h.pending, hl ∘ h.legal⟩

/-- An update of other parts of the state. -/
theorem Keeps.congr (e : u.keptParts = t.keptParts) : Keeps s u := by
  obtain ⟨hp, hr, hm, hl, hf, hs, ht, hh, he⟩ : u.pending = t.pending ∧ u.regs = t.regs ∧ u.mem = t.mem ∧ u.lpmem = t.lpmem ∧
      u.sec.flash = t.sec.flash ∧ u.sec.stage = t.sec.stage ∧ u.thm.st = t.thm.st ∧ u.hld.st = t.hld.st ∧ u.events = t.events := by
    simpa only [State.keptParts, Prod.mk.injEq] using e
  refine h.step_of hp fun l => ⟨?_, ?_, ?_, ?_, ?_, ?_, ?_, ?_⟩
  · rw [hr]; exact l.regs
  · rw [hm]; exact l.mem
  · rw [hl]; exact l.lpmem
  · rw [hf]; exact l.flash
  · rw [hs]; exact l.stage
  · rw [ht]; exact l.therm
  · rw [hh]; exact l.holdup
  · rw [he]; exact l.events

theorem Keeps.foldl {α : Type} {f : State → α → State} {l : List α} (hf : ∀ {u a}, Keeps s u → Keeps s (f u a)) : Keeps s (l.foldl f t) := by
  induction l generalizing t with
  | nil => exact h
  | cons a r ih => exact ih (hf h)

end

/-- A fold that carries a value beside the state. -/
theorem Keeps.foldlFst {α β : Type} {f : State × β → α → State × β} {l : List α} {s : State} {p : State × β} (h : Keeps s p.1)
    (hf : ∀ {q a}, Keeps s q.1 → Keeps s (f q a).1) : Keeps s (l.foldl f p).1 := by
  induction l generalizing p with
  | nil => exact h
  | cons a r ih => exact ih (hf h)

section
variable {s a b : State} {c : Prop} [Decidable c]

theorem Keeps.ite (ha : Keeps s a) (hb : Keeps s b) : Keeps s (if c then a else b) := by
  split
  · exact ha
  · exact hb

theorem KeepsOut.next (h : Keeps s a) : KeepsOut s (.next a) := fun _ e => by cases e; exact h

theorem KeepsFst.pair {α : Type} {x : α} (h : Keeps s a) : KeepsFst s (a, x) := h

theorem KeepsFst.ite {α : Type} {p q : State × α} (hp : KeepsFst s p) (hq : KeepsFst s q) : KeepsFst s (if c then p else q) := by
  split
  · exact hp
  · exact hq

theorem KeepsOpt.some (h : Keeps s a) : KeepsOpt s (some a) := fun _ e => by cases e; exact h

theorem KeepsOpt.none : KeepsOpt s none := fun _ e => by cases e

theorem KeepsOpt.map {o : Option State} {f : State → State} (h : KeepsOpt s o) (hf : ∀ {u}, Keeps s u → Keeps s (f u)) : KeepsOpt s (o.map f) := by
  cases o with
  | none => exact .none
  | some u => exact .some (hf (h u rfl))

end

theorem thmNext_le (st : Nat) (q : Int) : thmNext st q ≤ 3 := by
  unfold thmNext
  repeat' split
  all_goals decide

/-! ### The operations, in the order of the model's files -/

section
variable {s t : State} (h : Keeps s t)
include h

theorem Keeps.setArr {k a} : Keeps s (t.setArr k a) := (h.congr rfl)
theorem Keeps.modArr {k f} : Keeps s (t.modArr k f) := h.setArr
theorem Keeps.setTile {k t'} : Keeps s (t.setTile k t') := (h.congr rfl)
theorem Keeps.modTile {k f} : Keeps s (t.modTile k f) := h.setTile
theorem Keeps.setClu {c x} : Keeps s (t.setClu c x) := (h.congr rfl)
theorem Keeps.modClu {c f} : Keeps s (t.modClu c f) := h.setClu
theorem Keeps.setCtx {c x} : Keeps s (t.setCtx c x) := (h.congr rfl)
theorem Keeps.modCtx {c f} : Keeps s (t.modCtx c f) := h.setCtx
theorem Keeps.modCmp {c f} : Keeps s (t.modCmp c f) := (h.congr rfl)
theorem Keeps.modQueue {q f} : Keeps s (t.modQueue q f) := (h.congr rfl)
theorem Keeps.modPage {p f} : Keeps s (t.modPage p f) := (h.congr rfl)
theorem Keeps.modUnit {u} {f} : Keeps s (t.modUnit u f) := (h.congr rfl)
theorem Keeps.modDom {d f} : Keeps s (t.modDom d f) := (h.congr rfl)
theorem Keeps.setGs {g v} : Keeps s (t.setGs g v) := (h.congr rfl)
theorem Keeps.withFree {x} : Keeps s (t.withFree x) := (h.congr rfl)
theorem Keeps.withPerst {x} : Keeps s (t.withPerst x) := (h.congr rfl)
theorem Keeps.withRailOk {x} : Keeps s (t.withRailOk x) := (h.congr rfl)
theorem Keeps.withHost {x} : Keeps s (t.withHost x) := (h.congr rfl)
theorem Keeps.withLpBad {x} : Keeps s (t.withLpBad x) := (h.congr rfl)
theorem Keeps.withOps {x} : Keeps s (t.withOps x) := (h.congr rfl)
theorem Keeps.withNextOp {x} : Keeps s (t.withNextOp x) := (h.congr rfl)
theorem Keeps.withReports {x} : Keeps s (t.withReports x) := (h.congr rfl)
theorem Keeps.withInvAll {x} : Keeps s (t.withInvAll x) := (h.congr rfl)
theorem Keeps.withEpochCtr {x} : Keeps s (t.withEpochCtr x) := (h.congr rfl)
theorem Keeps.withJobs {x} : Keeps s (t.withJobs x) := (h.congr rfl)
theorem Keeps.withCarriers {x} : Keeps s (t.withCarriers x) := (h.congr rfl)
theorem Keeps.withFhp {x} : Keeps s (t.withFhp x) := (h.congr rfl)
theorem Keeps.withCol {x} : Keeps s (t.withCol x) := (h.congr rfl)
theorem Keeps.withHkc {x} : Keeps s (t.withHkc x) := (h.congr rfl)
theorem Keeps.withXng {x} : Keeps s (t.withXng x) := (h.congr rfl)
theorem Keeps.withQfreq {x} : Keeps s (t.withQfreq x) := (h.congr rfl)
theorem Keeps.withLpx {x} : Keeps s (t.withLpx x) := (h.congr rfl)
theorem Keeps.withDsy {x} : Keeps s (t.withDsy x) := (h.congr rfl)
theorem Keeps.withChain {x} : Keeps s (t.withChain x) := (h.congr rfl)
theorem Keeps.withCfg {x} : Keeps s (t.withCfg x) := (h.congr rfl)
theorem Keeps.withTap {x} : Keeps s (t.withTap x) := (h.congr rfl)
theorem Keeps.draw : KeepsFst s t.draw := .pair h.withFree
theorem Keeps.wr {off v} : Keeps s (t.wr off v) := h.step_of rfl fun l => { l with regs := FMap.wf_put wordReset _ _ _ l.regs }
theorem Keeps.put64 {off v} : Keeps s (t.put64 off v) := h.wr.wr
theorem Keeps.wr64 {off v} : Keeps s (t.wr64 off v) := h.put64.modPage
theorem Keeps.setReg {t' i o v} : Keeps s (t.setReg t' i o v) := h.wr
theorem Keeps.setReg64 {t' i o v} : Keeps s (t.setReg64 t' i o v) := h.wr64
theorem Keeps.bump {t' i o n} : Keeps s (t.bump t' i o n) := .ite h h.setReg
theorem Keeps.bump64 {t' i o n} : Keeps s (t.bump64 t' i o n) := .ite h h.setReg64
theorem Keeps.reject {p c o} : Keeps s (t.reject p c o) := h.modPage
theorem Keeps.rejectOff {off c} : Keeps s (t.rejectOff off c) := h.reject
theorem Keeps.hostWrite {a bs} : Keeps s (t.hostWrite a bs) := .ite h.withHost h
theorem Keeps.cmdWrite {e a bs} : Keeps s (t.cmdWrite e a bs) := by
  unfold State.cmdWrite
  split
  · exact .ite h h.hostWrite
  · exact h
theorem Keeps.complete {e c r0 r1 flags gennum} : Keeps s (t.complete e c r0 r1 flags gennum) := by
  unfold State.complete
  dsimp only
  split
  · exact h
  · exact .ite h.modQueue h.modQueue.hostWrite.setReg.modQueue.bump64
theorem Keeps.marked {e} : Keeps s (t.marked e) := h.modQueue
theorem Keeps.begin {e op act} (hact : ∀ {u}, Keeps s u → Keeps s (act u)) : Keeps s (t.begin e op act) :=
  .ite (.ite (hact h.marked) h.marked.complete) h
theorem Keeps.fail {e c} : Keeps s (t.fail e c) := h.complete
theorem Keeps.report {r} : Keeps s (t.report r) := h.withReports
theorem Keeps.memWrite {a bs} : Keeps s (t.memWrite a bs) := h.step_of rfl fun l => { l with mem := memWrite_wf _ _ _ l.mem }
theorem Keeps.lpWrite {a bs} : Keeps s (t.lpWrite a bs) := by
  have hw : Keeps s { t with lpmem := writeBytes 0 t.lpmem a bs, lpBad := clearBlocks t.lpBad a bs.length } :=
    h.step_of rfl fun l => { l with lpmem := writeBytes_wf 0 _ _ _ l.lpmem }
  exact hw.bump64.bump64
theorem Keeps.lpCountRead {a n} : Keeps s (t.lpCountRead a n) := h.bump64.bump64
theorem Keeps.engWrite {a bs} : Keeps s (t.engWrite a bs) := .ite h.lpWrite h.memWrite
theorem Keeps.galFault {n a ctx invoc} : Keeps s (t.galFault n a ctx invoc) := h.bump.setReg.report
theorem Keeps.spadFault {c off ctx invoc} : Keeps s (t.spadFault c off ctx invoc) := h.bump.setReg.report
theorem Keeps.memFault {a ctx invoc} : Keeps s (t.memFault a ctx invoc) := .ite h.galFault h.spadFault
theorem Keeps.lpFault {a ctx invoc} : Keeps s (t.lpFault a ctx invoc) := h.bump.setReg64.report
theorem Keeps.readFault {lp a ctx invoc} : Keeps s (t.readFault lp a ctx invoc) := .ite h.lpFault h.memFault
theorem Keeps.cfgAdvance : Keeps s t.cfgAdvance := .ite h.withCfg.withChain h.withCfg
theorem Keeps.setStream {ctx i st} : Keeps s (t.setStream ctx i st) := h.modCtx
theorem Keeps.stopAt {ctx stream c} : Keeps s (t.stopAt ctx stream c) := by
  unfold State.stopAt
  dsimp only
  split
  · exact h
  · exact .ite h h.modCtx.setReg
theorem Keeps.issued {st} : Keeps s (t.issued st) := h.bump64
theorem Keeps.control {ctx i st st' next} : Keeps s (t.control ctx i st st' next) := h.setStream.issued
theorem Keeps.rise {o} : Keeps s (t.rise o) := .ite h (.ite (.ite h.stopAt h.setGs) (.ite h.stopAt h.setStream))
theorem Keeps.semTake {ctx i w} : Keeps s (t.semTake ctx i w) := .ite h (.ite h.setGs h.setStream)
theorem Keeps.scoreboard {l : List TAcc} : KeepsFst s (t.scoreboard l) := by
  induction l generalizing t with
  | nil => exact h
  | cons a r ih => exact KeepsFst.pair (ih (.ite h.bump (.ite h.bump h)))
theorem Keeps.countDelivered {c n} : Keeps s (t.countDelivered c n) := by
  unfold State.countDelivered
  dsimp only
  exact h.modClu
theorem Keeps.takeDraws {o} : KeepsFst s (t.takeDraws o) := .ite (.pair h.modClu) (.ite (.pair h.modClu) (.pair h))
theorem Keeps.countArrival {o} : Keeps s (t.countArrival o) := .ite h (.ite h.countDelivered.modCtx h.countDelivered)
theorem Keeps.arrive {o} : Keeps s (t.arrive o) := h.scoreboard.takeDraws.countArrival.withOps
theorem Keeps.submit {ctx i st o} : Keeps s (t.submit ctx i st o) :=
  .ite h.withNextOp.arrive.setStream.issued h.withNextOp.setStream.withOps
theorem Keeps.accept {o} : Keeps s (t.accept o) := .ite h.withOps.arrive.setStream.issued h.withOps
theorem Keeps.engineNext {o} : Keeps s (t.engineNext o) := by
  unfold State.engineNext
  split
  · exact h
  · exact .ite h.accept h
theorem Keeps.dropOp {o} : Keeps s (t.dropOp o) := h.withOps.engineNext
theorem Keeps.retire {o} : Keeps s (t.retire o) := h.rise.dropOp
theorem Keeps.stopOp {o c} : Keeps s (t.stopOp o c) := h.stopAt.dropOp
theorem Keeps.putOp {o} : Keeps s (t.putOp o) := h.withOps
theorem Keeps.logWrite {ctx} {u} {c} {tile} : Keeps s (t.logWrite ctx u c tile) := h.modCtx
theorem Keeps.logOp {o} {u} {c} {tile} : Keeps s (t.logOp o u c tile) := h.logWrite.logWrite
theorem Keeps.writeTile {o c k add vs rng co cl} : KeepsOpt s (t.writeTile o c k add vs rng co cl) := by
  unfold State.writeTile
  dsimp only
  split
  · exact .none
  · exact .some h.setTile.bump.bump.logOp
theorem Keeps.tileFault {ctx invoc c t' e} : Keeps s (t.tileFault ctx invoc c t' e) := h.bump.report
theorem execNop_keeps {ctx i} : KeepsOut s (execNop ctx i t) := by
  unfold execNop
  refine .next ?_
  split
  · exact h
  · exact h.control
theorem execLoop_keeps {ctx i} : KeepsOut s (execLoop ctx i t) := by
  unfold execLoop
  dsimp only
  refine .next ?_
  split
  · exact h
  · exact .ite h.control h.control
theorem execEndloop_keeps {ctx i} : KeepsOut s (execEndloop ctx i t) := by
  unfold execEndloop
  refine .next ?_
  split
  · exact h
  · split
    · exact h.control
    · exact .ite h.control h.control
theorem execBrc_keeps {ctx i} : KeepsOut s (execBrc ctx i t) := by
  unfold execBrc
  dsimp only
  refine .next ?_
  split
  · exact h
  · exact .ite h.control h.control
theorem execWait_keeps {ctx i} : KeepsOut s (execWait ctx i t) := by
  unfold execWait
  refine .next ?_
  split
  · exact h
  · split
    · exact h.stopAt
    · exact h.control
theorem execWaitMet_keeps {ctx i cycles} : KeepsOut s (execWaitMet ctx i cycles t) := by
  unfold execWaitMet
  dsimp only
  refine .next ?_
  split
  · exact h
  · split
    · exact h
    · exact .ite h.semTake.setStream.bump64 h
theorem execWaitLimit_keeps {ctx i} : KeepsOut s (execWaitLimit ctx i t) := by
  unfold execWaitLimit
  dsimp only
  refine .next ?_
  split
  · exact h
  · split
    · exact h
    · split
      · exact .ite h h.stopAt
      · split
        · exact h.stopOp
        · exact h
theorem execSig_keeps {ctx i} : KeepsOut s (execSig ctx i t) := by
  unfold execSig
  dsimp only
  refine .next ?_
  split
  · exact h
  · exact .ite (.ite h.stopAt h.setGs.control) (.ite h.stopAt h.control)
theorem execHalt_keeps {ctx i} : KeepsOut s (execHalt ctx i t) := by
  unfold execHalt
  refine .next ?_
  split
  · exact h
  · exact h.control
theorem execSeta_keeps {ctx i} : KeepsOut s (execSeta ctx i t) := by
  unfold execSeta
  dsimp only
  refine .next ?_
  split
  · exact h
  · exact h.control
theorem execAdda_keeps {ctx i} : KeepsOut s (execAdda ctx i t) := by
  unfold execAdda
  dsimp only
  refine .next ?_
  split
  · exact h
  · exact h.control
theorem execClusterEntryRelease_keeps {c held} : KeepsOut s (execClusterEntryRelease c held t) := by
  unfold execClusterEntryRelease
  dsimp only
  refine .next ?_
  split
  · exact h
  · exact .ite h.withOps (.ite h.bump64.accept h)
theorem execTileOpRelease_keeps {c t'} : KeepsOut s (execTileOpRelease c t' t) := by
  unfold execTileOpRelease
  dsimp only
  refine .next ?_
  split
  · exact h
  · exact h.putOp
theorem Keeps.setChain {c ix x} : Keeps s (t.setChain c ix x) := h.modClu
theorem Keeps.chainIssue {ctx st w f id} : KeepsFst s (t.chainIssue ctx st w f id) := by
  unfold State.chainIssue
  dsimp only
  split
  · split
    · exact .pair h.setChain
    · split
      · exact .pair h
      · exact .pair h.setChain
  · split
    · exact .pair h
    · exact .pair h.setChain
theorem Keeps.mvmIssue {ctx i v st w} : Keeps s (t.mvmIssue ctx i v st w) := by
  unfold State.mvmIssue
  dsimp only
  split
  · exact h.stopAt
  · exact (Keeps.ite h.chainIssue.modCtx h.chainIssue.modCtx).submit
theorem execMvm_keeps {ctx i} : KeepsOut s (execMvm ctx i t) := by
  unfold execMvm
  refine .next ?_
  split
  · exact h
  · exact h.mvmIssue
theorem execMvms_keeps {ctx i} : KeepsOut s (execMvms ctx i t) := by
  unfold execMvms
  refine .next ?_
  split
  · exact h
  · exact h.mvmIssue
theorem execRefread_keeps {ctx i} : KeepsOut s (execRefread ctx i t) := by
  unfold execRefread
  dsimp only
  refine .next ?_
  split
  · exact h
  · split
    · exact h.stopAt
    · exact h.submit
theorem Keeps.runVector {c a o k n dev} : Keeps s (t.runVector c a o k n dev) := h.setArr.modPage.putOp.withFree
theorem execVectorStart_keeps {c a dev} : KeepsOut s (execVectorStart c a dev t) := by
  unfold execVectorStart
  dsimp only
  refine .next ?_
  split
  · exact h
  · split
    · exact h
    · split
      · exact h
      · split
        · exact h.readFault.stopOp
        · exact h.runVector
theorem Keeps.checkValue {c a o r inv tol ck} : Keeps s (State.checkValue c a o r inv tol t ck) := .ite h h.modArr.modCtx.report
theorem Keeps.checkValues {c a o r} : Keeps s (t.checkValues c a o r) := h.foldl fun h => h.checkValue
theorem Keeps.writeGroups {c a o r} {n : Nat} : KeepsOpt s (t.writeGroups c a o r n) := by
  induction n with
  | zero => exact .some h
  | succ n ih =>
    unfold State.writeGroups
    split
    · exact .none
    · next u hu => exact (ih u hu).writeTile.map fun h => h.logWrite
theorem Keeps.chainResult {c u o ix r} : KeepsOpt s (t.chainResult c u o ix r) := by
  unfold State.chainResult
  dsimp only
  split
  · exact h.logWrite.writeTile.map fun h => h.setChain
  · exact .some h.logWrite.setChain
theorem Keeps.deliver {c a o r} : KeepsOpt s (t.deliver c a o r) := by
  unfold State.deliver
  split
  · exact h.chainResult
  · exact h.writeGroups
theorem Keeps.finishVector {c o r} : Keeps s (t.finishVector c o r) := by
  unfold State.finishVector
  dsimp only
  split
  · exact h.tileFault.stopOp
  · next u hu => exact .ite (h.deliver u hu).retire (h.deliver u hu).putOp
theorem execVectorResult_keeps {c a residueOk} : KeepsOut s (execVectorResult c a residueOk t) := by
  unfold execVectorResult
  dsimp only
  refine .next ?_
  split
  · exact h
  · split
    · exact h.modArr
    · split
      · exact h.modArr.report.stopOp
      · split
        · exact h
        · split
          · exact h.modArr.checkValues.finishVector
          · split
            · exact h.modArr.checkValues.putOp
            · exact (Keeps.ite h.modArr.checkValues.report h.modArr.checkValues).finishVector
theorem Keeps.setRefs {k s0 s1} : Keeps s (t.setRefs k s0 s1) := h.modArr.modPage
theorem execRefreadDone_keeps {c a s0 s1} : KeepsOut s (execRefreadDone c a s0 s1 t) := by
  unfold execRefreadDone
  dsimp only
  refine .next ?_
  split
  · exact h
  · exact .ite h (Keeps.ite h.setRefs.engWrite h.setRefs).retire
theorem Keeps.accIssue {ctx i st f} : Keeps s (t.accIssue ctx i st f) := by
  unfold State.accIssue
  split
  · exact h.stopAt
  · exact h.submit
theorem execDrain_keeps {ctx i} : KeepsOut s (execDrain ctx i t) := by
  unfold execDrain
  refine .next ?_
  split
  · exact h
  · exact h.accIssue
theorem execArgx_keeps {ctx i} : KeepsOut s (execArgx ctx i t) := by
  unfold execArgx
  refine .next ?_
  split
  · exact h
  · exact h.accIssue
theorem execAsave_keeps {ctx i} : KeepsOut s (execAsave ctx i t) := by
  unfold execAsave
  refine .next ?_
  split
  · exact h
  · exact h.accIssue
theorem execArestore_keeps {ctx i} : KeepsOut s (execArestore ctx i t) := by
  unfold execArestore
  refine .next ?_
  split
  · exact h
  · exact h.accIssue
theorem execAzero_keeps {ctx i} : KeepsOut s (execAzero ctx i t) := by
  unfold execAzero
  refine .next ?_
  split
  · exact h
  · exact h.accIssue
theorem execCmpr_keeps {ctx i} : KeepsOut s (execCmpr ctx i t) := by
  unfold execCmpr
  refine .next ?_
  split
  · exact h
  · exact h.accIssue
theorem Keeps.readTile {c t' n} : Keeps s (t.readTile c t' n) := .ite h h.setTile.bump
theorem Keeps.stallAt {a n} : Keeps s (t.stallAt a n) := .ite h (.ite h.bump (.ite h.bump h))
theorem Keeps.runDrain {c o} : Keeps s (t.runDrain c o) := by
  unfold State.runDrain
  dsimp only
  split
  · exact h.tileFault.stopOp
  · split
    · exact h.readFault.stopOp
    · exact h.readTile.modCtx.engWrite.bump.bump.bump64.retire
theorem Keeps.runArgx {c o} : Keeps s (t.runArgx c o) := by
  unfold State.runArgx
  dsimp only
  split
  · exact h.tileFault.stopOp
  · split
    · exact h.readFault.stopOp
    · exact h.readTile.modCtx.engWrite.bump.retire
theorem execDrainRetire_keeps {c stall} : KeepsOut s (execDrainRetire c stall t) := by
  unfold execDrainRetire
  dsimp only
  refine .next ?_
  split
  · exact h
  · exact .ite h.bump.stallAt.runDrain h.bump.stallAt.runArgx
theorem Keeps.restoreTiles {o c im} {l : List Nat} {k} : Keeps s (t.restoreTiles o c im l k) := by
  induction l generalizing t k with
  | nil => exact h
  | cons i r ih => exact ih h.modTile.logOp
theorem execAccOpRetire_keeps {c} : KeepsOut s (execAccOpRetire c t) := by
  unfold execAccOpRetire
  dsimp only
  refine .next ?_
  split
  · exact h
  · split
    · exact (h.foldl fun h => h.modTile.logOp).retire
    · split
      · split
        · exact h.tileFault.stopOp
        · exact h.engWrite.retire
      · split
        · exact h.readFault.stopOp
        · split
          · exact (Keeps.ite h.lpCountRead h).stopOp
          · exact (Keeps.ite h.lpCountRead h).restoreTiles.retire
theorem execCmprDone_keeps {c} : KeepsOut s (execCmprDone c t) := by
  unfold execCmprDone
  refine .next ?_
  split
  · exact h
  · extract_lets w d t1 t2 n x y inv
    split
    · exact h.tileFault.stopOp
    · exact h.tileFault.stopOp
    · next r bad first big s1 s2 s3 _ _ _ _ =>
      have h2 : Keeps s s2 := .ite h.readTile.readTile.engWrite h.readTile.readTile
      exact .ite h2.retire (.ite h2.report.stopOp h2.report.retire)
theorem execRbselGo_keeps {c v} : KeepsOut s (execRbselGo c v t) :=
  .next (.ite h (.ite h.rejectOff (.ite h.rejectOff (.ite (.ite h.rejectOff h.setReg.scoreboard.withOps.withNextOp.modClu) h.setReg))))
theorem execReadbackArrive_keeps {c} : KeepsOut s (execReadbackArrive c t) := by
  unfold execReadbackArrive
  dsimp only
  refine .next ?_
  split
  · exact .ite h (.ite h.withOps.modClu.modPage.tileFault h.withOps.modClu.modPage)
  · exact h
theorem Keeps.reply {bs} : Keeps s (t.reply bs) := h.withHost
theorem execRbdataRead_keeps {c size} : KeepsOut s (execRbdataRead c size t) :=
  .next (.ite h (.ite h.reply (.ite (Keeps.ite h.reply.modPage h.reply).modClu (.ite h.reply.modPage h.reply))))
theorem Keeps.flashWrite {a bs} : Keeps s (t.flashWrite a bs) := h.step_of rfl fun l => { l with flash := writeBytes_wf _ _ _ _ l.flash }
/-- Erased bytes of the boot flash read 0xFF. -/
theorem Keeps.flashErase {p} : Keeps s { t with sec := { t.sec with flash := t.sec.flash.filter p } } :=
  h.step_of rfl fun l => { l with flash := FMap.wf_filter _ _ _ l.flash }
theorem Keeps.memErase {p x} : Keeps s { t with mem := t.mem.filter p, parBad := x } :=
  h.step_of rfl fun l => { l with mem := memory_filter_wf _ _ l.mem }
theorem Keeps.regsErase {p} : Keeps s { t with regs := t.regs.filter p } :=
  h.step_of rfl fun l => { l with regs := FMap.wf_filter _ _ _ l.regs }
theorem Keeps.dirWrite {d ok} : Keeps s (t.dirWrite d ok) := .ite h.flashErase.flashWrite h.flashErase
theorem Keeps.sigCount {img} : Keeps s (t.sigCount img) := h.bump
theorem Keeps.colQueue {w} : Keeps s (t.colQueue w) := .ite h h.withCol
theorem execColophonStepStart_keeps : KeepsOut s (execColophonStepStart t) := by
  unfold execColophonStepStart
  dsimp only
  refine .next ?_
  split
  · exact h
  · split
    · exact .ite h.setReg.bump.withCol (.ite h.setReg h.setReg.bump.withCol)
    · exact h
theorem Keeps.ringTaken {k recs} : Keeps s (t.ringTaken k recs) := h.foldl fun h => h.foldl fun h => .ite h.modArr h
theorem Keeps.colStepEnd : KeepsFst s t.colStepEnd := by
  unfold State.colStepEnd
  dsimp only
  split
  · exact .pair h
  · split
    · exact .ite (.pair (Keeps.ite h.withCol.bump64.ringTaken h.withCol.bump64).withCol.bump) (.pair (Keeps.ite h.withCol.bump64.ringTaken h.withCol.bump64).withCol)
    · exact .pair h
theorem Keeps.ctxDone {e c r0 r1 flags gennum} : Keeps s (t.ctxDone e c r0 r1 flags gennum) := h.complete
theorem Keeps.unfenceAnswer {u} {c} : Keeps s (t.unfenceAnswer u c) := h.withJobs.foldl fun h => h.complete
theorem Keeps.settleTests : Keeps s t.settleTests := h.foldl fun h => .ite (h.withJobs.foldl fun h => h.modClu).withJobs h.withJobs.ctxDone
theorem Keeps.testCount {kind} {u} {pass} : Keeps s (t.testCount kind u pass) := h.withJobs
theorem Keeps.histAdmit {u} : Keeps s (t.histAdmit u) := by
  unfold State.histAdmit
  dsimp only
  split
  · exact h
  · split
    · exact h.withCol
    · split
      · exact h.bump
      · exact h.bump.modUnit.withCol
theorem Keeps.histWrite {u} : Keeps s (t.histWrite u) := by
  unfold State.histWrite
  dsimp only
  split
  · exact h.histAdmit
  · exact h.histAdmit.colQueue
theorem Keeps.confirmIn {u} {reason} {c} : Keeps s (t.confirmIn u reason c) := .ite h (.ite h.modCtx h.modCtx)
theorem Keeps.confirm {u} {reason} : Keeps s (t.confirm u reason) := h.foldl fun h => h.confirmIn
theorem Keeps.loseBacking {c g detail} : Keeps s (t.loseBacking c g detail) := h.modCtx.report
theorem Keeps.backingSlice {c g la} : KeepsFst s (t.backingSlice c g la) := by
  unfold State.backingSlice
  dsimp only
  split
  · exact .pair h
  · exact .ite (.pair h) (.ite (.pair h.lpCountRead) (.pair h.loseBacking))
theorem Keeps.assign {k ctx g la copy lent img slice} : Keeps s (t.assign k ctx g la copy lent img slice) := by
  unfold State.assign
  dsimp only
  exact h.modArr
theorem Keeps.remapStart {key} : Keeps s (t.remapStart key) := by
  unfold State.remapStart
  dsimp only
  split
  · exact h
  · split
    · exact h
    · split
      · exact h.backingSlice
      · exact h.backingSlice.assign.modArr.colQueue
theorem Keeps.doMoves {ms} : Keeps s (t.doMoves ms) := h.foldl fun h => h.modCtx
theorem Keeps.markFenced {u} {reason} : Keeps s (t.markFenced u reason) :=
  .ite h.modUnit.histWrite (.ite (Keeps.ite h.modUnit h.modUnit.bump).colQueue.histWrite (Keeps.ite h.modUnit h.modUnit.bump).colQueue.histWrite.confirm)
theorem Keeps.testLost {key} : Keeps s (t.testLost key) := .ite h.modCtx h
theorem Keeps.fenceArray {key reason} : Keeps s (t.fenceArray key reason) := h.testLost.modArr.markFenced.remapStart.settleTests
theorem Keeps.fenceCluster {c reason} : Keeps s (t.fenceCluster c reason) :=
  (h.foldl fun h => h.testLost.modArr).modClu.markFenced.settleTests
theorem Keeps.fenceAnswer {u} {c} : Keeps s (t.fenceAnswer u c) := h.withJobs.foldl fun h => h.complete
theorem Keeps.cmpFenceDue : Keeps s t.cmpFenceDue := .ite h (h.foldl fun h => by split; exacts [h, .ite h h.markFenced.fenceAnswer])
theorem Keeps.fence {u} {reason} : Keeps s (t.fence u reason) := by
  unfold State.fence
  dsimp only
  split
  · exact h.markFenced
  · split
    · exact .ite h.modUnit h.fenceArray
    · exact h.fenceCluster
    · exact .ite h.markFenced (.ite h.doMoves.modUnit.cmpFenceDue h.modUnit)
    · exact h.markFenced
theorem Keeps.twin {key tw1 tw2} : Keeps s (t.twin key tw1 tw2) := .ite h.modArr (.ite h.bump.modArr h.bump.modArr.report)
theorem Keeps.driftRead {key s0 s1} : Keeps s (t.driftRead key s0 s1) :=
  .ite h.setRefs.modArr.report (.ite h.setRefs.modArr h.setRefs.modArr.withFree)
theorem Keeps.readsDue {c} : Keeps s (t.readsDue c) := h.foldl fun h => h.modArr
theorem Keeps.runBegin {c trig mask} : Keeps s (t.runBegin c trig mask) := h.modCtx.readsDue
theorem Keeps.calTrigger {c trig mask} : Keeps s (t.calTrigger c trig mask) := by
  unfold State.calTrigger
  dsimp only
  split
  · exact h
  · split
    · exact h.runBegin
    · exact .ite h.runBegin (.ite h.modCtx h)
    · exact .ite h h.modCtx
    · exact .ite h h.modCtx
    · exact h
theorem Keeps.evalTriggers {key} : Keeps s (t.evalTriggers key) := .ite h (.ite (Keeps.ite h.calTrigger h).calTrigger (.ite h.calTrigger h))
theorem Keeps.runAnswer {c} : Keeps s (t.runAnswer c) := h.withJobs.foldl fun h => h.ctxDone
theorem Keeps.runIdle {c} : Keeps s (t.runIdle c) := .ite h.modCtx.runAnswer.runBegin h.modCtx.runAnswer
theorem Keeps.countFails {key} : Keeps s (t.countFails key) := h.bump.foldl fun h => h.report
theorem Keeps.refStepArr {k} : Keeps s (t.refStepArr k) := h.modArr.countFails.withFree
theorem execReferenceStep_keeps {c} : KeepsOut s (execReferenceStep c t) :=
  .next (.ite h (Keeps.ite h (h.foldl fun h => h.refStepArr)).modCtx)
theorem execStatWindowClose_keeps {c} : KeepsOut s (execStatWindowClose c t) := .next (.ite h.modCtx.readsDue h)
theorem Keeps.fitArr {k} : Keeps s (t.fitArr k) := h.modArr.countFails
theorem execStatFit_keeps {c} : KeepsOut s (execStatFit c t) := .next (.ite h (h.foldl fun h => h.fitArr).modCtx)
theorem execDriftClockRead_keeps {c a s0 s1 tw1 tw2} : KeepsOut s (execDriftClockRead c a s0 s1 tw1 tw2 t) :=
  .next (.ite h h.modArr.driftRead.twin.evalTriggers)
theorem Keeps.formeSwap {c} : Keeps s (t.formeSwap c) := by
  unfold State.formeSwap
  extract_lets ks s1 clus s2 ok bad put
  have h2 : Keeps s s2 := (h.foldl fun h => h.modArr.withFree).foldl fun h => h.bump.colQueue
  split
  · exact .ite (h2.modCtx.foldl fun h => h.modArr) h2.modCtx.runIdle
  · exact h2.modCtx.runIdle
  · exact h2
theorem Keeps.scalCount {key good bad} : Keeps s (t.scalCount key good bad) := by
  unfold State.scalCount
  dsimp only
  split
  · exact h
  · exact .ite h.withJobs (.ite h.withJobs.complete (.ite h.withJobs.ctxDone h.withJobs.withJobs.calTrigger))
theorem Keeps.takeTrims {k trims} : Keeps s (t.takeTrims k trims) := h.modArr.modClu
theorem Keeps.trimFails {k} : Keeps s (t.trimFails k) := .ite h (.ite h.report (.ite h.fence h))
theorem execConverterSelfCal_keeps {c a trims tw1 tw2} : KeepsOut s (execConverterSelfCal c a trims tw1 tw2 t) :=
  .next (.ite h h.takeTrims.trimFails.twin.scalCount)
theorem execCalRun_keeps {e} : KeepsOut s (execCalRun e t) := by
  unfold execCalRun
  refine .next ?_
  refine h.begin fun h => ?_
  dsimp only
  split
  · exact h.ctxDone
  · exact .ite h.withJobs (.ite h.ctxDone h.withJobs.calTrigger)
theorem Keeps.refreshInto {k t' sl} : Keeps s (t.refreshInto k t' sl) := h.assign.modArr.modArr.colQueue
theorem execRefreshStart_keeps {c} : KeepsOut s (execRefreshStart c t) := by
  unfold execRefreshStart
  dsimp only
  refine .next ?_
  split
  · exact h
  · split
    · exact h
    · split
      · exact h.fence.report
      · split
        · exact h
        · split
          · exact h.backingSlice
          · exact h.backingSlice.refreshInto
theorem Keeps.proofTiles {c o} {l : List (List (Option FVal))} {ix} : KeepsFst s (t.proofTiles c o ix l) := by
  induction l generalizing t ix with
  | nil => exact h
  | cons vs r ih =>
    unfold State.proofTiles
    dsimp only
    split
    · exact .pair h
    · next u hu => exact ih (h.writeTile u hu)
theorem Keeps.proofDone {c work} : Keeps s (t.proofDone c work) := h.bump64.bump64
theorem Keeps.proofFinish {c o vals work} : Keeps s (t.proofFinish c o vals work) := by
  unfold State.proofFinish
  dsimp only
  split
  · exact h.proofTiles.proofDone.retire
  · exact h.proofTiles.tileFault.stopOp
theorem Keeps.proofFault {c o b may} : Keeps s (t.proofFault c o b may) := h.readFault.bump.proofTiles.withFree.stopOp
theorem execPmm_keeps {ctx i} : KeepsOut s (execPmm ctx i t) := by
  unfold execPmm
  refine .next ?_
  split
  · exact h
  · exact h.accIssue
theorem Keeps.runPmm {c o} : Keeps s (t.runPmm c o) := by
  unfold State.runPmm
  split
  · exact h.proofFault
  · split
    · exact h.proofFault
    · exact h.proofFinish
theorem execPmmc_keeps {ctx i} : KeepsOut s (execPmmc ctx i t) := by
  unfold execPmmc
  refine .next ?_
  split
  · exact h
  · exact h.accIssue
theorem Keeps.runPmmc {c o} : Keeps s (t.runPmmc c o) := by
  unfold State.runPmmc
  dsimp only
  split
  · exact h.proofFault
  · exact h.proofFinish
theorem execPout_keeps {ctx i} : KeepsOut s (execPout ctx i t) := by
  unfold execPout
  refine .next ?_
  split
  · exact h
  · exact h.accIssue
theorem Keeps.writePart {a bs} : Keeps s (t.writePart a bs) := h.engWrite.withFree
theorem Keeps.runPout {c o} : Keeps s (t.runPout c o) := by
  unfold State.runPout
  dsimp only
  split
  · exact h.stopOp
  · split
    · exact h.readFault.bump.stopOp
    · split
      · exact h.stopOp
      · split
        · exact (h.foldl fun h => h.writePart).proofFault
        · exact (h.foldl fun h => h.engWrite).bump.proofFinish
theorem Keeps.spillDeliver {c o a} : Keeps s (t.spillDeliver c o a) := by
  unfold State.spillDeliver
  dsimp only
  split
  · exact h.bump64.proofFinish
  · split
    · next u hu => exact (h.bump64.chainResult u hu).proofDone.retire
    · exact h.bump64.tileFault.stopOp
theorem Keeps.spillRun {c o a} : Keeps s (t.spillRun c o a) := by
  unfold State.spillRun
  split
  · exact h.stopOp
  · split
    · exact h.proofFault
    · split
      · exact h.proofFault
      · exact h.spillDeliver
theorem Keeps.runSpilled {c o} : Keeps s (t.runSpilled c o) := h.spillRun
theorem execProofOpRetire_keeps {c stall residueOk} : KeepsOut s (execProofOpRetire c stall residueOk t) := by
  unfold execProofOpRetire
  dsimp only
  refine .next ?_
  split
  · exact h
  · exact .ite h (.ite h.bump.stallAt.report.stopOp (.ite h.bump.stallAt.runSpilled (.ite h.bump.stallAt.runPmm (.ite h.bump.stallAt.runPmmc h.bump.stallAt.runPout))))
theorem execMove_keeps {ctx i} : KeepsOut s (execMove ctx i t) := by
  unfold execMove
  refine .next ?_
  split
  · exact h
  · exact h.accIssue
theorem execGather_keeps {ctx i} : KeepsOut s (execGather ctx i t) := by
  unfold execGather
  refine .next ?_
  split
  · exact h
  · exact h.accIssue
theorem execPack_keeps {ctx i} : KeepsOut s (execPack ctx i t) := by
  unfold execPack
  refine .next ?_
  split
  · exact h
  · exact h.accIssue
theorem execRank_keeps {ctx i} : KeepsOut s (execRank ctx i t) := by
  unfold execRank
  refine .next ?_
  split
  · exact h
  · exact h.accIssue
theorem execMoveRetire_keeps {c} : KeepsOut s (execMoveRetire c t) := by
  unfold execMoveRetire
  dsimp only
  refine .next ?_
  split
  · exact h
  · split
    · exact h.stopOp
    · split
      · exact h.readFault.stopOp
      · split
        · exact h.stopOp
        · split
          · exact (h.readFault.foldl fun h => h.writePart).stopOp
          · exact ((Keeps.ite (h.foldl fun h => h.lpCountRead) h).foldl fun h => h.engWrite).retire
theorem Keeps.engRefuse {e o c} : Keeps s (t.engRefuse e o c) := h.setReg.stopOp
theorem Keeps.engFault {o b outs} : Keeps s (t.engFault o b outs) := (h.readFault.foldl fun h => h.writePart).stopOp
theorem Keeps.engDone {e o items} : Keeps s (t.engDone e o items) := h.bump64.bump64.retire
theorem Keeps.runGather {o d} : Keeps s (t.runGather o d) := by
  unfold State.runGather
  dsimp only
  split
  · exact h.engFault
  · exact (h.foldl fun h => h.engWrite).bump.bump.engDone
theorem Keeps.addEgress {v first n} : Keeps s (t.addEgress v first n) := h.withCarriers
theorem Keeps.runPack {o d} : Keeps s (t.runPack o d) := by
  unfold State.runPack
  dsimp only
  split
  · exact h.engFault
  · exact (Keeps.engDone (by split; exacts [h.engWrite.bump, h.engWrite.bump.addEgress]))
theorem Keeps.runRank {o d} : Keeps s (t.runRank o d) := by
  unfold State.runRank
  split
  · exact h.engFault
  · exact h.engWrite.engDone
theorem execEngineOpRetire_keeps {e stall} : KeepsOut s (execEngineOpRetire e stall t) := by
  unfold execEngineOpRetire
  dsimp only
  refine .next ?_
  split
  · exact h
  · split
    · exact h.bump.bump.engRefuse
    · split
      · exact h.bump.bump.readFault.engRefuse
      · split
        · exact h.bump.bump.engRefuse
        · exact .ite h.bump.bump.runGather (.ite h.bump.bump.runPack h.bump.bump.runRank)
theorem Keeps.record {c clus} : Keeps s (t.record c clus) := h.colQueue
theorem Keeps.releaseArrays {ks erase} : Keeps s (t.releaseArrays ks erase) := h.foldl fun h => h.modArr
theorem Keeps.returnTargets {ks} : Keeps s (t.returnTargets ks) := h.foldl fun h => h.modArr
theorem Keeps.loadProfiles {c g} : Keeps s (t.loadProfiles c g) := h.foldl fun h => h.modClu
theorem Keeps.loadRows {c g} : Keeps s (t.loadRows c g) := (h.foldl fun h => h.memWrite).foldl fun h => h.foldl fun h => h.memWrite
theorem Keeps.switchTo {c g inplace} : Keeps s (t.switchTo c g inplace) :=
  (Keeps.modCtx (by split; exacts [h, .ite h ((h.foldl fun h => h.modArr).foldl fun h => by split; exacts [h.modArr, h]).returnTargets])).loadProfiles.modCtx.calTrigger
theorem Keeps.dueFences {c} : Keeps s (t.dueFences c) := h.foldl fun h => by dsimp only; split; exacts [h, h.fenceArray.fenceAnswer]
theorem Keeps.replacements {c} : Keeps s (t.replacements c) := by
  unfold State.replacements
  extract_lets ks r u
  refine .ite h (Keeps.calTrigger (Keeps.record (h.foldl fun {v k} h => ?_)))
  extract_lets r u s1 s2 o
  have h2 : Keeps s s2 := .ite h.modArr.modUnit.unfenceAnswer h.modArr
  split
  · exact h2
  · exact .ite h2 (.ite h2.modArr h2.modArr.bump.modCtx)
theorem Keeps.applyMoves {c} : Keeps s (t.applyMoves c) := h.modCtx
theorem Keeps.switchAnswers {c} : Keeps s (t.switchAnswers c) :=
  .ite h.record (h.withJobs.cfgAdvance.foldl fun h => .ite h.modCtx.record.ctxDone h.colQueue)
theorem Keeps.inplaceBegin {c g} : Keeps s (t.inplaceBegin c g) := by
  unfold State.inplaceBegin
  dsimp only
  split
  · exact h
  · exact .ite h ((h.foldl fun h => h.returnTargets).foldl fun h => h.assign.modArr.modArr).modCtx.loadRows
theorem Keeps.boundary {c} : Keeps s (t.boundary c) := by
  unfold State.boundary
  have hswitch : Keeps s (match ((t.dueFences c).ctx c).switchDue with
      | none => t.dueFences c
      | some g => ((t.dueFences c).switchTo c g false).switchAnswers c) := by
    split
    · exact h.dueFences
    · exact h.dueFences.switchTo.switchAnswers
  refine .ite h ?_
  extract_lets s1 s2 s3 s4 s5
  have h4 : Keeps s s4 := hswitch.replacements.formeSwap.applyMoves
  have h5 : Keeps s s5 := by
    unfold s5
    split
    · exact .ite h4.inplaceBegin h4
    · exact h4
  exact .ite h5 h5.modCtx.record
theorem Keeps.freeCtx {c} : Keeps s (t.freeCtx c) := by
  have hw : ∀ x, Keeps s { t with tiles := x } := fun x => h.congr rfl
  exact (((hw _).foldl fun h => h.modClu).foldl fun h => h.setGs).setCtx
theorem Keeps.destroyNow {c e} : Keeps s (t.destroyNow c e) := h.releaseArrays.freeCtx.cfgAdvance.colQueue
theorem Keeps.destroyStep {c} : Keeps s (t.destroyStep c) := by
  unfold State.destroyStep
  dsimp only
  split
  · exact h
  · exact .ite h (.ite h.withJobs.destroyNow h.withJobs.colQueue)
theorem Keeps.modSlot {car num f} : Keeps s (t.modSlot car num f) := h.withCarriers
theorem Keeps.trigFail {t' c} : Keeps s (t.trigFail t' c) := .ite h.modSlot h.ctxDone
theorem Keeps.startInv {c t'} : Keeps s (t.startInv c t') :=
  (Keeps.ite (h.modCtx.foldl fun h => h.modClu).modSlot (h.modCtx.foldl fun h => h.modClu)).withInvAll
theorem execInvocationStart_keeps {c} : KeepsOut s (execInvocationStart c t) := by
  unfold execInvocationStart
  dsimp only
  refine .next ?_
  split
  · exact .ite h.boundary (.ite h.boundary.modCtx.trigFail.destroyStep h.boundary.startInv)
  · exact h.boundary
theorem Keeps.scheduleTests {c num} : Keeps s (t.scheduleTests c num) :=
  .ite h ((h.foldl fun h => .ite h (by dsimp only; split; exacts [h.bump.modCtx, .ite h.bump.modCtx (.ite h.bump.modCtx h.modArr)])).foldl fun h => .ite h.modArr h)
theorem Keeps.roundCheck {c} : Keeps s (t.roundCheck c) := by
  unfold State.roundCheck
  split
  · exact h
  · exact .ite h h.modCtx
theorem Keeps.finishInv {c v code} : Keeps s (t.finishInv c v code) := by
  unfold State.finishInv
  extract_lets x s1 s2 pages s3 v' code' s4 s5 s6 y s7
  have h1 : Keeps s s1 := h.foldl fun h => h.modClu
  have h2 : Keeps s s2 := .ite h1 (h1.foldl fun h => h.setGs)
  have h3 : Keeps s s3 := h2.foldl fun h => h.bump64
  have h4 : Keeps s s4 := h3.modCtx
  have h6 : Keeps s s6 := (Keeps.ite h4.modSlot h4.complete).scheduleTests
  have h7 : Keeps s s7 := .ite h6.modCtx h6
  exact h7.roundCheck.boundary.destroyStep.settleTests.cmpFenceDue
theorem execInvocationEnd_keeps {c} : KeepsOut s (execInvocationEnd c t) := by
  unfold execInvocationEnd
  dsimp only
  refine .next ?_
  split
  · exact h
  · split
    · exact h
    · split
      · exact h.finishInv
      · exact h.stopAt.finishInv
theorem execInvocationStop_keeps {c} : KeepsOut s (execInvocationStop c t) := by
  unfold execInvocationStop
  refine .next ?_
  split
  · exact h
  · split
    · exact h
    · exact .ite h h.withOps.finishInv
theorem execAbort_keeps {k value} : KeepsOut s (execAbort k value t) := by
  unfold execAbort
  dsimp only
  refine .next ?_
  split
  · exact h
  · split
    · exact h.rejectOff
    · split
      · exact h
      · split
        · exact h.rejectOff
        · exact .ite h h.stopAt
theorem execRun_keeps {e} : KeepsOut s (execRun e t) := by
  unfold execRun
  refine .next ?_
  refine h.begin fun h => ?_
  split
  · exact h.ctxDone
  · exact h.modCtx
theorem Keeps.takeClaims {c img cmps spill rg} : Keeps s (t.takeClaims c img cmps spill rg) :=
  h.modCtx.foldl fun h => .ite (h.foldl fun h => h.setTile) (.ite h.modClu h)
theorem Keeps.dropClaims {c} : Keeps s (t.dropClaims c) := by
  have hw : Keeps s { t with tiles := t.tiles.filter (fun p => !(p.2.owned && p.2.ctx == c)) } := h.congr rfl
  unfold State.dropClaims
  exact (hw.foldl fun h => h.modClu).modCtx
theorem Keeps.assignAll {c g img l} : Keeps s (t.assignAll c g img l) := h.foldl fun h => h.assign
theorem Keeps.ctxFinish {e code r0 r1 flags} : Keeps s (t.ctxFinish e code r0 r1 flags) := h.modCtx.ctxDone
theorem Keeps.created {e epoch} : Keeps s (t.created e epoch) := h.setCtx.cfgAdvance
theorem execCtxCreate_keeps {e} : KeepsOut s (execCtxCreate e t) := by
  unfold execCtxCreate
  refine .next ?_
  refine h.begin fun h => ?_
  split
  · exact h.ctxDone
  · exact h.withEpochCtr.withJobs.colQueue
theorem Keeps.imageRead {lp a n} : Keeps s (t.imageRead lp a n) := by
  unfold State.imageRead
  split
  · exact h
  · split
    · exact h.lpCountRead.lpFault
    · exact h.lpCountRead
theorem Keeps.firstActive {c g} : Keeps s (t.firstActive c g) := (h.modCtx.foldl fun h => h.setGs).loadRows.switchTo.cfgAdvance
theorem Keeps.stagedNow {c g l} : Keeps s (t.stagedNow c g l) := h.releaseArrays.modCtx.cfgAdvance
theorem Keeps.progCheck {c} : Keeps s (t.progCheck c) := by
  unfold State.progCheck
  dsimp only
  split
  · exact h
  · split
    · exact h
    · split
      · exact h
      · exact .ite h.withJobs.colQueue (.ite h.withJobs.colQueue h.withJobs.draw.switchTo.modCtx.cfgAdvance.colQueue)
theorem Keeps.wearThen {c e ks} : Keeps s (t.wearThen c e ks) := .ite h.progCheck h.colQueue
theorem Keeps.reattach {c g img backing bad} : Keeps s (t.reattach c g img backing bad) := by
  unfold State.reattach
  extract_lets x old other ks held spill s1 s2 s3 s4 s5 s6
  have h1 : Keeps s s1 := .ite h.takeClaims h.takeClaims
  have h3 : Keeps s s3 := .ite (h1.modCtx.foldl fun h => h.setGs) h1.modCtx
  have h5 : Keeps s s5 := h3.loadRows.foldl fun h => h.modArr
  have h6 : Keeps s s6 := h5.foldl fun h => h.fence.report
  exact .ite h6.loadProfiles.modCtx.calTrigger h6
theorem Keeps.loadStaged {e g img lp a borrow} : Keeps s (t.loadStaged e g img lp a borrow) := h.modCtx.colQueue
theorem Keeps.loadReattach {e g img lp a bad} : Keeps s (t.loadReattach e g img lp a bad) := h.modCtx.reattach.cfgAdvance.colQueue
theorem Keeps.loadFirst {e g img l f} : Keeps s (t.loadFirst e g img l f) := h.modCtx.takeClaims.modCtx.assignAll.withJobs.wearThen
theorem execCtxLoad_keeps {e image bad} : KeepsOut s (execCtxLoad e image bad t) := by
  unfold execCtxLoad
  refine .next ?_
  refine h.begin fun h => ?_
  dsimp only
  split
  · exact h.ctxDone
  · split
    · exact h.ctxDone
    · split
      · exact h.imageRead.ctxDone
      · split
        · exact h.imageRead.loadStaged
        · split
          · split
            · exact h.imageRead.ctxDone
            · split
              · exact h.imageRead.ctxDone
              · exact h.imageRead.loadReattach
          · split
            · exact h.imageRead.ctxDone
            · exact h.imageRead.loadFirst
theorem Keeps.programInplace {e g} : Keeps s (t.programInplace e g) :=
  .ite h.modCtx.withJobs.modCtx.boundary.progCheck h.modCtx.withJobs.colQueue
theorem Keeps.programShadow {e g pl} : Keeps s (t.programShadow e g pl) := h.modCtx.assignAll.withJobs.wearThen
theorem execCtxProgram_keeps {e image} : KeepsOut s (execCtxProgram e image t) := by
  unfold execCtxProgram
  refine .next ?_
  refine h.begin fun h => ?_
  dsimp only
  split
  · exact h.ctxDone
  · exact .ite h.imageRead.loseBacking.ctxDone (.ite h.imageRead.programInplace (.ite h.imageRead.ctxDone (.ite h.imageRead.ctxDone h.imageRead.programShadow)))
theorem execCtxSwitch_keeps {e} : KeepsOut s (execCtxSwitch e t) := by
  unfold execCtxSwitch
  refine .next ?_
  refine h.begin fun h => ?_
  dsimp only
  split
  · exact h.ctxDone
  · exact h.modCtx.withJobs.boundary
theorem execCtxSave_keeps {e} : KeepsOut s (execCtxSave e t) := by
  unfold execCtxSave
  refine .next ?_
  refine h.begin fun h => ?_
  dsimp only
  split
  · exact h.ctxDone
  · split
    · exact h.ctxDone
    · exact (Keeps.ite h.lpWrite h.cmdWrite).ctxDone
theorem execCtxRestore_keeps {e data bad} : KeepsOut s (execCtxRestore e data bad t) := by
  unfold execCtxRestore
  refine .next ?_
  refine h.begin fun h => ?_
  dsimp only
  split
  · exact h.ctxDone
  · split
    · exact h.imageRead.ctxDone
    · exact (h.imageRead.modCtx.foldl fun h => h.reattach).cfgAdvance.colQueue
theorem execCtxDestroy_keeps {e} : KeepsOut s (execCtxDestroy e t) := by
  unfold execCtxDestroy
  refine .next ?_
  refine h.begin fun h => ?_
  dsimp only
  split
  · exact h.ctxDone
  · exact h.runAnswer.modCtx.withJobs.destroyStep
theorem Keeps.programmedOk {k rows pairs s0 s1 tw1 tw2} : Keeps s (t.programmedOk k rows pairs s0 s1 tw1 tw2) :=
  h.setRefs.modArr.withFree.twin
theorem Keeps.progAbort {c g e first code r0 r1} : Keeps s (t.progAbort c g e first code r0 r1) :=
  (Keeps.ite h.returnTargets.withJobs.dropClaims.modCtx h.returnTargets.withJobs.modCtx).modCtx.ctxFinish
theorem Keeps.programmedBad {k} : Keeps s (t.programmedBad k) := by
  unfold State.programmedBad
  dsimp only
  split
  · exact .ite h.modArr.fence.report.remapStart h.modArr.fence.report.modArr
  · split
    · exact h.modArr.fence.report
    · split
      · exact h.modArr.fence.report.assign.colQueue
      · exact .ite h.modArr.fence.report.modArr.progCheck h.modArr.fence.report.progAbort
theorem execArrayProgrammed_keeps {c a badRows badPairs s0 s1 tw1 tw2} : KeepsOut s (execArrayProgrammed c a badRows badPairs s0 s1 tw1 tw2 t) := by
  unfold execArrayProgrammed
  dsimp only
  refine .next ?_
  split
  · exact h
  · split
    · exact .ite h.programmedOk.progCheck h.programmedBad
    · exact h.programmedBad
theorem execDigestRound_keeps {c} : KeepsOut s (execDigestRound c t) := by
  unfold execDigestRound
  dsimp only
  refine .next ?_
  split
  · exact h
  · exact .ite h h.modCtx
theorem execVerifiedReadback_keeps {c a s0 s1 dev} : KeepsOut s (execVerifiedReadback c a s0 s1 dev t) :=
  .next (.ite h (.ite h.driftRead.evalTriggers.modCtx (h.driftRead.evalTriggers.modCtx.modCtx.foldl fun h => h.report)))
theorem execDomainRepowerRestore_keeps {c} : KeepsOut s (execDomainRepowerRestore c t) := by
  unfold execDomainRepowerRestore
  dsimp only
  refine .next ?_
  split
  · exact h
  · split
    · exact h
    · split
      · exact h.modCtx.modCtx.record
      · split
        · exact (h.modCtx.foldl fun h => h.loadRows).loadProfiles
        · exact h.modCtx.foldl fun h => h.loadRows
theorem execChkpt_keeps {ctx i} : KeepsOut s (execChkpt ctx i t) := by
  unfold execChkpt
  dsimp only
  refine .next ?_
  split
  · exact h
  · split
    · exact h.stopAt
    · exact h.setStream.issued.withOps.withNextOp
theorem execChkptRecord_keeps {ctx i} : KeepsOut s (execChkptRecord ctx i t) := by
  unfold execChkptRecord
  dsimp only
  refine .next ?_
  split
  · exact .ite h h.engWrite.setStream.retire
  · exact h
theorem execDigest_keeps {ctx i} : KeepsOut s (execDigest ctx i t) := by
  unfold execDigest
  refine .next ?_
  split
  · exact h
  · exact h.accIssue
theorem execDigestDone_keeps : KeepsOut s (execDigestDone t) := by
  unfold execDigestDone
  dsimp only
  refine .next ?_
  split
  · exact h
  · split
    · exact h.readFault.stopOp
    · split
      · exact h.engWrite.bump.retire
      · split
        · exact h.engWrite.bump.readFault.stopOp
        · exact .ite h.engWrite.bump.retire h.engWrite.bump.report.stopOp
theorem execTestvec_keeps {ctx i} : KeepsOut s (execTestvec ctx i t) := by
  unfold execTestvec
  refine .next ?_
  split
  · exact h
  · exact h.accIssue
theorem execTestvecDone_keeps {c} : KeepsOut s (execTestvecDone c t) := by
  unfold execTestvecDone
  dsimp only
  refine .next ?_
  split
  · exact h
  · exact h.engWrite.retire
theorem execXsend_keeps {ctx i} : KeepsOut s (execXsend ctx i t) := by
  unfold execXsend
  refine .next ?_
  split
  · exact h
  · exact h.accIssue
theorem execXsendAccepted_keeps : KeepsOut s (execXsendAccepted t) := by
  unfold execXsendAccepted
  dsimp only
  refine .next ?_
  split
  · exact h
  · split
    · exact h
    · split
      · exact h.tileFault.stopOp
      · exact h.modCtx.withChain.retire
theorem execXrecv_keeps {ctx i} : KeepsOut s (execXrecv ctx i t) := by
  unfold execXrecv
  refine .next ?_
  split
  · exact h
  · exact h.accIssue
theorem execXrecvMessage_keeps {c} : KeepsOut s (execXrecvMessage c t) := by
  unfold execXrecvMessage
  dsimp only
  refine .next ?_
  split
  · exact h
  · split
    · exact h
    · split
      · exact h.withChain.bump.report.stopOp
      · split
        · exact h.withChain.tileFault.stopOp
        · next u hu => exact (h.withChain.writeTile u hu).modTile.retire
theorem Keeps.regPut {off v} : Keeps s (t.regPut off v) := by
  unfold State.regPut
  dsimp only
  split
  · exact h
  · split
    · exact h
    · exact .ite h (.ite (Keeps.ite h.put64 h.wr).cfgAdvance (.ite h.put64 h.wr))
theorem Keeps.regWrite {off v lock st act} (hact : ∀ {u}, Keeps s u → Keeps s (act u)) : Keeps s (t.regWrite off v lock st act) := by
  unfold State.regWrite
  split
  · exact h.rejectOff
  · exact hact h
theorem Keeps.eventIn {r u cls} : Keeps s (t.eventIn r u cls) := by
  have hw : ∀ e : Event, Keeps s { t with events := (e :: t.events).take 64 } :=
    fun e => h.step_of rfl fun l => { l with events := List.length_take_le _ _ }
  exact (hw _).bump64
theorem Keeps.recordEvent {r} {u} : Keeps s (t.recordEvent r u) := h.modUnit.foldl fun h => .ite h.modCtx h
theorem Keeps.fenceNow {u} {reason} : Keeps s (t.fenceNow u reason) := .ite h.fence.progCheck h.fence
theorem Keeps.judge {r} {u} : Keeps s (t.judge r u) :=
  (Keeps.ite h.recordEvent.bump.fenceNow (.ite h.recordEvent.bump.fenceNow h.recordEvent.bump)).histWrite
theorem Keeps.stopInvoc {ctx invoc c} : Keeps s (t.stopInvoc ctx invoc c) := by
  unfold State.stopInvoc
  split
  · exact .ite h.stopAt h
  · exact h
theorem Keeps.permanent {r} {u} : Keeps s (t.permanent r u) := h.recordEvent.bump.fenceNow.histWrite.stopInvoc
theorem Keeps.copyTest {r} {u} {fail} : Keeps s (t.copyTest r u fail) := .ite h.modArr.bump.report h.modArr.bump64.modUnit
theorem Keeps.countedFault {r rep0 rep1} : Keeps s (t.countedFault r rep0 rep1) :=
  ((Keeps.ite h.bump (.ite h.copyTest.copyTest h)).eventIn.foldl fun h => .ite h.permanent h.judge).settleTests
theorem execFaultEvent_keeps {rep0 rep1} : KeepsOut s (execFaultEvent rep0 rep1 t) := by
  unfold execFaultEvent
  dsimp only
  refine .next ?_
  split
  · exact h
  · split
    · exact h.withReports.eventIn
    · split
      · exact h.withReports.eventIn.fenceNow.histWrite.settleTests
      · exact .ite h.withReports.eventIn.histWrite h.withReports.countedFault
theorem Keeps.applyTest {k subs dev inv} : KeepsFst s (t.applyTest k subs dev inv) :=
  .pair (h.setArr.withFree.foldl fun h => .ite h h.modArr.report)
theorem Keeps.testVerdict {k diff} : Keeps s (t.testVerdict k diff) :=
  (Keeps.ite h.modArr.bump.modCtx.report.withFree h.modArr.bump64.modUnit).testCount.roundCheck.settleTests
theorem Keeps.testSkip {k} : Keeps s (t.testSkip k) := h.modArr.bump.modCtx.roundCheck.settleTests
theorem Keeps.compareVector {k dev} : Keeps s (t.compareVector k dev) := by
  unfold State.compareVector
  dsimp only
  split
  · exact h.modArr
  · split
    · exact h.applyTest.modArr
    · exact (Keeps.ite h.applyTest.modArr.report h.applyTest.modArr).modArr.modArr.testCount.settleTests
theorem execArrayTest_keeps {c a dev} : KeepsOut s (execArrayTest c a dev t) := by
  unfold execArrayTest
  dsimp only
  refine .next ?_
  split
  · exact h
  · split
    · split
      · exact h.backingSlice.testSkip
      · exact (Keeps.ite h.backingSlice.applyTest.bump h.backingSlice.applyTest).testVerdict
    · exact .ite h.compareVector h
theorem execTwinCheck_keeps {c a tw1 tw2} : KeepsOut s (execTwinCheck c a tw1 tw2 t) := .next (.ite h h.modArr.twin.testCount.settleTests)
theorem Keeps.testTileLeft {key} : Keeps s (t.testTileLeft key) := h.modTile.withFree
theorem Keeps.clusterVerdict {c pass} : Keeps s (t.clusterVerdict c pass) :=
  (Keeps.ite (h.modClu.foldl fun h => h.modCtx).bump.modUnit (h.modClu.foldl fun h => h.modCtx).bump.report).testCount.settleTests
theorem execClusterTest_keeps {c pass} : KeepsOut s (execClusterTest c pass t) :=
  .next (.ite h (h.foldl fun h => h.testTileLeft).clusterVerdict)
theorem Keeps.preempt {x} : Keeps s (t.preempt x) := h.modCtx.bump
theorem Keeps.saveTestTile {c t'} : Keeps s (t.saveTestTile c t') := by
  unfold State.saveTestTile
  dsimp only
  split
  · exact h
  · exact h.tileFault.stopInvoc
theorem execClusterTestPreempt_keeps {c pass} : KeepsOut s (execClusterTestPreempt c pass t) :=
  .next (.ite h (.ite (h.foldl fun h => h.modCtx) ((h.foldl fun h => h.preempt).foldl fun h => h.saveTestTile).clusterVerdict))
theorem Keeps.testMark {t' k} : Keeps s (State.testMark t' t k) := h.modArr
theorem execTestRun_keeps {e} : KeepsOut s (execTestRun e t) := by
  unfold execTestRun
  refine .next ?_
  refine h.begin fun h => ?_
  dsimp only
  split
  · exact h.ctxDone
  · exact (h.foldl fun h => h.testMark).withJobs.settleTests
theorem execSlack_keeps {value} : KeepsOut s (execSlack value t) := .next (h.regWrite fun h => .ite h.modCtx h)
theorem execPeriodWrite_keeps {value} : KeepsOut s (execPeriodWrite value t) := .next (h.regWrite fun h => h.regPut.foldl fun h => h.modCtx)
theorem Keeps.modCarrier {c f} : Keeps s (t.modCarrier c f) := h.withCarriers
theorem Keeps.modPort {p f} : Keeps s (t.modPort p f) := h.withFhp
theorem Keeps.freeRe {a} : Keeps s (t.freeRe a) := h.memWrite.withFree
theorem Keeps.freePrb {base sym stream prb} : Keeps s (t.freePrb base sym stream prb) := h.foldl fun h => h.freeRe
theorem Keeps.loseIq {base l} : Keeps s (t.loseIq base l) := h.foldl fun h => h.foldl fun h => h.foldl fun h => .ite h h.freePrb
theorem Keeps.closeSlot {car num} : Keeps s (t.closeSlot car num) := by
  unfold State.closeSlot
  dsimp only
  split
  · exact h
  · exact .ite h (Keeps.ite h.modCarrier.modSlot.loseIq.setGs h.modCarrier.modSlot).bump
theorem execSlotDesc_keeps {e map} : KeepsOut s (execSlotDesc e map t) := by
  unfold execSlotDesc
  refine .next ?_
  refine h.begin fun h => ?_
  dsimp only
  split
  · exact h.ctxDone
  · exact (h.foldl fun h => h.closeSlot).modCarrier.modCtx
theorem execSlotClose_keeps {e} : KeepsOut s (execSlotClose e t) := by
  unfold execSlotClose
  refine .next ?_
  refine h.begin fun h => ?_
  dsimp only
  split
  · exact h.fail
  · split
    · exact (Keeps.ite h.closeSlot h).fail
    · exact (Keeps.ite h.closeSlot h).complete.modCarrier
theorem Keeps.fillMem {a n b} : Keeps s (t.fillMem a n b) := h.step_of rfl fun l => { l with mem := fillBytes_wf _ _ _ _ l.mem }
theorem execS0BufferAssign_keeps {car} : KeepsOut s (execS0BufferAssign car t) := by
  unfold execS0BufferAssign
  dsimp only
  refine .next ?_
  split
  · exact h
  · exact .ite h (Keeps.ite h.fillMem.modSlot.loseIq h.fillMem.modSlot).setGs
theorem Keeps.drop {p cnt reason eaxc} : Keeps s (t.drop p cnt reason eaxc) := h.bump.setReg
theorem Keeps.putRe {a er stream v q} : Keeps s (t.putRe a er stream v q) := h.memWrite.memWrite
theorem Keeps.putPrb {base sym stream prb vs} : Keeps s (t.putPrb base sym stream prb vs) := h.foldl fun h => h.putRe
theorem Keeps.prbDone {p car num sym stream prb sat fresh} : Keeps s (t.prbDone p car num sym stream prb sat fresh) := by
  unfold State.prbDone
  dsimp only
  split
  · exact h.bump.bump.modSlot
  · exact .ite h.bump.bump.modSlot h.bump.bump.modSlot.setGs
theorem Keeps.writePrb {p car num sym stream prb comp bs} : Keeps s (t.writePrb p car num sym stream prb comp bs) := h.putPrb.prbDone
theorem Keeps.secData {p car num sym stream comp f n z o fr} : Keeps s (t.secData p car num sym stream comp f n z o fr) :=
  h.foldl fun h => h.writePrb
theorem Keeps.sections {p car num hd stream fr fin} {n : Nat} {o} : Keeps s (t.sections p car num hd stream fr fin n o) := by
  induction n generalizing t o with
  | zero => exact h
  | succ n ih =>
    unfold State.sections
    dsimp only
    split
    · exact h
    · split
      · exact h
      · split
        · exact h.drop
        · exact ih h.secData
theorem Keeps.seqSeen {p car st seq} : Keeps s (t.seqSeen p car st seq) := by
  unfold State.seqSeen
  exact (Keeps.ite h.bump h).modPort
theorem Keeps.closeComplete {car num} : Keeps s (t.closeComplete car num) := by
  unfold State.closeComplete
  split
  · exact h
  · exact .ite h.closeSlot h
theorem Keeps.uPlane {p h' fr} : Keeps s (t.uPlane p h' fr) := by
  unfold State.uPlane
  dsimp only
  split
  · exact h.drop
  · split
    · exact h.drop
    · split
      · exact .ite h.seqSeen.drop h.seqSeen.drop
      · exact h.seqSeen.sections.closeComplete
theorem execFronthaulFrame_keeps {port frame fcs room} : KeepsOut s (execFronthaulFrame port frame fcs room t) := by
  unfold execFronthaulFrame
  refine .next (.ite h ?_)
  extract_lets u
  have hcount : Keeps s u := h.bump.bump.bump64.bump64
  exact .ite hcount.drop (.ite hcount.drop (.ite hcount.bump (.ite hcount.drop hcount.uPlane)))
theorem Keeps.sendPause {p quanta} : Keeps s (t.sendPause p quanta) := h.bump.modPort
theorem execPauseTransmit_keeps {port occupancy} : KeepsOut s (execPauseTransmit port occupancy t) :=
  .next (.ite h (.ite h.modPort (.ite h.modPort.sendPause.modPort (.ite h.modPort.sendPause.modPort h.modPort))))
theorem execPauseRepeat_keeps {port} : KeepsOut s (execPauseRepeat port t) := .next (.ite h h.sendPause)
theorem execFhLinkChange_keeps {port up} : KeepsOut s (execFhLinkChange port up t) := .next (.ite h h.modPort)
theorem execFhpCntclr_keeps {port value} : KeepsOut s (execFhpCntclr port value t) :=
  .next (.ite h (h.regWrite fun h => .ite (h.foldl fun h => h.setReg) h))
theorem execFhpCfgWrite_keeps {port value} : KeepsOut s (execFhpCfgWrite port value t) :=
  .next (.ite h (h.regWrite fun h => h.regPut.modPort))
theorem execGalMapWrite_keeps {offset value} : KeepsOut s (execGalMapWrite offset value t) := .next (.ite h (h.regWrite fun h => h.regPut))
theorem Keeps.egressOut {e a f n} : Keeps s (t.egressOut e a f n) := h.foldl fun h => h.cmdWrite
theorem Keeps.egressBad {a n ctx} : Keeps s (t.egressBad a n ctx) := by
  unfold State.egressBad
  split
  · exact h
  · exact h.memFault
theorem Keeps.egressPart {car l a f n r} : Keeps s (t.egressPart car l a f n r) := by
  unfold State.egressPart
  split
  · exact h.modSlot
  · exact h.egressOut.egressBad.modSlot
theorem execEgressWrite_keeps {car} : KeepsOut s (execEgressWrite car t) := by
  unfold execEgressWrite
  refine .next ?_
  split
  · exact h
  · split
    · exact h
    · exact h.egressPart
theorem execSlotCompletion_keeps {car} : KeepsOut s (execSlotCompletion car t) := by
  unfold execSlotCompletion
  dsimp only
  refine .next ?_
  split
  · exact h
  · exact .ite h h.complete.bump.bump64.modCarrier
theorem Keeps.marchZero {m u} : Keeps s (t.marchZero m u) := by
  unfold State.marchZero
  dsimp only
  split
  · exact h.memErase
  · exact h.memErase
  · exact h.congr rfl
  · exact h.memErase
theorem Keeps.setMarch {m} {u} {st} {alg} {rep} {un} : Keeps s (t.setMarch m u st alg rep un) := .ite h.setReg h.setReg
theorem Keeps.repairRecord {m} {u} {bank} {row} {spare} : Keeps s (t.repairRecord m u bank row spare) := .ite h.withCol.colQueue h.withCol
theorem Keeps.rowLost {m} {u} {bank} {row} : Keeps s (t.rowLost m u bank row) := by
  unfold State.rowLost
  dsimp only
  split
  · split
    · exact h
    · exact h.tileFault.modTile
  · split
    · exact h
    · exact h.memFault.memWrite
theorem Keeps.badRow {m} {u} {alg} {bank} {row} : KeepsFst s (t.badRow m u alg bank row) :=
  .ite (.pair (Keeps.ite h.modClu.rowLost h.modClu).repairRecord) (.pair h.report)
theorem Keeps.marchSettle {k rep un} : Keeps s (t.marchSettle k rep un) :=
  h.foldl fun h => .ite h.withJobs (.ite h.withJobs.complete h.withJobs.withTap)
theorem Keeps.marchStart {m} {alg} {u} : Keeps s (State.marchStart m alg t u) := .ite h.setMarch.marchZero h.setMarch
theorem execMarchRun_keeps {e} : KeepsOut s (execMarchRun e t) := by
  unfold execMarchRun
  refine .next ?_
  refine h.begin fun h => ?_
  dsimp only
  split
  · exact h.fail
  · exact (h.foldl fun h => h.marchStart).withJobs
theorem Keeps.marchRows {m u alg bad} : KeepsFst s (t.marchRows m u alg bad) :=
  Keeps.foldlFst h fun hp => hp.badRow
theorem Keeps.marchVerdict {m} {u} {alg} {rep} {un} : Keeps s (t.marchVerdict m u alg rep un) :=
  .ite (Keeps.ite h.setMarch.marchZero h.setMarch).modClu (.ite h.setMarch.marchZero h.setMarch)
theorem Keeps.sliceBack {m} {u} {alg} {un} : Keeps s (t.sliceBack m u alg un) := .ite h.modUnit.colQueue.histWrite h
theorem execMarchTestDone_keeps {memory unit bad} : KeepsOut s (execMarchTestDone memory unit bad t) := by
  refine .next (.ite h ?_)
  split
  · exact h
  · exact h.marchRows.marchVerdict.sliceBack.marchSettle
theorem execLpxTrainingDone_keeps {channel density} : KeepsOut s (execLpxTrainingDone channel density t) :=
  .next (.ite h (.ite h.withLpx.setReg.setReg h.withLpx.setReg))
theorem execLpxPatrolScrub_keeps {channel outcome} : KeepsOut s (execLpxPatrolScrub channel outcome t) :=
  .next (.ite h (.ite h.bump.withLpx.withLpBad.lpFault (.ite h.bump.withLpx.bump.setReg64 h.bump.withLpx)))
theorem execLpxMr4Poll_keeps {channel rate} : KeepsOut s (execLpxMr4Poll channel rate t) := .next (.ite h h.withLpx)
theorem Keeps.bar2Miss {os} : Keeps s (t.bar2Miss os) := by
  unfold State.bar2Miss
  split
  · exact h
  · exact h.bump.setReg
theorem Keeps.bar2Read {o n} : Keeps s (t.bar2Read o n) :=
  (((Keeps.foldl (by split; exacts [h.bar2Miss.withFree.memFault, h.bar2Miss.withFree])) fun h => h.lpFault).foldl fun h => h.lpCountRead).withHost
theorem Keeps.bar2Put {o b} : Keeps s (t.bar2Put o b) := by
  unfold State.bar2Put
  split
  · exact h.memWrite
  · exact h.memWrite
  · exact h.memWrite
  · exact h.lpWrite
  · exact h
theorem Keeps.bar2Write {o data} : Keeps s (t.bar2Write o data) :=
  ((h.bar2Miss.foldl fun h => h.bar2Put).foldl fun h => .ite h.bump.lpFault h.bump).foldl fun h => h.withLpBad
theorem Keeps.bar2 {x} : Keeps s (t.bar2 x) := by
  unfold State.bar2
  split
  · exact h.bar2Read
  · exact h.bar2Write
theorem execBar2Access_keeps {a} : KeepsOut s (execBar2Access a t) := .next (h.bar2)
theorem execRotateAliasAccess_keeps {a} : KeepsOut s (execRotateAliasAccess a t) := .next (.ite h.bar2 h)
theorem execSetAliasWrite_keeps {a} : KeepsOut s (execSetAliasWrite a t) := .next (.ite h.bar2 h)
theorem execClearAliasWrite_keeps {a} : KeepsOut s (execClearAliasWrite a t) := .next (.ite h.bar2 h)
theorem execApertureAccess_keeps {a} : KeepsOut s (execApertureAccess a t) := .next (.ite h.bar2 h)
theorem execMaintWrite_keeps {cluster value} : KeepsOut s (execMaintWrite cluster value t) := .next (.ite h (h.regWrite fun h => h.regPut))
theorem Keeps.fwAnswer : Keeps s t.fwAnswer := by
  unfold State.fwAnswer
  have hw : ∀ x, Keeps s { t with jobs := x, sec := { t.sec with op := 0 } } := fun x => h.congr rfl
  split
  · exact h
  · exact .ite (hw _).cfgAdvance.complete (hw _).complete
theorem Keeps.fwCheck : Keeps s t.fwCheck := .ite h h.fwAnswer
theorem execCmpReplaceStart_keeps : KeepsOut s (execCmpReplaceStart t) := by
  unfold execCmpReplaceStart
  dsimp only
  refine .next ?_
  split
  · exact h
  · split
    · exact h
    · exact h.modCmp.modCmp
theorem execCmpCopyDone_keeps : KeepsOut s (execCmpCopyDone t) := .next (.ite h h.modCmp)
theorem execCmpReload_keeps : KeepsOut s (execCmpReload t) := by
  unfold execCmpReload
  dsimp only
  refine .next ?_
  split
  · exact h
  · split
    · exact h.modCmp.markFenced.fenceAnswer.cmpFenceDue.fwCheck
    · exact h.modCmp
theorem Keeps.refuseOthers : Keeps s t.refuseOthers := (h.foldl fun h => .ite h (.ite h.modUnit.fenceAnswer h.doMoves)).cmpFenceDue
theorem Keeps.reloadPassed {k} : Keeps s (t.reloadPassed k) :=
  (Keeps.ite h.modCmp.modUnit.modUnit.colQueue.unfenceAnswer h.modCmp.modUnit).fwCheck
theorem Keeps.reloadFailed {k} : Keeps s (t.reloadFailed k) :=
  (Keeps.ite (h.modCmp.markFenced.report.unfenceAnswer.fenceAnswer.foldl fun h => h.modCmp).fwAnswer h.modCmp.markFenced.report.unfenceAnswer.fenceAnswer).refuseOthers
theorem execCmpReloadDone_keeps {pass} : KeepsOut s (execCmpReloadDone pass t) := by
  unfold execCmpReloadDone
  refine .next ?_
  split
  · exact h
  · exact .ite h.reloadPassed h.reloadFailed
theorem execCmpCarryEnd_keeps : KeepsOut s (execCmpCarryEnd t) := .next (.ite h h.modCmp.modCmp)
theorem Keeps.modDsy {p f} : Keeps s (t.modDsy p f) := h.withDsy
theorem Keeps.ctrlFrame {port kind v} : Keeps s (t.ctrlFrame port kind v) := h.withChain
theorem Keeps.enumOn : Keeps s t.enumOn := .ite h.ctrlFrame (.ite h h.ctrlFrame)
theorem Keeps.train {p mask} : Keeps s (t.train p mask) := h.modDsy
theorem Keeps.linkDrop {p st} : Keeps s (t.linkDrop p st) := .ite h.modDsy.withChain h.modDsy
theorem Keeps.dsyReset {p} : Keeps s (t.dsyReset p) := h.bump.linkDrop
theorem Keeps.laneLost {p l} : KeepsFst s (t.laneLost p l) := by
  unfold State.laneLost
  dsimp only
  split
  · exact .pair h
  · split
    · exact .pair h.modDsy
    · split
      · exact .pair h.modDsy.modDsy.bump.ctrlFrame
      · exact .pair h.modDsy.dsyReset
theorem execLaneFail_keeps {p l} : KeepsOut s (execLaneFail p l t) := .next (.ite h h.laneLost.report)
theorem execDaisyNak_keeps {p} : KeepsOut s (execDaisyNak p t) := .next (.ite h h.bump)
theorem Keeps.enumUp {p} : Keeps s (t.enumUp p) := .ite h (.ite h.ctrlFrame.reject.linkDrop h.ctrlFrame)
theorem execDaisyLinkReset_keeps {p healthy} : KeepsOut s (execDaisyLinkReset p healthy t) :=
  .next (.ite h (Keeps.ite h.dsyReset h).train.enumUp)
theorem execDaisyLinkUp_keeps {p peer} : KeepsOut s (execDaisyLinkUp p peer t) := .next (.ite h h.train.modDsy.enumUp)
theorem Keeps.stopCollectives : Keeps s t.stopCollectives := h.foldl fun h => h.stopAt
theorem execEnumReceived_keeps {p pos} : KeepsOut s (execEnumReceived p pos t) :=
  .next (.ite h (.ite h.withChain (.ite h (.ite h.modDsy (.ite h.enumOn (Keeps.ite h.bump.withChain.stopCollectives h).withChain.ctrlFrame.enumOn)))))
theorem execEndReceived_keeps {pos} : KeepsOut s (execEndReceived pos t) :=
  .next (.ite h (.ite (.ite h.withChain.withChain h.withChain) (.ite h.ctrlFrame h)))
theorem execPositionLoss_keeps : KeepsOut s (execPositionLoss t) := .next (.ite h h.withChain)
theorem execDsyCfgWrite_keeps {p value} : KeepsOut s (execDsyCfgWrite p value t) :=
  .next (.ite h (h.regWrite fun h => .ite h.regPut.linkDrop (.ite h.regPut.dsyReset h.regPut)))
theorem execCollMessageReceived_keeps {msg} : KeepsOut s (execCollMessageReceived msg t) :=
  .next (.ite h (.ite (.ite h h.bump.withChain) (.ite h h.bump.withChain)))
theorem execTunnelRequest_keeps {position req} : KeepsOut s (execTunnelRequest position req t) := by
  unfold execTunnelRequest
  dsimp only
  refine .next ?_
  split
  · exact h
  · split
    · exact h.hostWrite
    · exact .ite h.withChain h
theorem execTunnelTimeout_keeps {e} : KeepsOut s (execTunnelTimeout e t) := .next (.ite h (Keeps.ite h.withJobs.modCtx h.withJobs).fail)
theorem execPushGo_keeps {value} : KeepsOut s (execPushGo value t) := .next (h.regWrite fun h => .ite h.wr.setReg.setReg.withChain h.wr)
theorem Keeps.pushEnd {c pos} : Keeps s (t.pushEnd c pos) := h.setReg
theorem execPushBlock_keeps {hdr data} : KeepsOut s (execPushBlock hdr data t) := by
  unfold execPushBlock
  refine .next ?_
  split
  · extract_lets i len dst ctl n src bs me
    split
    · exact h
    · split
      · exact h.pushEnd
      · next _ s2 _ _ s3 _ _ _ =>
        have h2 : Keeps s s2 := .ite (Keeps.ite h.lpCountRead h).lpWrite (.ite h.lpCountRead h)
        exact (Keeps.ite h2.withChain h2).setReg
  · have hs : Keeps s (t.withChain { t.chain with refused := 0 }) := h.withChain
    exact .ite h (.ite h.withChain (.ite h (.ite (Keeps.ite hs.lpWrite hs).withChain (.ite hs.lpWrite hs))))
theorem execPushDone_keeps : KeepsOut s (execPushDone t) := .next (.ite h.setReg h)
theorem execPushFail_keeps {code position} : KeepsOut s (execPushFail code position t) := by
  unfold execPushFail
  refine .next ?_
  split
  · exact .ite h.pushEnd h
  · exact h
theorem Keeps.queryDone {e} : Keeps s (t.queryDone e) := h.bump.cmdWrite.ctxDone
theorem execDigestQuery_keeps {e} : KeepsOut s (execDigestQuery e t) := by
  unfold execDigestQuery
  refine .next ?_
  refine h.begin fun h => ?_
  dsimp only
  split
  · exact h.ctxDone
  · exact .ite h.withJobs h.queryDone
theorem Keeps.passToken {entries} : Keeps s (t.passToken entries) := h.withChain
theorem execCensusToken_keeps {entries} : KeepsOut s (execCensusToken entries t) := .next (.ite h (.ite h.withChain h.passToken))
theorem execConfigDigestPublish_keeps : KeepsOut s (execConfigDigestPublish t) := by
  unfold execConfigDigestPublish
  dsimp only
  refine .next ?_
  split
  · exact (h.withCfg.withCol.withJobs.foldl fun h => h.queryDone).passToken
  · exact h.withCfg.withCol.withJobs.foldl fun h => h.queryDone
theorem execCensus_keeps {e} : KeepsOut s (execCensus e t) := by
  unfold execCensus
  refine .next ?_
  refine h.begin fun h => ?_
  split
  · exact h.fail
  · exact .ite h.withChain h.withChain
theorem execCensusStart_keeps : KeepsOut s (execCensusStart t) := .next (.ite h h.withChain)
theorem execCensusFinish_keeps {entries inTime} : KeepsOut s (execCensusFinish entries inTime t) :=
  .next (.ite h (h.setReg.setReg.setReg.withChain.foldl fun h => .ite h.cmdWrite.complete h.fail))
theorem execAlign_keeps {value} : KeepsOut s (execAlign value t) := .next (h.regWrite fun h => .ite h h.colQueue)
theorem Keeps.laneFence {p l} : KeepsFst s (t.laneFence p l) := h.markFenced.laneLost
theorem execUnitFence_keeps {e} : KeepsOut s (execUnitFence e t) := by
  unfold execUnitFence
  refine .next ?_
  refine h.begin fun h => ?_
  dsimp only
  split
  · exact h.fail
  · exact .ite h.laneFence.complete (.ite h.fenceNow.withJobs h.fenceNow.complete)
theorem execUnitUnfence_keeps {e} : KeepsOut s (execUnitUnfence e t) := by
  unfold execUnitUnfence
  refine .next ?_
  refine h.begin fun h => ?_
  dsimp only
  split
  · exact h.fail
  · exact .ite h.modUnit.modDsy.colQueue.histWrite.complete (Keeps.ite h.setReg h).modUnit.withJobs
theorem Keeps.refence {u} {reason} : Keeps s (t.refence u reason) := h.markFenced.unfenceAnswer
theorem Keeps.marchedCluster {c} : Keeps s (t.marchedCluster c) := h.step_of rfl fun l => { l with mem := memory_filter_wf _ _ l.mem }
theorem Keeps.clusterReturn {c pass} : Keeps s (t.clusterReturn c pass) :=
  .ite h.marchedCluster.report.refence (h.marchedCluster.modUnit.setReg.foldl fun h => by dsimp only; split; exacts [h, .ite h.modArr.modUnit h.modArr]).colQueue.unfenceAnswer
theorem Keeps.arrayReturn {key weightsOk secondOk calOk} : Keeps s (t.arrayReturn key weightsOk secondOk calOk) := by
  unfold State.arrayReturn
  extract_lets u r b s1 s2 s3
  have h1 : Keeps s s1 := KeepsFst.ite (.pair h) h.backingSlice
  have h2 : Keeps s s2 := by
    unfold s2
    split
    · exact h1.modArr.colQueue
    · exact h1
  have h3 : Keeps s s3 := h2.modArr
  exact .ite (.ite h h.colQueue) (.ite h (.ite h.refence (.ite h1.refence (.ite h2.refence (.ite h2.refence (.ite h3.boundary h3))))))
theorem execUnitReturn_keeps {unit weightsOk secondOk calOk} : KeepsOut s (execUnitReturn unit weightsOk secondOk calOk t) :=
  .next (.ite h (.ite (.ite h.clusterReturn h) (.ite (.ite h h.arrayReturn) h)))
theorem Keeps.mapArrs {f} : Keeps s (t.mapArrs f) := (h.congr rfl)
theorem Keeps.resetCore {locks} : Keeps s (t.resetCore locks) := h.step_of rfl fun l =>
  { regs := FMap.wf_filter _ _ _ l.regs, mem := rfl, lpmem := rfl, flash := l.flash, stage := ⟨le_refl 1, Nat.le_of_ble_eq_true rfl⟩
    therm := l.therm, holdup := l.holdup, events := Nat.zero_le _ }
theorem Keeps.linkLost : Keeps s t.linkLost := by
  unfold State.linkLost
  exact Keeps.congr (h.wr.wr.regsErase (p := fun p =>
    !(match pageAt (p.1 / 4096) with | some (t, _) => t == .hif || t == .que | none => false) || isKept p.1)) rfl
theorem Keeps.domRegs {d} : Keeps s (t.domRegs d) := h.regsErase.congr rfl
theorem Keeps.cluLost {c} : Keeps s (t.cluLost c) := by
  unfold State.cluLost
  extract_lets lo s1 s2 s3
  have h1 : Keeps s s1 := h.foldl fun h => h.testLost
  have h3 : Keeps s s3 := h1.mapArrs.modClu
  exact h3.step_of rfl fun l => { l with mem := memory_filter_wf _ _ l.mem }
theorem Keeps.domLost {d} : Keeps s (t.domLost d) := by
  have hr : Keeps s (t.domRegs d) := h.domRegs
  exact .ite hr.cluLost.cluLost.settleTests (.ite hr.memErase (.ite hr.modPort (.ite hr.linkLost (.ite hr.linkDrop (.ite hr.setReg hr)))))
theorem Keeps.modThm {f} (hst : ∀ x, x.st ≤ 3 → (f x).st ≤ 3 := by intro x hx; dsimp only; omega) : Keeps s (t.modThm f) :=
  h.step_of rfl fun l => { l with therm := hst _ l.therm }
theorem Keeps.thmEnter {n} (hn : n ≤ 3) : Keeps s (t.thmEnter n) := by
  have hm : ∀ a b c, Keeps s (t.modThm (fun t => { t with st := n, enforced := a, grace := b, shed := c })) := fun a b c => h.modThm fun _ _ => hn
  exact .ite h (.ite (hm _ _ _).bump (.ite (hm _ _ _).bump (.ite (hm _ _ _).bump.bump (hm _ _ _))))
theorem Keeps.thmPublish {old} : Keeps s (t.thmPublish old) := .ite h.modThm h
theorem Keeps.badReading {k} : Keeps s (t.badReading k) := .ite (h.modThm.thmEnter (le_refl 3)) h.modThm
theorem Keeps.goodReading {q} : Keeps s (t.goodReading q) :=
  .ite h.modThm.modThm (.ite h.modThm.modThm (h.modThm.modThm.thmEnter (thmNext_le _ _)))
theorem execDiodeReading_keeps {r} : KeepsOut s (execDiodeReading r t) :=
  .next (.ite h (.ite h.badReading.thmPublish (h.goodReading.thmPublish.foldl fun h => h.evalTriggers)))
theorem execGraceExpiry_keeps : KeepsOut s (execGraceExpiry t) := .next (.ite h.modThm.bump h)
theorem Keeps.logTrip {cause} : Keeps s (t.logTrip cause) := h.modThm.colQueue
theorem Keeps.shutDown {cause} : Keeps s (t.shutDown cause) := .ite h (h.resetCore.foldl fun h => h.modDom).modThm.logTrip
theorem execSensorFaultTimeout_keeps : KeepsOut s (execSensorFaultTimeout t) := .next (.ite h.shutDown h)
theorem execThermalTrip_keeps : KeepsOut s (execThermalTrip t) := .next (h.shutDown)
theorem execPeakclr_keeps {value} : KeepsOut s (execPeakclr value t) := .next (h.regWrite fun h => .ite h.modThm h)
theorem execTripWrite_keeps {value} : KeepsOut s (execTripWrite value t) := .next (h.regWrite fun h => h.wr)
theorem Keeps.markBegun {ks} : Keeps s (t.markBegun ks) := h.foldl fun h => h.modArr
theorem Keeps.erasedReturn {k} : Keeps s (t.erasedReturn k) := .ite h h.modArr.modUnit.unfenceAnswer.colQueue
theorem Keeps.epochTo {v} : Keeps s (t.epochTo v) := .ite h.withCfg.cfgAdvance h
theorem Keeps.svnRaise {v} : Keeps s (t.svnRaise v) := by
  have hw : Keeps s { t with sec := { t.sec with svnMin := max t.sec.svnMin v } } := h.congr rfl
  unfold State.svnRaise
  exact hw.dirWrite
theorem Keeps.ownDone {w} : Keeps s (t.ownDone w) :=
  .ite h.markBegun (.ite h.erasedReturn (.ite h.epochTo (.ite h.withCol (.ite h.svnRaise h))))
theorem Keeps.cmdDone {w e} : Keeps s (t.cmdDone w e) := by
  unfold State.cmdDone
  dsimp only
  split
  · exact h.markBegun
  · exact h.firstActive.ctxFinish
  · exact h.loadRows.modCtx.withJobs.boundary
  · exact h.modCtx.boundary.progCheck
  · exact h.ctxFinish
  · exact h.created.withJobs.complete
  · exact h.stagedNow.ctxFinish
  · exact h.ctxFinish
  · exact h.destroyNow
  · exact h.complete
  · exact h.ctxFinish
  · exact h.ctxFinish
  · exact h.complete
  · exact h.complete
  · exact h
theorem execColophonStepEnd_keeps : KeepsOut s (execColophonStepEnd t) := by
  unfold execColophonStepEnd
  dsimp only
  refine .next ?_
  split
  · exact h.colStepEnd
  · split
    · exact h.colStepEnd.ownDone
    · exact h.colStepEnd.cmdDone
theorem Keeps.cmdDenied {w e} : Keeps s (t.cmdDenied w e) := by
  unfold State.cmdDenied
  dsimp only
  split
  · split
    · exact h.fail
    · exact .ite h.returnTargets.complete.progCheck h.progAbort
  · exact h.progAbort
  · exact h.progAbort
  · exact h.withJobs.ctxFinish
  · exact h.withJobs.complete
  · exact h.modCtx.ctxFinish
  · exact h.colQueue.complete
  · exact h.fail
  · exact h.fail
  · exact h.ctxFinish
  · exact h.modCtx.ctxFinish
theorem execColophonWriteTimeout_keeps : KeepsOut s (execColophonWriteTimeout t) := by
  unfold execColophonWriteTimeout
  dsimp only
  refine .next ?_
  split
  · exact h
  · split
    · exact h.withCol.cmdDenied
    · exact h.withCol.withCol
theorem execDevCommit_keeps {e} : KeepsOut s (execDevCommit e t) := by
  unfold execDevCommit
  refine .next ?_
  refine h.begin fun h => ?_
  split
  · exact h.fail
  · exact h.colQueue
theorem Keeps.pwTry {r which v} : KeepsFst s (t.pwTry r which v) := .ite (.pair h.withCol) (.pair h.withCol)
theorem Keeps.colCheck {e write} : KeepsFst s (t.colCheck e write) := by
  unfold State.colCheck
  extract_lets p f n last range r u
  have hu : Keeps s u.1 := h.pwTry
  split
  · exact .pair h
  · exact .pair h
  · exact .ite (.pair h) (.ite (.pair h) (.ite (.pair h) (.ite (.pair hu) (.ite (.pair hu) (.ite (.pair hu) (.pair hu))))))
theorem execColRead_keeps {e} : KeepsOut s (execColRead e t) := .next (h.begin fun {u} h => by
  have hc : KeepsFst s (u.colCheck e false) := h.colCheck
  generalize u.colCheck e false = p at *
  split
  · exact Keeps.fail hc
  · exact (Keeps.cmdWrite hc).complete)
theorem execColWrite_keeps {e data} : KeepsOut s (execColWrite e data t) := .next (h.begin fun {u} h => by
  have hc : KeepsFst s (u.colCheck e true) := h.colCheck
  generalize u.colCheck e true = p at *
  split
  · exact Keeps.fail hc
  · exact Keeps.colQueue hc)
theorem execPasswordChange_keeps {value} : KeepsOut s (execPasswordChange value t) := by
  unfold execPasswordChange
  dsimp only
  refine .next ?_
  split
  · exact h.rejectOff
  · exact .ite h (.ite h.rejectOff (.ite h.pwTry.rejectOff (.ite h.pwTry.rejectOff h.pwTry.withCol.colQueue)))
theorem execPowerOnHour_keeps : KeepsOut s (execPowerOnHour t) := .next (.ite h (.ite h.withCol h.withCol.withCol.colQueue))
theorem Keeps.modHld {f} (hst : ∀ x, x.st ≤ 3 → (f x).st ≤ 3 := by intro x hx; dsimp only; omega) : Keeps s (t.modHld f) :=
  h.step_of rfl fun l => { l with holdup := hst _ l.holdup }
theorem Keeps.energy {mv} : KeepsFst s (t.energy mv) := .pair h.draw
theorem Keeps.nodeAt {mv} : Keeps s (t.nodeAt mv) := by
  unfold State.nodeAt
  exact h.energy.modHld
theorem execHoldupMeasureDone_keeps {micros reached} : KeepsOut s (execHoldupMeasureDone micros reached t) :=
  .next (.ite h (h.draw.modHld fun _ _ => by
    dsimp only
    split
    · decide
    · split <;> decide))
theorem execHoldupReady_keeps {mv} : KeepsOut s (execHoldupReady mv t) := .next (.ite h h.nodeAt.modHld)
theorem execHoldupDroop_keeps {mv} : KeepsOut s (execHoldupDroop mv t) := .next (.ite h h.nodeAt.modHld)
theorem execEusableUpdate_keeps {mv} : KeepsOut s (execEusableUpdate mv t) := .next (.ite h h.nodeAt)
theorem execRemeasure_keeps {value} : KeepsOut s (execRemeasure value t) := .next (h.regWrite fun h => .ite h.modHld h)
theorem Keeps.powerOff : Keeps s t.powerOff := h.step_of rfl fun l =>
  { regs := rfl, mem := rfl, lpmem := rfl, flash := l.flash, stage := ⟨le_refl 1, Nat.le_of_ble_eq_true rfl⟩
    therm := Nat.zero_le _, holdup := Nat.zero_le _, events := Nat.zero_le _ }
theorem execVddAonFall_keeps {written} : KeepsOut s (execVddAonFall written t) :=
  .next (.ite h (Keeps.powerOff (by split; exacts [by split; exacts [h.withCol, h], h])))
theorem Keeps.modHkc {f} : Keeps s (t.modHkc f) := h.withHkc
theorem Keeps.hkcStage {o old put} (hact : ∀ {u}, Keeps s u → Keeps s (put u)) : Keeps s (t.hkcStage o old put) :=
  .ite (hact h).modHkc (hact h)
theorem Keeps.hkcEntryWrite {i v acc} : Keeps s (t.hkcEntryWrite i v acc) := by
  unfold State.hkcEntryWrite
  dsimp only
  split
  · exact h.rejectOff
  · exact h.hkcStage fun h => h.regPut
theorem Keeps.stageLow {off v} : Keeps s (t.stageLow off v) := h.modPage
theorem Keeps.takeLow {off v} : KeepsFst s (t.takeLow off v) := by
  unfold State.takeLow
  dsimp only
  split
  · exact .ite (.pair h.modPage) (.pair h)
  · exact .pair h
theorem execHkcStagedWrite_keeps {offset value} : KeepsOut s (execHkcStagedWrite offset value t) :=
  .next (.ite (h.regWrite fun h => h.hkcStage fun h => h.regPut) (.ite (.ite h.stageLow h.takeLow.hkcEntryWrite) h))
theorem execHkcCtrlRun_keeps {value} : KeepsOut s (execHkcCtrlRun value t) :=
  .next (h.regWrite fun h => .ite (.ite (.ite h.regPut.modHkc h.regPut) h.regPut.modHkc) h.regPut.modHkc)
theorem execStatactClear_keeps {value} : KeepsOut s (execStatactClear value t) := .next (h.wr)
theorem execScalgo_keeps {value} : KeepsOut s (execScalgo value t) := .next (h.regWrite fun h => .ite h.setReg h)
theorem execStatcap_keeps {value} : KeepsOut s (execStatcap value t) :=
  .next (h.regWrite fun h => .ite h (.ite h.setReg64.setReg.setReg.modHkc h.setReg64.setReg.setReg))
theorem execHkcEntryStart_keeps : KeepsOut s (execHkcEntryStart t) := by
  unfold execHkcEntryStart
  dsimp only
  refine .next ?_
  split
  · exact h
  · split
    · exact h
    · exact h.modHkc
theorem execHkcWrap_keeps : KeepsOut s (execHkcWrap t) := .next (.ite h h.bump.modHkc)
theorem Keeps.hkcDeliver {i dest word code settle} : Keeps s (t.hkcDeliver i dest word code settle) :=
  .ite h.wr (.ite (.ite h h.modHkc) (.ite (.ite h.wr.wr h.wr.wr.modHkc) h.wr))
theorem execHkcOutput_keeps {c raw past} : KeepsOut s (execHkcOutput c raw past t) := by
  unfold execHkcOutput
  dsimp only
  refine .next ?_
  split
  · exact h
  · split
    · exact .ite h h.hkcDeliver.modHkc
    · exact h
theorem Keeps.hkcConsume {i} : Keeps s (t.hkcConsume i) := .ite h.wr h
theorem execHkcDataRead_keeps {i size} : KeepsOut s (execHkcDataRead i size t) :=
  .next (.ite h (.ite h.hkcConsume.hkcConsume.withHost (.ite h.hkcConsume.withHost h.withHost)))
theorem execHkcUrgent_keeps {e} : KeepsOut s (execHkcUrgent e t) := by
  unfold execHkcUrgent
  refine .next ?_
  refine h.begin fun h => ?_
  dsimp only
  split
  · exact h.fail
  · split
    · exact h.bump.fail
    · exact h.modHkc
theorem execHkcUrgentResult_keeps {raw past} : KeepsOut s (execHkcUrgentResult raw past t) := by
  unfold execHkcUrgentResult
  dsimp only
  refine .next ?_
  split
  · exact h
  · exact h.modHkc.complete
theorem execHkcSelfCal_keeps {factors} : KeepsOut s (execHkcSelfCal factors t) := .next (.ite h h.setReg.modHkc)
theorem execHkcTwinCheck_keeps {a b} : KeepsOut s (execHkcTwinCheck a b t) :=
  .next (.ite h (Keeps.ite h.draw.setReg.bump h.draw.setReg).modHkc)
theorem Keeps.loadHistory : Keeps s t.loadHistory := h.foldl fun h => by split; exacts [h, .ite h h.modUnit.withCol]
theorem Keeps.standFenced {u} {fenced} : Keeps s (t.standFenced u fenced) := h.modUnit
theorem Keeps.loadFences : Keeps s t.loadFences :=
  (Keeps.foldl (by split; exacts [h.foldl fun h => h.standFenced, h])) fun h => .ite h.modDsy h
theorem Keeps.loadArrays : Keeps s t.loadArrays :=
  h.foldl fun h => h.foldl fun h => by dsimp only; split; exacts [h.modArr.modArr.standFenced, .ite h.modArr.modArr.standFenced h.modArr.modArr.standFenced]
theorem Keeps.loadRepairs : Keeps s t.loadRepairs := h.foldl fun h => by split; exacts [h, h.foldl fun h => .ite h h.modClu.withCol]
theorem Keeps.mount : Keeps s t.mount := by
  have hw : ∀ {u : State} {a b c d}, Keeps s u → Keeps s { u with col := a, epochCtr := b, thm := { u.thm with log := c }, sec := { u.sec with svnMin := d } } :=
    fun h => h.congr rfl
  unfold State.mount
  exact (hw h.setReg.setReg).setReg.loadHistory.loadFences.loadArrays.loadRepairs
theorem Keeps.restoreRegs : Keeps s t.restoreRegs := by
  unfold State.restoreRegs
  exact Keeps.foldlFst h.regsErase fun hp => Keeps.ite hp (.ite hp.bump.setReg (.ite hp.put64 hp.wr))
theorem Keeps.restoreArr {k w} : Keeps s (t.restoreArr k w) :=
  .ite h.modArr (.ite h.modArr.modArr.countFails.withFree.fence.report h.modArr.modArr.countFails.withFree)
theorem Keeps.restoreCtxs : Keeps s t.restoreCtxs :=
  (h.foldl fun h => by split; exacts [h.setCtx, h]).foldl fun h => by split; exacts [h, h.foldl fun h => .ite h.restoreArr h]
theorem execQfreqWrite_keeps {value} : KeepsOut s (execQfreqWrite value t) :=
  .next (h.regWrite fun h => h.regPut.foldl fun h => .ite h h.withQfreq)
theorem execQfreqRelock_keeps {n} : KeepsOut s (execQfreqRelock n t) := .next (.ite h h.withQfreq)
theorem Keeps.powerEval : Keeps s t.powerEval := .ite h (h.foldl fun h => .ite h.modDom (.ite h.modDom h))
theorem execPowerRequestWrite_keeps {offset value} : KeepsOut s (execPowerRequestWrite offset value t) := by
  refine .next (.ite (h.regWrite fun _ => h.modDom.powerEval) ?_)
  split
  · exact h
  · refine .ite h ?_
    dsimp only
    split
    · exact h.reject
    · exact h.modPage.powerEval
theorem execDomainOffDone_keeps {d} : KeepsOut s (execDomainOffDone d t) := .next (.ite h h.domLost.modDom.powerEval)
theorem Keeps.pairBack {d} : Keeps s (t.pairBack d) := (h.foldl fun h => .ite h.modCtx h).foldl fun h => h.modArr.modUnit
theorem execDomainOnDone_keeps {d} : KeepsOut s (execDomainOnDone d t) :=
  .next (.ite h (Keeps.ite h.modDom.pairBack (.ite h.modDom.setReg (.ite h.modDom.modDsy h.modDom))).powerEval)
theorem Keeps.modXng {a b f} : Keeps s (t.modXng a b f) := h.withXng
theorem execCrossingClose_keeps {src peer lost dropped} : KeepsOut s (execCrossingClose src peer lost dropped t) :=
  .next (.ite h h.modXng.modXng.modXng)
theorem execCrossingReopen_keeps {src peer} : KeepsOut s (execCrossingReopen src peer t) := .next (.ite h h.modXng.modXng)
theorem Keeps.modSec {f} (hflash : ∀ x, (f x).flash = x.flash := by exact fun _ => rfl)
    (hstage : ∀ x, 1 ≤ x.stage ∧ x.stage ≤ 10 → 1 ≤ (f x).stage ∧ (f x).stage ≤ 10 := by intro x hx; dsimp only; omega) : Keeps s (t.modSec f) :=
  h.step_of rfl fun l => { l with flash := by rw [← l.flash]; exact congrArg _ (hflash _), stage := hstage _ l.stage }
theorem Keeps.stageTwo : Keeps s t.stageTwo := by
  unfold State.stageTwo
  exact h.setReg.modHld.modSec
theorem Keeps.takeRole {role} : Keeps s (t.takeRole role) :=
  .ite (Keeps.ite h.modSec.withChain h.modSec).modDom.modDom (.ite h.modSec.withChain h.modSec)
theorem Keeps.start {role} : Keeps s (t.start role) := .ite h.takeRole.modSec.modPage h.takeRole.modSec
theorem execPerstNAssert_keeps : KeepsOut s (execPerstNAssert t) := .next (.ite h (.ite h.withPerst h.withPerst.resetCore.modSec.modThm))
theorem execPerstNRelease_keeps {role} : KeepsOut s (execPerstNRelease role t) :=
  .next (.ite h (.ite h.withPerst.withTap h.withPerst.withTap.start))
theorem execRailDroop_keeps : KeepsOut s (execRailDroop t) := .next (.ite h h.withRailOk.resetCore.modSec)
theorem execRailRecovery_keeps {role} : KeepsOut s (execRailRecovery role t) := .next (.ite h (.ite h.withRailOk h.withRailOk.modSec.start))
theorem execPowerUp_keeps : KeepsOut s (execPowerUp t) := .next (.ite h (h.congr rfl))
theorem execThermalRestart_keeps : KeepsOut s (execThermalRestart t) := by
  have hw : ∀ {u : State} {x}, Keeps s u → Keeps s { u with doms := x } := fun h => h.congr rfl
  unfold execThermalRestart
  exact .next (.ite h (.ite (hw h.modThm).resetCore.modSec (hw h.modThm).takeRole.modSec.stageTwo))
theorem Keeps.trySlot {slot} : KeepsFst s (t.trySlot slot) := by
  unfold State.trySlot
  dsimp only
  split
  · exact .pair h.sigCount
  · exact .pair h.sigCount.sigCount
theorem Keeps.countBoot : Keeps s t.countBoot := h.setReg.colQueue
theorem Keeps.bootImage {slot img} : Keeps s (t.bootImage slot img) := (h.modSec.foldl fun h => h.modCmp).countBoot
theorem Keeps.stageFive : Keeps s t.stageFive := by
  unfold State.stageFive
  extract_lets d a
  have ha : Keeps s a.1 := h.trySlot
  split
  · exact ha.bootImage
  · have hb : ∀ {b : Prop} [Decidable b] {o x}, KeepsFst s (if b then a.1.trySlot o else (a.1, x)) := .ite ha.trySlot (.pair ha)
    dsimp only
    split
    · exact Keeps.bootImage hb
    · exact Keeps.modSec hb
theorem Keeps.stageThree : Keeps s t.stageThree := .ite h.modSec.modPage h.mount.modSec
theorem Keeps.stageFour : Keeps s t.stageFour := by
  unfold State.stageFour
  exact (h.restoreRegs.withCfg.withQfreq.modHkc.foldl fun h => .ite h.modDsy h).modSec
theorem Keeps.stageSeven : Keeps s t.stageSeven := by
  unfold State.stageSeven
  extract_lets s1 s2
  have h1 : Keeps s s1 := h.foldl fun h => .ite h.setMarch h
  have h2 : Keeps s s2 := .ite h1.setMarch h1
  clear_value s2
  exact h2.step_of rfl fun l => { l with mem := rfl }
theorem Keeps.stageEight : Keeps s t.stageEight := h.mapArrs.modSec
theorem Keeps.stageTen : Keeps s t.stageTen := by
  unfold State.stageTen
  exact (h.restoreCtxs.setReg.foldl fun h => .ite h.setReg h).modSec
theorem execBootStageComplete_keeps : KeepsOut s (execBootStageComplete t) := by
  unfold execBootStageComplete
  refine .next ?_
  split
  · exact h
  · split
    · exact h.stageTwo
    · exact .ite h h.modSec
    · exact .ite h h.stageThree
    · exact h.stageFour
    · exact h.stageFive
    · exact h.modSec
    · exact .ite h h.stageSeven.stageEight
    · exact .ite h h.modSec
    · exact h.stageTen
    · exact h
theorem execHotReset_keeps : KeepsOut s (execHotReset t) := .next (h.linkLost)
theorem execPcieLinkUp_keeps : KeepsOut s (execPcieLinkUp t) := .next (.ite h h.draw.withHost)
theorem execAspmL1Entry_keeps : KeepsOut s (execAspmL1Entry t) := .next (.ite h.withHost h)
theorem execD3hotEntry_keeps : KeepsOut s (execD3hotEntry t) := .next (.ite h (h.foldl fun h => h.setReg).withHost)
theorem Keeps.stageSigs {e img} : Keeps s (t.stageSigs e img) := by
  unfold State.stageSigs
  split
  · exact h.sigCount
  · exact h.sigCount
  · exact .ite h h.sigCount
  · exact h
theorem Keeps.programRegion {img} : Keeps s (t.programRegion img) := h.flashErase.flashWrite
theorem execFwStage_keeps {e image} : KeepsOut s (execFwStage e image t) := by
  unfold execFwStage
  refine .next ?_
  refine h.begin fun h => ?_
  dsimp only
  split
  · exact h.stageSigs.fail
  · exact .ite h.stageSigs.programRegion.fail h.stageSigs.programRegion.modSec
theorem execFwStageDone_keeps {readBackOk dirOk} : KeepsOut s (execFwStageDone readBackOk dirOk t) := by
  unfold execFwStageDone
  dsimp only
  refine .next ?_
  split
  · exact h
  · exact .ite h.modSec.fail (.ite h.modSec.dirWrite.complete h.modSec.dirWrite.fail)
theorem execFwActivate_keeps {e} : KeepsOut s (execFwActivate e t) := by
  unfold execFwActivate
  refine .next (h.begin fun {u} h => ?_)
  extract_lets slot code img u1
  clear_value code
  have h1 : Keeps s u1 := by
    unfold u1
    split
    exacts [h.sigCount, h.sigCount, h.sigCount, h]
  clear_value u1
  split
  · exact h1.fail
  · exact .ite h1.draw.dirWrite.fail (.ite h1.draw.dirWrite.modSec.modSec.cfgAdvance.complete
      (h1.draw.dirWrite.modSec.foldl fun h => h.modCmp).modSec.withJobs.fwCheck)
theorem execRbcommit_keeps {value} : KeepsOut s (execRbcommit value t) := .next (h.regWrite fun h => .ite h.colQueue h)
theorem execLockWrite_keeps {value} : KeepsOut s (execLockWrite value t) := .next (h.regWrite fun h => .ite h.wr.withTap h.wr)
theorem execLockbootWrite_keeps {value} : KeepsOut s (execLockbootWrite value t) := .next (h.regWrite fun h => h.regPut)
theorem execAttest_keeps {e} : KeepsOut s (execAttest e t) := by
  unfold execAttest
  refine .next ?_
  refine h.begin fun h => ?_
  split
  · exact h.fail
  · exact h.withJobs
theorem execAttestReportDone_keeps : KeepsOut s (execAttestReportDone t) := by
  unfold execAttestReportDone
  dsimp only
  refine .next ?_
  split
  · exact h
  · exact .ite h h.withJobs.bump.draw.cmdWrite.complete
theorem execTapInstruction_keeps {code} : KeepsOut s (execTapInstruction code t) := .next (h.withTap)
theorem execArrayProbe_keeps {value} : KeepsOut s (execArrayProbe value t) := .next (.ite h h.withTap)
theorem execMbistAccess_keeps {value} : KeepsOut s (execMbistAccess value t) :=
  .next (.ite h (.ite h.withTap (Keeps.ite h.withTap.setMarch.marchZero h.withTap.setMarch).withJobs.withTap))
theorem execScanLockStatus_keeps : KeepsOut s (execScanLockStatus t) := .next (.ite h h.withTap)
theorem Keeps.after {o} (ho : KeepsOut s o) : Keeps s (after o t) := by
  unfold Machine.after
  split
  · next u => exact ho u rfl
  · exact h
theorem Keeps.unmapped {off} : Keeps s (t.unmapped off) := h.reject
theorem Keeps.hdrWrite {off v} : Keeps s (t.hdrWrite off v) := .ite (h.after (execPowerRequestWrite_keeps h)) (.ite h.modPage h)
theorem Keeps.wideWrite {lo v acc} : Keeps s (t.wideWrite lo v acc) := by
  unfold State.wideWrite
  dsimp only
  split
  · exact h
  · split
    · exact h
    · split
      · exact .ite h.rejectOff h
      · split
        · exact h.rejectOff
        · exact .ite h.hkcEntryWrite (.ite h.withCol h.regPut)
theorem Keeps.halfWrite {off lo v} : Keeps s (t.halfWrite off lo v) := .ite h.rejectOff (.ite h.stageLow h.takeLow.wideWrite)
theorem execSqDoorbell_keeps {q value} : KeepsOut s (execSqDoorbell q value t) := .next (.ite h (h.regWrite fun h => h.regPut))
theorem execCqHeadWrite_keeps {q value} : KeepsOut s (execCqHeadWrite q value t) := .next (.ite h (h.regWrite fun h => h.regPut))
theorem execQueueEnable_keeps {q value} : KeepsOut s (execQueueEnable q value t) :=
  .next (.ite h (h.regWrite fun h => .ite h.regPut h.regPut.setReg.setReg.setReg.setReg.modQueue.withHost))
theorem execStatctrlWrite_keeps {value} : KeepsOut s (execStatctrlWrite value t) :=
  .next (h.regWrite fun h => .ite h.regPut h.regPut.setReg.withHost)
theorem execQueueFetch_keeps {bytes} : KeepsOut s (execQueueFetch bytes t) := by
  unfold execQueueFetch
  dsimp only
  refine .next ?_
  split
  · exact h
  · exact .ite (h.foldl fun h => h.modQueue).setReg.modQueue.fail (h.foldl fun h => h.modQueue).setReg.modQueue
theorem execStatusRecordWrite_keeps : KeepsOut s (execStatusRecordWrite t) := .next (.ite h h.setReg.withHost.hostWrite)
theorem execArrCntclr_keeps {c value} : KeepsOut s (execArrCntclr c value t) := .next (.ite h (h.regWrite fun h => .ite h.modArr h))
theorem Keeps.wordWrite {t' i o v} : Keeps s (t.wordWrite t' i o v) := by
  unfold State.wordWrite
  dsimp only
  split
  · exact h.after (execSqDoorbell_keeps h)
  · exact h.after (execCqHeadWrite_keeps h)
  · exact h.after (execQueueEnable_keeps h)
  · exact h.after (execStatctrlWrite_keeps h)
  · exact h.after (execAbort_keeps h)
  · exact h.after (execArrCntclr_keeps h)
  · exact h.after (execRbselGo_keeps h)
  · exact h.after (execFhpCfgWrite_keeps h)
  · exact h.after (execFhpCntclr_keeps h)
  · exact h.after (execMaintWrite_keeps h)
  · exact h.after (execDsyCfgWrite_keeps h)
  · exact .ite (h.after (execPushGo_keeps h)) (h.regWrite fun h => h)
  · exact h.after (execPasswordChange_keeps h)
  · exact h.after (execRemeasure_keeps h)
  · exact h.after (execHkcCtrlRun_keeps h)
  · exact h.after (execHkcStagedWrite_keeps h)
  · exact h.after (execScalgo_keeps h)
  · exact h.after (execStatcap_keeps h)
  · exact h.after (execStatactClear_keeps h)
  · exact h.after (execTripWrite_keeps h)
  · exact h.after (execPeakclr_keeps h)
  · exact h.after (execQfreqWrite_keeps h)
  · exact h.after (execPowerRequestWrite_keeps h)
  · exact h.after (execSlack_keeps h)
  · exact h.after (execPeriodWrite_keeps h)
  · exact h.after (execLockWrite_keeps h)
  · exact h.after (execLockbootWrite_keeps h)
  · exact h.after (execRbcommit_keeps h)
  · exact h.after (execAlign_keeps h)
  · exact .ite (h.after (execGalMapWrite_keeps h)) (h.regWrite fun h => h)
  · split
    · exact h.regWrite fun h => h
    · exact .ite (h.regWrite fun h => h) (.ite (h.regWrite fun h => h) (h.regWrite fun h => h.regPut))
theorem Keeps.write4 {off v} : Keeps s (t.write4 off v) := by
  unfold State.write4
  split
  · exact h.unmapped
  · split
    · exact h.hdrWrite
    · split
      · exact h.halfWrite
      · exact h.wordWrite
theorem execRegisterWrite_keeps {offset value} : KeepsOut s (execRegisterWrite offset value t) := .next (.ite h h.write4)
theorem execLowWordWrite_keeps {offset value} : KeepsOut s (execLowWordWrite offset value t) := by
  unfold execLowWordWrite
  refine .next ?_
  split
  · exact .ite h.halfWrite h
  · exact h
theorem execHighWordWrite_keeps {offset value} : KeepsOut s (execHighWordWrite offset value t) := by
  unfold execHighWordWrite
  refine .next ?_
  split
  · exact .ite h.halfWrite h
  · exact h
theorem Keeps.read4 {off} : Keeps s (t.read4 off) := by
  unfold State.read4
  split
  · exact h.unmapped.reply
  · split
    · exact h.reply
    · split
      · exact h.after (execRbdataRead_keeps h)
      · split
        · exact h.after (execHkcDataRead_keeps h)
        · split
          · exact h.reply
          · exact .ite h.reply.modPage h.reply
theorem Keeps.read8 {off} : Keeps s (t.read8 off) := by
  unfold State.read8
  dsimp only
  split
  · exact .ite (h.after (execRbdataRead_keeps h)) h.reply
  · exact h.reply
  · exact h.unmapped.reply
  · exact h.read4.read4.reply
theorem Keeps.write8 {off v} : Keeps s (t.write8 off v) := by
  unfold State.write8
  split
  · exact .ite h.rejectOff h.wideWrite
  · split
    · exact h.unmapped
    · exact h.write4.write4
theorem Keeps.oddAccess {write off size} : Keeps s (t.oddAccess write off size) := by
  unfold State.oddAccess
  dsimp only
  split
  · exact h.bump.withHost
  · split
    · exact .ite h.unmapped h.unmapped.reply
    · exact .ite h.rejectOff h.reply
theorem Keeps.hostAccess {write off size v} : Keeps s (t.hostAccess write off size v) :=
  .ite h.oddAccess (.ite (.ite h.write4 h.write8) (.ite h.read4 h.read8))
theorem execLowWordRead_keeps {offset} : KeepsOut s (execLowWordRead offset t) := .next (.ite h h.read4)
theorem execBar0OddAccess_keeps {write offset size} : KeepsOut s (execBar0OddAccess write offset size t) := .next (.ite h h.oddAccess)
theorem execBar0Unmapped_keeps {write offset} : KeepsOut s (execBar0Unmapped write offset t) :=
  .next (.ite h (.ite h.unmapped h.unmapped.reply))
theorem execRemoteWindowAccess_keeps {write offset size value} : KeepsOut s (execRemoteWindowAccess write offset size value t) :=
  .next (.ite h (.ite h.hostAccess (.ite (.ite h.withChain h.withChain.reply) (.ite h.bump.reject h.bump.reject.reply))))
theorem execRemoteRegAccess_keeps {write offset size value} : KeepsOut s (execRemoteRegAccess write offset size value t) :=
  .next (.ite h h.hostAccess.withHost.withChain)

/-! ### Every command -/

/-- Whatever the command, what it goes on to is kept. -/
theorem exec_keeps (i : Instr) : KeepsOut s (exec i t) := by
  cases i with
  | devCommit _ => exact execDevCommit_keeps h
  | ctxCreate _ => exact execCtxCreate_keeps h
  | ctxLoad _ _ _ => exact execCtxLoad_keeps h
  | ctxProgram _ _ => exact execCtxProgram_keeps h
  | ctxSwitch _ => exact execCtxSwitch_keeps h
  | ctxSave _ => exact execCtxSave_keeps h
  | ctxRestore _ _ _ => exact execCtxRestore_keeps h
  | ctxDestroy _ => exact execCtxDestroy_keeps h
  | run _ => exact execRun_keeps h
  | slotDesc _ _ => exact execSlotDesc_keeps h
  | slotClose _ => exact execSlotClose_keeps h
  | calRun _ => exact execCalRun_keeps h
  | testRun _ => exact execTestRun_keeps h
  | marchRun _ => exact execMarchRun_keeps h
  | colRead _ => exact execColRead_keeps h
  | colWrite _ _ => exact execColWrite_keeps h
  | hkcUrgent _ => exact execHkcUrgent_keeps h
  | digestQuery _ => exact execDigestQuery_keeps h
  | census _ => exact execCensus_keeps h
  | fwStage _ _ => exact execFwStage_keeps h
  | fwActivate _ => exact execFwActivate_keeps h
  | unitFence _ => exact execUnitFence_keeps h
  | unitUnfence _ => exact execUnitUnfence_keeps h
  | attest _ => exact execAttest_keeps h
  | queueFetch _ => exact execQueueFetch_keeps h
  | statusRecordWrite => exact execStatusRecordWrite_keeps h
  | nop _ _ => exact execNop_keeps h
  | loop _ _ => exact execLoop_keeps h
  | endloop _ _ => exact execEndloop_keeps h
  | brc _ _ => exact execBrc_keeps h
  | wait _ _ => exact execWait_keeps h
  | waitMet _ _ _ => exact execWaitMet_keeps h
  | waitLimit _ _ => exact execWaitLimit_keeps h
  | sig _ _ => exact execSig_keeps h
  | halt _ _ => exact execHalt_keeps h
  | seta _ _ => exact execSeta_keeps h
  | adda _ _ => exact execAdda_keeps h
  | mvm _ _ => exact execMvm_keeps h
  | mvms _ _ => exact execMvms_keeps h
  | refread _ _ => exact execRefread_keeps h
  | pmm _ _ => exact execPmm_keeps h
  | pmmc _ _ => exact execPmmc_keeps h
  | pout _ _ => exact execPout_keeps h
  | drain _ _ => exact execDrain_keeps h
  | argx _ _ => exact execArgx_keeps h
  | asave _ _ => exact execAsave_keeps h
  | arestore _ _ => exact execArestore_keeps h
  | azero _ _ => exact execAzero_keeps h
  | move _ _ => exact execMove_keeps h
  | gather _ _ => exact execGather_keeps h
  | pack _ _ => exact execPack_keeps h
  | rank _ _ => exact execRank_keeps h
  | chkpt _ _ => exact execChkpt_keeps h
  | digest _ _ => exact execDigest_keeps h
  | testvec _ _ => exact execTestvec_keeps h
  | cmpr _ _ => exact execCmpr_keeps h
  | xsend _ _ => exact execXsend_keeps h
  | xrecv _ _ => exact execXrecv_keeps h
  | invocationStart _ => exact execInvocationStart_keeps h
  | invocationEnd _ => exact execInvocationEnd_keeps h
  | invocationStop _ => exact execInvocationStop_keeps h
  | abort _ _ => exact execAbort_keeps h
  | vectorStart _ _ _ => exact execVectorStart_keeps h
  | vectorResult _ _ _ => exact execVectorResult_keeps h
  | tileOpRelease _ _ => exact execTileOpRelease_keeps h
  | clusterEntryRelease _ _ => exact execClusterEntryRelease_keeps h
  | proofOpRetire _ _ _ => exact execProofOpRetire_keeps h
  | drainRetire _ _ => exact execDrainRetire_keeps h
  | accOpRetire _ => exact execAccOpRetire_keeps h
  | moveRetire _ => exact execMoveRetire_keeps h
  | engineOpRetire _ _ => exact execEngineOpRetire_keeps h
  | refreadDone _ _ _ _ => exact execRefreadDone_keeps h
  | chkptRecord _ _ => exact execChkptRecord_keeps h
  | digestDone => exact execDigestDone_keeps h
  | testvecDone _ => exact execTestvecDone_keeps h
  | cmprDone _ => exact execCmprDone_keeps h
  | xsendAccepted => exact execXsendAccepted_keeps h
  | xrecvMessage _ => exact execXrecvMessage_keeps h
  | fronthaulFrame _ _ _ _ => exact execFronthaulFrame_keeps h
  | pauseTransmit _ _ => exact execPauseTransmit_keeps h
  | pauseRepeat _ => exact execPauseRepeat_keeps h
  | fhLinkChange _ _ => exact execFhLinkChange_keeps h
  | s0BufferAssign _ => exact execS0BufferAssign_keeps h
  | egressWrite _ => exact execEgressWrite_keeps h
  | slotCompletion _ => exact execSlotCompletion_keeps h
  | driftClockRead _ _ _ _ _ _ => exact execDriftClockRead_keeps h
  | referenceStep _ => exact execReferenceStep_keeps h
  | statWindowClose _ => exact execStatWindowClose_keeps h
  | statFit _ => exact execStatFit_keeps h
  | converterSelfCal _ _ _ _ _ => exact execConverterSelfCal_keeps h
  | twinCheck _ _ _ _ => exact execTwinCheck_keeps h
  | refreshStart _ => exact execRefreshStart_keeps h
  | arrayProgrammed _ _ _ _ _ _ _ _ => exact execArrayProgrammed_keeps h
  | domainRepowerRestore _ => exact execDomainRepowerRestore_keeps h
  | arrayTest _ _ _ => exact execArrayTest_keeps h
  | clusterTest _ _ => exact execClusterTest_keeps h
  | clusterTestPreempt _ _ => exact execClusterTestPreempt_keeps h
  | digestRound _ => exact execDigestRound_keeps h
  | verifiedReadback _ _ _ _ _ => exact execVerifiedReadback_keeps h
  | faultEvent _ _ => exact execFaultEvent_keeps h
  | unitReturn _ _ _ _ => exact execUnitReturn_keeps h
  | cmpReplaceStart => exact execCmpReplaceStart_keeps h
  | cmpCopyDone => exact execCmpCopyDone_keeps h
  | cmpReload => exact execCmpReload_keeps h
  | cmpReloadDone _ => exact execCmpReloadDone_keeps h
  | cmpCarryEnd => exact execCmpCarryEnd_keeps h
  | marchTestDone _ _ _ => exact execMarchTestDone_keeps h
  | lpxTrainingDone _ _ => exact execLpxTrainingDone_keeps h
  | lpxPatrolScrub _ _ => exact execLpxPatrolScrub_keeps h
  | lpxMr4Poll _ _ => exact execLpxMr4Poll_keeps h
  | colophonStepStart => exact execColophonStepStart_keeps h
  | colophonStepEnd => exact execColophonStepEnd_keeps h
  | colophonWriteTimeout => exact execColophonWriteTimeout_keeps h
  | powerOnHour => exact execPowerOnHour_keeps h
  | holdupMeasureDone _ _ => exact execHoldupMeasureDone_keeps h
  | holdupReady _ => exact execHoldupReady_keeps h
  | holdupDroop _ => exact execHoldupDroop_keeps h
  | eusableUpdate _ => exact execEusableUpdate_keeps h
  | vddAonFall _ => exact execVddAonFall_keeps h
  | railDroop => exact execRailDroop_keeps h
  | perstNAssert => exact execPerstNAssert_keeps h
  | perstNRelease _ => exact execPerstNRelease_keeps h
  | bootStageComplete => exact execBootStageComplete_keeps h
  | hotReset => exact execHotReset_keeps h
  | aspmL1Entry => exact execAspmL1Entry_keeps h
  | d3hotEntry => exact execD3hotEntry_keeps h
  | diodeReading _ => exact execDiodeReading_keeps h
  | graceExpiry => exact execGraceExpiry_keeps h
  | sensorFaultTimeout => exact execSensorFaultTimeout_keeps h
  | thermalTrip => exact execThermalTrip_keeps h
  | thermalRestart => exact execThermalRestart_keeps h
  | hkcEntryStart => exact execHkcEntryStart_keeps h
  | hkcOutput _ _ _ => exact execHkcOutput_keeps h
  | hkcWrap => exact execHkcWrap_keeps h
  | hkcTwinCheck _ _ => exact execHkcTwinCheck_keeps h
  | hkcSelfCal _ => exact execHkcSelfCal_keeps h
  | hkcUrgentResult _ _ => exact execHkcUrgentResult_keeps h
  | qfreqRelock _ => exact execQfreqRelock_keeps h
  | domainOffDone _ => exact execDomainOffDone_keeps h
  | domainOnDone _ => exact execDomainOnDone_keeps h
  | crossingClose _ _ _ _ => exact execCrossingClose_keeps h
  | crossingReopen _ _ => exact execCrossingReopen_keeps h
  | daisyLinkUp _ _ => exact execDaisyLinkUp_keeps h
  | enumReceived _ _ => exact execEnumReceived_keeps h
  | endReceived _ => exact execEndReceived_keeps h
  | positionLoss => exact execPositionLoss_keeps h
  | daisyNak _ => exact execDaisyNak_keeps h
  | laneFail _ _ => exact execLaneFail_keeps h
  | daisyLinkReset _ _ => exact execDaisyLinkReset_keeps h
  | collMessageReceived _ => exact execCollMessageReceived_keeps h
  | remoteRegAccess _ _ _ _ => exact execRemoteRegAccess_keeps h
  | tunnelRequest _ _ => exact execTunnelRequest_keeps h
  | tunnelTimeout _ => exact execTunnelTimeout_keeps h
  | pushBlock _ _ => exact execPushBlock_keeps h
  | pushDone => exact execPushDone_keeps h
  | pushFail _ _ => exact execPushFail_keeps h
  | censusStart => exact execCensusStart_keeps h
  | censusToken _ => exact execCensusToken_keeps h
  | censusFinish _ _ => exact execCensusFinish_keeps h
  | configDigestPublish => exact execConfigDigestPublish_keeps h
  | lowWordRead _ => exact execLowWordRead_keeps h
  | lowWordWrite _ _ => exact execLowWordWrite_keeps h
  | highWordWrite _ _ => exact execHighWordWrite_keeps h
  | bar0OddAccess _ _ _ => exact execBar0OddAccess_keeps h
  | bar0Unmapped _ _ => exact execBar0Unmapped_keeps h
  | bar2Access _ => exact execBar2Access_keeps h
  | rotateAliasAccess _ => exact execRotateAliasAccess_keeps h
  | setAliasWrite _ => exact execSetAliasWrite_keeps h
  | clearAliasWrite _ => exact execClearAliasWrite_keeps h
  | apertureAccess _ => exact execApertureAccess_keeps h
  | remoteWindowAccess _ _ _ _ => exact execRemoteWindowAccess_keeps h
  | registerWrite _ _ => exact execRegisterWrite_keeps h
  | sqDoorbell _ _ => exact execSqDoorbell_keeps h
  | cqHeadWrite _ _ => exact execCqHeadWrite_keeps h
  | queueEnable _ _ => exact execQueueEnable_keeps h
  | statctrlWrite _ => exact execStatctrlWrite_keeps h
  | arrCntclr _ _ => exact execArrCntclr_keeps h
  | fhpCntclr _ _ => exact execFhpCntclr_keeps h
  | rbselGo _ _ => exact execRbselGo_keeps h
  | readbackArrive _ => exact execReadbackArrive_keeps h
  | rbdataRead _ _ => exact execRbdataRead_keeps h
  | maintWrite _ _ => exact execMaintWrite_keeps h
  | slack _ => exact execSlack_keeps h
  | periodWrite _ => exact execPeriodWrite_keeps h
  | passwordChange _ => exact execPasswordChange_keeps h
  | remeasure _ => exact execRemeasure_keeps h
  | scalgo _ => exact execScalgo_keeps h
  | statcap _ => exact execStatcap_keeps h
  | statactClear _ => exact execStatactClear_keeps h
  | hkcStagedWrite _ _ => exact execHkcStagedWrite_keeps h
  | hkcCtrlRun _ => exact execHkcCtrlRun_keeps h
  | hkcDataRead _ _ => exact execHkcDataRead_keeps h
  | peakclr _ => exact execPeakclr_keeps h
  | tripWrite _ => exact execTripWrite_keeps h
  | qfreqWrite _ => exact execQfreqWrite_keeps h
  | powerRequestWrite _ _ => exact execPowerRequestWrite_keeps h
  | fhpCfgWrite _ _ => exact execFhpCfgWrite_keeps h
  | galMapWrite _ _ => exact execGalMapWrite_keeps h
  | dsyCfgWrite _ _ => exact execDsyCfgWrite_keeps h
  | pushGo _ => exact execPushGo_keeps h
  | align _ => exact execAlign_keeps h
  | rbcommit _ => exact execRbcommit_keeps h
  | lockWrite _ => exact execLockWrite_keeps h
  | lockbootWrite _ => exact execLockbootWrite_keeps h
  | tapInstruction _ => exact execTapInstruction_keeps h
  | arrayProbe _ => exact execArrayProbe_keeps h
  | mbistAccess _ => exact execMbistAccess_keeps h
  | scanLockStatus => exact execScanLockStatus_keeps h
  | powerUp => exact execPowerUp_keeps h
  | railRecovery _ => exact execRailRecovery_keeps h
  | pcieLinkUp => exact execPcieLinkUp_keeps h
  | attestReportDone => exact execAttestReportDone_keeps h
  | fwStageDone _ _ => exact execFwStageDone_keeps h

end

end Sys2Proof.Machine
end

section
/-!
PROOFS. The invariant of every step, and the queue of waiting commands.
-/
open Sys2Proof Sys2Proof.Machine

namespace Sys2Proof.Machine

/-- The command at the front leaves the queue; the state it then runs on is as legal as it was. -/
theorem legal_withoutFront {s : State} (r : List Instr) (l : s.Legal) : State.Legal { s with pending := r } :=
  ⟨l.regs, l.mem, l.lpmem, l.flash, l.stage, l.therm, l.holdup, l.events⟩

/-- Settles O58: an idle step changes nothing, and a command at the front runs on a legal state, which every command keeps legal. -/
theorem stepKeepsLegal : Obligations.StepKeepsLegal := by
  unfold Obligations.StepKeepsLegal
  intro s t l hstep
  unfold step at hstep
  split at hstep
  · cases hstep
    exact l
  · next c r _ => exact (exec_keeps (Keeps.refl _) c t hstep).legal (legal_withoutFront r l)

/-- Settles O56: no operation that a command is made of touches the queue. -/
theorem execKeepsTheQueue : Obligations.ExecKeepsTheQueue := by
  unfold Obligations.ExecKeepsTheQueue
  exact fun c s t hexec => (exec_keeps (Keeps.refl s) c t hexec).pending

end Sys2Proof.Machine
end

section
/-!
PROOFS. One step, the power-up state, and the instructions that a stream runs itself: control, registers, semaphores.
-/
open Sys2Proof Sys2Proof.Machine

namespace Sys2Proof.Machine

/-- Settles O55: the step is a case split on the queue, and no bits of the command table spell a word. -/
theorem stepRunsTheFrontCommand : Obligations.StepRunsTheFrontCommand := by
  unfold Obligations.StepRunsTheFrontCommand
  intro s
  have hword : ∀ nbits w, decodeTableWord nbits w = none := fun _ _ => rfl
  refine ⟨fun c r h => ?_, fun _ => rfl, fun h => ?_, fun nbits w => ⟨hword nbits w, rfl⟩⟩
  · unfold step
    rw [h]
  · unfold step
    rw [h]

/-- Settles O57: the power-up register file is empty, so a word reads its page's value, and nothing else holds anything. -/
theorem resetHoldsThePowerUpValues : Obligations.ResetHoldsThePowerUpValues := by
  unfold Obligations.ResetHoldsThePowerUpValues
  refine ⟨⟨rfl, rfl, rfl, rfl, by decide, by decide, by decide, by decide⟩, rfl, rfl, rfl, rfl, ?_, ?_, fun _ => rfl, fun _ => rfl, fun _ => rfl,
    fun _ => rfl, fun _ => rfl, rfl, rfl, rfl, rfl⟩
  · decide
  · decide

/-! ### Instructions that a stream runs itself -/

/-- What runs when the stream may issue. -/
theorem exec_of_issuable {ctx i op : Nat} {s : State} {v : Inv} {st : StreamSt} {w : Nat} {f : Inv → StreamSt → Nat → State}
    (h : s.issuable ctx i op = some (v, st, w)) :
    (match s.issuable ctx i op with | none => s | some (v, st, w) => f v st w) = f v st w := by rw [h]

/-- Settles O1: each of the five is `State.control` with its own stream and next index. -/
theorem controlInstructionsIssue : Obligations.ControlInstructionsIssue := by
  unfold Obligations.ControlInstructionsIssue
  intro s ctx i v st w
  refine ⟨fun h => ?_, fun h => ?_, fun n b r h hl => ?_, fun h => ?_, fun h => ?_⟩ <;>
    obtain ⟨hv, hi, -, -⟩ := issuable_some h <;>
    refine gives (congrArg Host.Outcome.next (exec_of_issuable h)) ?_
  · exact control_issues _ hv hi
  · dsimp only
    generalize (if wX4 w = true then st.rc (bits w 107 104) else bits w 31 0) = n
    split
    · exact control_issues _ hv hi
    · exact control_issues _ hv hi
  · simp only [hl, Nat.sub_pos_iff_lt]
    split
    · exact control_issues _ hv hi
    · exact control_issues _ hv hi
  · dsimp only
    generalize (if wX4 w = true then st.setC (bits w 107 104) (st.rc (bits w 107 104) - 1) else st) = st'
    split
    · split
      · exact control_issues _ hv hi
      · exact control_issues _ hv hi
    · exact control_issues _ hv hi
  · exact control_issues _ hv hi

/-- Settles O2: the register's new value is `SETA`'s or `ADDA`'s own. -/
theorem registerInstructionsIssue : Obligations.RegisterInstructionsIssue := by
  unfold Obligations.RegisterInstructionsIssue
  intro s ctx i v st w
  refine ⟨fun h => ?_, fun h => ?_⟩ <;>
    obtain ⟨hv, hi, -, -⟩ := issuable_some h <;>
    exact gives (congrArg Host.Outcome.next (exec_of_issuable h)) (control_issues _ hv hi)

/-! ### Semaphores -/

theorem gs_control (s : State) (ctx i n g : Nat) (st st' : StreamSt) : (s.control ctx i st st' n).gs g = s.gs g := by simp

/-- A WAIT that is met takes its value from its semaphore and nothing else (R210). -/
theorem semTake_inv {s : State} {ctx i : Nat} {v : Inv} (x : WaitSt) (hv : (s.ctx ctx).inv = some v) (hi : i < v.streams.length) :
    ∃ v', ((s.semTake ctx i x).ctx ctx).inv = some v' ∧ i < v'.streams.length ∧
      (s.semTake ctx i x).stream ctx i = { s.stream ctx i with sems := ((s.semTake ctx i x).stream ctx i).sems } ∧
      (s.semTake ctx i x).semVal ((s.semTake ctx i x).stream ctx i) x = s.semVal (s.stream ctx i) x - (if x.sub then x.v else 0) := by
  unfold State.semTake
  split
  · next h =>
    have hsub : x.sub = false := by simpa using h
    exact ⟨v, hv, hi, rfl, by simp [hsub]⟩
  · next h =>
    have hsub : x.sub = true := by simpa using h
    rw [if_pos hsub]
    split
    · next hg => exact ⟨v, by simpa using hv, hi, by simp [State.stream], by simp [State.semVal, hg]⟩
    · next hg =>
      refine ⟨_, modInv_some _ _ _ hv, by simpa [length_setNth] using hi, ?_, ?_⟩
      · rw [stream_setStream _ _ _ _ _ hv hi, if_pos rfl]
      · rw [stream_setStream _ _ _ _ _ hv hi, if_pos rfl]
        simp [State.semVal, hg]

/-- What a WAIT that is met leaves of its stream, once its semaphore is taken (R210). -/
def State.waitOver (s : State) (ctx i cycles : Nat) : State :=
  (s.setStream ctx i { s.stream ctx i with waiting := none, idx := (s.stream ctx i).idx + 1 }).bump64 .cmp (s.stream ctx i).page 0x70 cycles

theorem stream_waitOver {s : State} {ctx i : Nat} {v : Inv} (cycles : Nat) (hv : (s.ctx ctx).inv = some v) (hi : i < v.streams.length) :
    (s.waitOver ctx i cycles).stream ctx i = { s.stream ctx i with waiting := none, idx := (s.stream ctx i).idx + 1 } := by
  have hbump : ∀ (u : State) p, (u.bump64 .cmp p 0x70 cycles).stream ctx i = u.stream ctx i := fun u p => by simp [State.stream]
  exact (hbump _ _).trans ((stream_setStream _ _ _ _ _ hv hi).trans (if_pos rfl))

theorem gs_waitOver (s : State) (ctx i cycles g : Nat) : (s.waitOver ctx i cycles).gs g = s.gs g := by simp [State.waitOver]

theorem waitOver_mem (s : State) (ctx i cycles : Nat) : SameMemory s (s.waitOver ctx i cycles) :=
  sameMemory_of (by simp [State.waitOver]) (by simp [State.waitOver])

/-- Settles O3: the WAIT that is met takes its value (`semTake_inv`), then goes on. -/
theorem semaphoreInstructions : Obligations.SemaphoreInstructions := by
  unfold Obligations.SemaphoreInstructions
  intro s ctx i v st w
  refine ⟨fun h hg hle => ?_, fun h hg hle => ?_, fun h hgt => ?_, fun x h hx => ?_, fun x cycles hv hi hw hstop htest hge => ?_, fun hv hstop hw hlim => ?_⟩
  · obtain ⟨hv, hi, -, -⟩ := issuable_some h
    refine gives (t := (s.setGs (wSem w) (s.gs (wSem w) + bits w 15 0)).control ctx i st st (st.idx + 1)) ?_ ?_
    · refine congrArg Host.Outcome.next ((exec_of_issuable h).trans ?_)
      rw [if_pos hg, if_neg (by omega)]
    · refine ⟨?_, fun g hne => ?_, issues_gs (control_issues _ (by simpa using hv) hi)⟩
      · simp
      · simp [hne]
  · obtain ⟨hv, hi, -, -⟩ := issuable_some h
    refine gives (t := s.control ctx i st { st with sems := FMap.put 0 st.sems (wSem w) (FMap.get 0 st.sems (wSem w) + bits w 15 0) } (st.idx + 1)) ?_ ?_
    · refine congrArg Host.Outcome.next ((exec_of_issuable h).trans ?_)
      rw [if_neg (by simp [hg])]
      exact if_neg (by omega)
    · have hiss := control_issues (st := st) (st' := { st with sems := FMap.put 0 st.sems (wSem w) (FMap.get 0 st.sems (wSem w) + bits w 15 0) }) (st.idx + 1) hv hi
      rw [hiss.stream]
      exact ⟨by simp, rfl, fun g => gs_control ..⟩
  · refine gives (t := s.stopAt ctx i .limit) ?_ ⟨stopAt_stops _ _ _ _, fun g => gs_stopAt _ _ _ _ _⟩
    refine congrArg Host.Outcome.next ((exec_of_issuable h).trans ?_)
    dsimp only
    split
    · next hg => exact if_pos (by simpa [hg] using hgt)
    · next hg => exact if_pos (by simpa [hg] using hgt)
  · obtain ⟨hv, hi, -, -⟩ := issuable_some h
    refine gives (t := s.control ctx i st { st with waiting := some x } st.idx) ?_ (control_issues _ hv hi)
    refine congrArg Host.Outcome.next ((exec_of_issuable h).trans ?_)
    rw [hx]
  · have hst : nth noStream v.streams i = s.stream ctx i := by unfold State.stream; rw [hv]
    obtain ⟨v', hv', hi', hstream, hval⟩ := semTake_inv x hv hi
    refine gives (t := (s.semTake ctx i x).waitOver ctx i cycles) ?_ ?_
    · refine congrArg Host.Outcome.next ?_
      rw [hv]
      simp only [hst, hw, hstop, htest, hge, Option.isNone_none, Bool.not_false, decide_true, Bool.and_self, if_true]
      rfl
    · rw [stream_waitOver cycles hv' hi']
      refine ⟨rfl, ?_, ?_, sameMemory_trans (sameMemory_of (by simp) (by simp)) (waitOver_mem _ _ _ _)⟩
      · rw [hstream]
      · rw [← hval]
        simp only [State.semVal, gs_waitOver]
  · have hst : nth noStream v.streams i = s.stream ctx i := by unfold State.stream; rw [hv]
    refine gives (t := s.stopAt ctx i .limit) ?_ (stopAt_stops _ _ _ _)
    refine congrArg Host.Outcome.next ?_
    rw [hv]
    dsimp only
    rw [hst, if_neg (by simpa using hlim), if_pos hw, hstop]
    rfl

end Sys2Proof.Machine
end

section
/-!
PROOFS. Issuing what an engine does: the instructions that are handed over (R213) and CHKPT, which its stream waits for (R258).
-/
open Sys2Proof Sys2Proof.Machine

namespace Sys2Proof.Machine

/-- An instruction whose form is checked as a whole is handed over or stops its invocation. -/
theorem accIssue_gives {c : Instr} {ctx i op : Nat} {s : State} {v : Inv} {st : StreamSt} {w : Nat} {f : IssueForm}
    (h : s.issuable ctx i op = some (v, st, w)) (hc : exec c s = .next (s.accIssue ctx i st f))
    (hctx : f.op.ctx = ctx) (hi : f.op.stream = i) (hw : f.op.word = w) :
    Gives c s (fun t => SameMemory s t ∧ match s.formBad f with | none => HandedOver ctx i st w t | some k => StopsWith ctx i k s t) := by
  obtain ⟨hv, hlt, -, -⟩ := issuable_some h
  subst hw
  exact gives hc (accIssue_spec hv hlt hctx hi)

theorem mvm_gives {c : Instr} {ctx i op : Nat} {s : State} {v : Inv} {st : StreamSt} {w : Nat} (h : s.issuable ctx i op = some (v, st, w))
    (hc : exec c s = .next (s.mvmIssue ctx i v st w)) :
    Gives c s (fun t => SameMemory s t ∧ match s.mvmBad ctx v st w with | none => HandedOver ctx i st w t | some k => StopsWith ctx i k s t) := by
  obtain ⟨hv, hlt, -, -⟩ := issuable_some h
  exact gives hc (mvm_spec hv hlt)

/-- Settles O4: MVM and MVMS through `mvm_spec`, REFREAD through `submit_handed`, the others through `accIssue_spec`. -/
theorem arrayAndAccumulatorInstructionsIssue : Obligations.ArrayAndAccumulatorInstructionsIssue := by
  unfold Obligations.ArrayAndAccumulatorInstructionsIssue
  refine ⟨fun s ctx i v st w => ⟨fun h => mvm_gives h (congrArg Host.Outcome.next (exec_of_issuable h)), fun h => mvm_gives h (congrArg Host.Outcome.next (exec_of_issuable h)), fun h => ?_⟩, fun s ctx i v st w c f h => ?_⟩
  · obtain ⟨hv, hlt, -, -⟩ := issuable_some h
    refine gives (congrArg Host.Outcome.next (exec_of_issuable h)) ?_
    dsimp only
    cases s.refreadBad ctx v st w with
    | some k => exact ⟨stopAt_mem _ _ _ _, stopAt_stops _ _ _ _⟩
    | none => exact (submit_handed hv hlt rfl rfl).symm
  · obtain ⟨op, hrow, h⟩ := h
    simp only [List.mem_cons, Prod.mk.injEq, List.not_mem_nil, or_false] at hrow
    obtain ⟨rfl, rfl, rfl⟩ | ⟨rfl, rfl, rfl⟩ | ⟨rfl, rfl, rfl⟩ | ⟨rfl, rfl, rfl⟩ | ⟨rfl, rfl, rfl⟩ | ⟨rfl, rfl, rfl⟩ := hrow
    · exact accIssue_gives h (congrArg Host.Outcome.next (exec_of_issuable h)) rfl rfl rfl
    · exact accIssue_gives h (congrArg Host.Outcome.next (exec_of_issuable h)) rfl rfl rfl
    · exact accIssue_gives h (congrArg Host.Outcome.next (exec_of_issuable h)) rfl rfl rfl
    · exact accIssue_gives h (congrArg Host.Outcome.next (exec_of_issuable h)) rfl rfl rfl
    · exact accIssue_gives h (congrArg Host.Outcome.next (exec_of_issuable h)) rfl rfl rfl
    · exact accIssue_gives h (congrArg Host.Outcome.next (exec_of_issuable h)) rfl rfl rfl

/-- Settles O5: all eleven through `accIssue_spec`. -/
theorem engineInstructionsIssue : Obligations.EngineInstructionsIssue := by
  unfold Obligations.EngineInstructionsIssue
  intro s ctx i v st w c f h
  obtain ⟨op, hrow, h⟩ := h
  simp only [List.mem_cons, Prod.mk.injEq, List.not_mem_nil, or_false] at hrow
  obtain ⟨rfl, rfl, rfl⟩ | ⟨rfl, rfl, rfl⟩ | ⟨rfl, rfl, rfl⟩ | ⟨rfl, rfl, rfl⟩ | ⟨rfl, rfl, rfl⟩ | ⟨rfl, rfl, rfl⟩ | ⟨rfl, rfl, rfl⟩ |
    ⟨rfl, rfl, rfl⟩ | ⟨rfl, rfl, rfl⟩ | ⟨rfl, rfl, rfl⟩ | ⟨rfl, rfl, rfl⟩ := hrow
  · exact accIssue_gives h (congrArg Host.Outcome.next (exec_of_issuable h)) rfl rfl rfl
  · exact accIssue_gives h (congrArg Host.Outcome.next (exec_of_issuable h)) rfl rfl rfl
  · exact accIssue_gives h (congrArg Host.Outcome.next (exec_of_issuable h)) rfl rfl rfl
  · exact accIssue_gives h (congrArg Host.Outcome.next (exec_of_issuable h)) rfl rfl rfl
  · exact accIssue_gives h (congrArg Host.Outcome.next (exec_of_issuable h)) rfl rfl rfl
  · exact accIssue_gives h (congrArg Host.Outcome.next (exec_of_issuable h)) rfl rfl rfl
  · exact accIssue_gives h (congrArg Host.Outcome.next (exec_of_issuable h)) rfl rfl rfl
  · exact accIssue_gives h (congrArg Host.Outcome.next (exec_of_issuable h)) rfl rfl rfl
  · exact accIssue_gives h (congrArg Host.Outcome.next (exec_of_issuable h)) rfl rfl rfl
  · exact accIssue_gives h (congrArg Host.Outcome.next (exec_of_issuable h)) rfl rfl rfl
  · exact accIssue_gives h (congrArg Host.Outcome.next (exec_of_issuable h)) rfl rfl rfl

/-! ### Checkpoints -/

/-- No instruction waits for a checkpoint's engine: CHKPT has none (R258). -/
theorem engineNext_chkpt (s : State) {o : Op} (ho : o.opc = 0x50) : s.engineNext o = s := by
  unfold State.engineNext
  split
  · rfl
  · next x hx =>
    have hp := List.find?_some hx
    simp only [ho, Bool.and_eq_true, beq_iff_eq, bne_iff_ne] at hp
    exact absurd hp.1.2 hp.2

theorem retire_chkpt (s : State) {o : Op} (ho : o.opc = 0x50) : s.retire o = (s.rise o).withOps (removeOp o.id (s.rise o).ops) :=
  engineNext_chkpt _ ho

/-- The stream of a retiring checkpoint keeps its place: only a semaphore of it can rise. -/
theorem stream_retire_chkpt {s : State} {o : Op} {v : Inv} (ho : o.opc = 0x50) (hv : (s.ctx o.ctx).inv = some v) (hi : o.stream < v.streams.length) :
    ((s.retire o).stream o.ctx o.stream).held = (s.stream o.ctx o.stream).held ∧
    ((s.retire o).stream o.ctx o.stream).idx = (s.stream o.ctx o.stream).idx := by
  rw [retire_chkpt s ho]
  exact (rise_keep s o).2.2.2 rfl v hv hi

theorem sameMemory_withOps_withNextOp (u : State) (l : List Op) (n : Nat) : SameMemory u ((u.withOps l).withNextOp n) := ⟨fun _ => rfl, fun _ => rfl⟩

theorem stream_withOps_withNextOp (u : State) (l : List Op) (n ctx i : Nat) : ((u.withOps l).withNextOp n).stream ctx i = u.stream ctx i := rfl

/-- What the end of a checkpoint leaves: its record, and its stream one instruction on (R258). -/
def State.chkptEnd (s : State) (o : Op) (record : List Byte) : State :=
  ((s.engWrite o.a1 record).setStream o.ctx o.stream
    { (s.engWrite o.a1 record).stream o.ctx o.stream with held := none, idx := ((s.engWrite o.a1 record).stream o.ctx o.stream).idx + 1 }).retire o

theorem stream_chkptEnd {s : State} {o : Op} {v : Inv} (record : List Byte) (ho : o.opc = 0x50) (hv : (s.ctx o.ctx).inv = some v)
    (hi : o.stream < v.streams.length) :
    ((s.chkptEnd o record).stream o.ctx o.stream).held = none ∧ ((s.chkptEnd o record).stream o.ctx o.stream).idx = (s.stream o.ctx o.stream).idx + 1 := by
  unfold State.chkptEnd
  have hu : ((s.engWrite o.a1 record).ctx o.ctx).inv = some v := by rw [State.engWrite_ctx_keep]; exact hv
  have hold : (s.engWrite o.a1 record).stream o.ctx o.stream = s.stream o.ctx o.stream := by
    unfold State.stream
    rw [State.engWrite_ctx_keep]
  generalize s.engWrite o.a1 record = u at hu hold ⊢
  have hst := (stream_setStream u o.ctx o.stream o.stream { u.stream o.ctx o.stream with held := none, idx := (u.stream o.ctx o.stream).idx + 1 } hu hi).trans (if_pos rfl)
  have hr := stream_retire_chkpt (s := u.setStream o.ctx o.stream { u.stream o.ctx o.stream with held := none, idx := (u.stream o.ctx o.stream).idx + 1 })
    ho (modInv_some _ _ _ hu) (by rw [length_setNth]; exact hi)
  rw [hr.1, hr.2, hst, hold]
  exact ⟨rfl, rfl⟩

/-- Settles O6: the record is an engine's write, and the checkpoint then retires without another operation proceeding. -/
theorem checkpointHoldsThenRecords : Obligations.CheckpointHoldsThenRecords := by
  unfold Obligations.CheckpointHoldsThenRecords
  intro s ctx i v st w
  refine ⟨fun h => ?_, fun o hv hi hstop ho hoc hoi hop honly ha => ?_⟩
  · obtain ⟨hv, hlt, -, -⟩ := issuable_some h
    refine gives (congrArg Host.Outcome.next (exec_of_issuable h)) ?_
    dsimp only
    cases s.chkptBad (effA st w 64) with
    | some k => exact ⟨stopAt_mem _ _ _ _, stopAt_stops _ _ _ _⟩
    | none =>
      have hst : (s.setStream ctx i { st with held := some s.nextOp }).stream ctx i = { st with held := some s.nextOp } :=
        (stream_setStream _ _ _ _ _ hv hlt).trans (if_pos rfl)
      have hissued : ((s.setStream ctx i { st with held := some s.nextOp }).issued st).stream ctx i = { st with held := some s.nextOp } :=
        Eq.trans (by unfold State.stream; rw [State.issued_ctx_keep]) hst
      have hmem : SameMemory s ((s.setStream ctx i { st with held := some s.nextOp }).issued st) :=
        ⟨fun a => by rw [State.issued_memByte_keep, State.setStream_memByte_keep], fun a => by rw [State.issued_lpByte_keep, State.setStream_lpByte_keep]⟩
      refine ⟨sameMemory_trans hmem (sameMemory_withOps_withNextOp _ _ _), ⟨{ mkOp ctx i st w 0 [] [] with clusters := [], stage := 0, a1 := effA st w 64, id := s.nextOp },
        by simp, rfl, rfl, rfl, Or.inr ⟨rfl, ?_⟩⟩, s.nextOp, ?_⟩
      · rw [stream_withOps_withNextOp]
        exact hissued
      · rw [stream_withOps_withNextOp]
        exact congrArg StreamSt.held hissued
  · subst hoc hoi
    have hfind : s.ops.find? (fun x => x.ctx == o.ctx && x.stream == o.stream && x.opc == 0x50) = some o := by
      cases hf : s.ops.find? (fun x => x.ctx == o.ctx && x.stream == o.stream && x.opc == 0x50) with
      | none => simpa [hop] using List.find?_eq_none.mp hf o ho
      | some x =>
        have hp := List.find?_some hf
        simp only [Bool.and_eq_true, beq_iff_eq] at hp
        rw [honly x (List.mem_of_find?_eq_some hf) hp.1.1 hp.1.2]
    have hnone : s.ops.any (fun x => x.ctx == o.ctx && x.stream == o.stream && x.id != o.id) = false := by
      rw [List.any_eq_false]
      intro x hx hp
      simp only [Bool.and_eq_true, beq_iff_eq, bne_iff_ne] at hp
      exact hp.2 (congrArg Op.id (honly x hx hp.1.1 hp.1.2))
    have hexec : exec (.chkptRecord o.ctx o.stream) s = .next (s.chkptEnd o (chkptBytes v o.stream (bits o.word 103 88))) := by
      refine congrArg Host.Outcome.next ?_
      rw [hv, hfind]
      dsimp only
      rw [hnone, hstop]
      rfl
    have hmem : SameMemory (s.engWrite o.a1 (chkptBytes v o.stream (bits o.word 103 88))) (s.chkptEnd o (chkptBytes v o.stream (bits o.word 103 88))) := by
      unfold State.chkptEnd
      exact sameMemory_retire o (sameMemory_of (State.setStream_mem _ _ _ _) (State.setStream_lpmem _ _ _ _))
    have hlen : (chkptBytes v o.stream (bits o.word 103 88)).length = 16 := by simp [chkptBytes, length_leBytes]
    have hgo := stream_chkptEnd (chkptBytes v o.stream (bits o.word 103 88)) hop hv hi
    refine gives hexec ⟨fun a => ?_, fun a => ?_, hgo.1, hgo.2, retire_left _ o⟩
    · rw [hmem.1, memByte_engWrite s _ a ha, hlen]
    · rw [hmem.2]
      unfold State.engWrite
      rw [if_neg (by omega)]
      rfl

end Sys2Proof.Machine
end

section
/-!
PROOFS. The arrays' own steps: VECTOR_START, REFREAD_DONE, and the releases at a tile and at a cluster's entry.
-/
open Sys2Proof Sys2Proof.Machine

namespace Sys2Proof.Machine

/-! ### Operations replaced in place -/

theorem mem_putOp {s : State} {o x : Op} (h : x.id ≠ o.id) : x ∈ (s.putOp o).ops ↔ x ∈ s.ops := by
  simp only [State.putOp, State.ops_withOps, List.mem_map]
  constructor
  · rintro ⟨y, hy, rfl⟩
    split at h
    · exact absurd rfl h
    · next hne => rwa [if_neg hne]
  · intro hx
    exact ⟨x, hx, if_neg h⟩

theorem self_mem_putOp {s : State} {o y : Op} (hy : y ∈ s.ops) (h : y.id = o.id) : o ∈ (s.putOp o).ops := by
  simp only [State.putOp, State.ops_withOps, List.mem_map]
  exact ⟨y, hy, if_pos h⟩

/-! ### Vectors -/

theorem arr_runVector (s : State) (c a : Nat) (o : Op) (k n : Nat) (dev : List Int) (j : Nat) (h : j ≠ akey c a) :
    (s.runVector c a o k n dev).arr j = s.arr j := by
  simp [State.runVector, h]

/-- What VECTOR_START leaves of its array: one result and one vector more. -/
theorem arr_runVector_same (s : State) (c a : Nat) (o : Op) (k n : Nat) (dev : List Int) :
    let r := s.arr (akey c a)
    let q := (s.runVector c a o k n dev).arr (akey c a)
    let x := vecOut r (rowInputs r.layer (s.vecBytes o r.layer n)) dev s.free
    q.res = r.res ++ [{ op := o.id, copy := k, pos := n, vals := x.vals, coarse := x.coarse, clip := x.clip, cks := x.cks }] ∧
      q.vec = satNat 64 (r.vec + 1) ∧ q.st = r.st ∧ q.weights = r.weights := by
  unfold State.runVector
  simp only [State.arr_withFree, State.putOp_arr_keep, State.arr_modPage, State.arr_setArr, if_true]
  split
  · exact ⟨rfl, rfl, rfl, rfl⟩
  · exact ⟨rfl, rfl, rfl, rfl⟩

/-- VECTOR_START's other effects are on the page header, the operation and the free values. -/
theorem runVector_frame (s : State) (c a : Nat) (o : Op) (k n : Nat) (dev : List Int) :
    (∀ j, (s.runVector c a o k n dev).tile j = s.tile j) ∧ SameMemory s (s.runVector c a o k n dev) ∧
      (∀ x ∈ s.ops, x.id ≠ o.id → x ∈ (s.runVector c a o k n dev).ops) ∧ SameRegs s (s.runVector c a o k n dev) (fun _ => False) := by
  unfold State.runVector
  refine ⟨fun j => by simp, sameMemory_of (by simp) (by simp), fun x hx hne => ?_, fun off _ => by simp⟩
  dsimp only
  rw [State.withFree_ops, mem_putOp]
  · exact hx
  · exact hne

/-- Settles O7: `runVector` sets its array alone, and replaces its operation in place. -/
theorem vectorStarts : Obligations.VectorStarts := by
  unfold Obligations.VectorStarts
  intro s c a dev o k r n hst hon hlock hres hdue hnext hop hbad
  refine gives (t := s.runVector c a o k n dev) ?_ ?_
  · refine congrArg Host.Outcome.next ?_
    rw [if_neg, hnext]
    · dsimp only
      rw [if_neg hop, hbad]
    · simp only [hon, hlock, Bool.not_true, Bool.false_eq_true, false_or, not_or, not_and, not_not]
      exact ⟨fun h3 => hst.resolve_left h3, Nat.not_le.mpr hres, fun h3 => by simpa using hdue h3⟩
  · obtain ⟨h1, h2, h3, h4⟩ := arr_runVector_same s c a o k n dev
    exact ⟨h1, h2, h3, h4, fun j hj => arr_runVector _ _ _ _ _ _ _ _ hj, runVector_frame _ _ _ _ _ _ _⟩

/-! ### Reference reads -/

theorem arr_setRefs (s : State) (k s0 s1 j : Nat) : (s.setRefs k s0 s1).arr j =
    if j = k then { s.arr k with ref0 := s0, ref1 := s1, refcnt := satNat 32 ((s.arr k).refcnt + 1) } else s.arr j := by
  simp [State.setRefs]

/-- REFREAD_DONE's state: the sums, their bytes where STORE is set, and the operation retired. -/
def State.refreadEnd (s : State) (o : Op) (k s0 s1 : Nat) : State :=
  (if wX4 o.word then (s.setRefs k s0 s1).engWrite o.a1 (leBytes 8 s0 ++ leBytes 8 s1) else s.setRefs k s0 s1).retire o

theorem refreadEnd_frame (s : State) (o : Op) (k s0 s1 : Nat) :
    (∀ j, (s.refreadEnd o k s0 s1).arr j = (s.setRefs k s0 s1).arr j) ∧ (∀ j, (s.refreadEnd o k s0 s1).tile j = s.tile j) ∧
      SameMemory (if wX4 o.word then s.engWrite o.a1 (leBytes 8 s0 ++ leBytes 8 s1) else s) (s.refreadEnd o k s0 s1) := by
  have hm : (s.setRefs k s0 s1).mem = s.mem := by simp [State.setRefs]
  have hl : (s.setRefs k s0 s1).lpmem = s.lpmem := by simp [State.setRefs]
  have ht : ∀ j, (s.setRefs k s0 s1).tile j = s.tile j := fun j => by simp [State.setRefs]
  unfold State.refreadEnd
  split
  · exact ⟨fun j => by simp, fun j => by simp [ht], sameMemory_retire o (sameMemory_engWrite _ _ hm hl)⟩
  · exact ⟨fun j => by simp, fun j => by simp [ht], sameMemory_retire o (sameMemory_of hm hl)⟩

/-! ### Releases -/

/-- What TILE_OP_RELEASE leaves of an operation. -/
theorem tileRelease_gives {s : State} {c tile : Nat} {o : Op} (h : s.ops.find? (fun x => x.acc.any (fun a => a.cl == c && a.tile == tile && a.wait)) = some o) :
    Gives (.tileOpRelease c tile) s (fun t =>
      { o with acc := o.acc.map (fun a =>
        if a.cl == c && a.tile == tile && a.wait && !s.accWaits (s.ops.takeWhile (fun x => x.id != o.id)) a then { a with wait := false } else a) } ∈ t.ops ∧
      (∀ x, x.id ≠ o.id → (x ∈ t.ops ↔ x ∈ s.ops)) ∧ SameMemory s t ∧ SameRegs s t (fun _ => False)) := by
  refine gives (t := s.putOp { o with acc := o.acc.map (fun a =>
    if a.cl == c && a.tile == tile && a.wait && !s.accWaits (s.ops.takeWhile (fun x => x.id != o.id)) a then { a with wait := false } else a) }) ?_ ?_
  · refine congrArg Host.Outcome.next ?_
    rw [h]
  · exact ⟨self_mem_putOp (List.mem_of_find?_eq_some h) rfl, fun x hx => mem_putOp hx, sameMemory_of (by simp) (by simp), fun off _ => by simp⟩

/-- An operation that waits at its entry and is accepted stands among the operations, and its stream goes on (R156, R213). -/
theorem accept_spec {s : State} {o : Op} {v : Inv} (hv : (s.ctx o.ctx).inv = some v) (hi : o.stream < v.streams.length)
    (hheld : (s.stream o.ctx o.stream).held = some o.id) :
    (∃ x ∈ (s.accept o).ops, x.id = o.id ∧ x.stage = 1 ∧ x.word = o.word) ∧
      (s.accept o).stream o.ctx o.stream = { s.stream o.ctx o.stream with idx := (s.stream o.ctx o.stream).idx + 1, held := none } ∧
      SameMemory s (s.accept o) := by
  have hm := State.arrive_mem (s.withOps (removeOp o.id s.ops)) o
  have hl := State.arrive_lpmem (s.withOps (removeOp o.id s.ops)) o
  obtain ⟨⟨o', hops, hid, hword, -, -, hstage⟩, hinv⟩ := arrive_spec (s.withOps (removeOp o.id s.ops)) o
  obtain ⟨v', hv', hstreams, -⟩ := hinv o.ctx v hv
  unfold State.accept
  dsimp only
  rw [if_pos (by simpa using hheld)]
  generalize State.arrive (s.withOps (removeOp o.id s.ops)) o = u at *
  refine ⟨⟨o', by simp [hops], hid, hstage, hword⟩, ?_, ?_⟩
  · unfold State.stream
    rw [State.issued_ctx_keep]
    exact (stream_setStream u _ _ _ _ hv' (by rw [hstreams]; exact hi)).trans (if_pos rfl)
  · refine sameMemory_of ?_ ?_
    · rw [State.issued_mem, State.setStream_mem, hm]
      rfl
    · rw [State.issued_lpmem, State.setStream_lpmem, hl]
      rfl

/-- Settles O9: the sums' write and the retirement touch no array, and a release replaces one operation. -/
theorem referenceReadsEndAndTilesRelease : Obligations.ReferenceReadsEndAndTilesRelease := by
  unfold Obligations.ReferenceReadsEndAndTilesRelease
  refine ⟨fun s c a s0 s1 o k hnext hop hst => ?_, fun s c o => ⟨fun tile h => tileRelease_gives h, fun held v h hv hstop hi hheld hacc => ?_⟩⟩
  · obtain ⟨harr, htile, hmem⟩ := refreadEnd_frame s o (akey c a) s0 s1
    refine gives (t := s.refreadEnd o (akey c a) s0 s1) ?_ ⟨?_, fun j hj => ?_, htile, retire_left _ o, hmem⟩
    · refine congrArg Host.Outcome.next ?_
      rw [hnext]
      exact if_neg (by rw [not_or]; exact ⟨not_not.mpr hop, by omega⟩)
    · rw [harr, arr_setRefs, if_pos rfl]
    · rw [harr, arr_setRefs, if_neg hj]
  · refine gives (t := (s.bump64 .cmp (s.stream o.ctx o.stream).page 0x68 held).accept o) ?_ ?_
    · refine congrArg Host.Outcome.next ?_
      rw [h]
      dsimp only
      rw [hv]
      exact (if_neg (by simp [hstop])).trans (if_pos hacc)
    · have hstream : ∀ p, (s.bump64 .cmp p 0x68 held).stream o.ctx o.stream = s.stream o.ctx o.stream := fun p => by simp [State.stream]
      obtain ⟨h1, h2, h3⟩ := accept_spec (s := s.bump64 .cmp (s.stream o.ctx o.stream).page 0x68 held) (v := v) (by simpa using hv) hi (by rw [hstream]; exact hheld)
      rw [hstream] at h2
      exact ⟨h1, h2, sameMemory_trans (sameMemory_of (by simp) (by simp)) h3⟩

end Sys2Proof.Machine
end

section
/-!
PROOFS. The output unit and the accumulator operations: DRAIN, ARGX, AZERO, ASAVE, ARESTORE and CMPR.
-/
open Sys2Proof Sys2Proof.Machine

namespace Sys2Proof.Machine

/-! ### Stalls and reads of a tile -/

/-- What counting a stall leaves as it was. -/
structure StallKeep (s u : State) : Prop where
  mem    : u.mem = s.mem
  lpmem  : u.lpmem = s.lpmem
  parBad : u.parBad = s.parBad
  lpBad  : u.lpBad = s.lpBad
  tile   : ∀ j, u.tile j = s.tile j
  clu    : ∀ j, u.clu j = s.clu j
  ctx    : ∀ j, u.ctx j = s.ctx j

theorem stallKeep_stallAt (s : State) (p : PType) (c k a n : Nat) : StallKeep s ((s.bump p c k n).stallAt a n) :=
  ⟨by simp, by simp, by simp, by simp, fun j => by simp, fun j => by simp, fun j => by simp⟩

/-- The state in which an output operation has read its tile and told its invocation what it saw. -/
def State.tileRead (s : State) (c : Nat) (o : Op) (n : Nat) : State :=
  (s.readTile c (nth 0 o.tiles 0) n).modCtx o.ctx (fun k => k.modInv (fun v => v.orFlags ((s.readTile c (nth 0 o.tiles 0) n).tile (tkey c (nth 0 o.tiles 0)))))

theorem tileRead_mem (s : State) (c : Nat) (o : Op) (n : Nat) : (s.tileRead c o n).mem = s.mem ∧ (s.tileRead c o n).lpmem = s.lpmem := by
  unfold State.tileRead
  exact ⟨by simp, by simp⟩

theorem tileRead_ent (s : State) (c : Nat) (o : Op) (n j : Nat) : ((s.tileRead c o n).tile j).ent = (s.tile j).ent := by
  unfold State.tileRead
  rw [State.modCtx_eq, State.tile_setCtx, readTile_ent]

theorem tileRead_clu (s : State) (c : Nat) (o : Op) (n j : Nat) : (s.tileRead c o n).clu j = s.clu j := by
  unfold State.tileRead
  simp

/-! ### DRAIN and ARGX -/

/-- An output that is written, counted and retired; counting touches neither memory nor tiles. -/
theorem written_spec {s r v : State} {a : Nat} {o : Op} {bs : List Byte} (hm : r.mem = s.mem) (hl : r.lpmem = s.lpmem)
    (ht : ∀ j, (r.tile j).ent = (s.tile j).ent) (hvm : v.mem = (r.engWrite a bs).mem) (hvl : v.lpmem = (r.engWrite a bs).lpmem)
    (hvt : ∀ j, v.tile j = r.tile j) :
    SameMemory (s.engWrite a bs) (v.retire o) ∧ Left o (v.retire o) ∧ ∀ j, ((v.retire o).tile j).ent = (s.tile j).ent :=
  ⟨sameMemory_retire o (sameMemory_trans (sameMemory_engWrite a bs hm hl) (sameMemory_of hvm hvl)), retire_left _ _,
    fun j => by rw [State.retire_tile_keep, hvt, ht]⟩

/-- DRAIN of a tile and an operand that read well. -/
theorem runDrain_ok {s : State} {c : Nat} {o : Op} (hpar : (s.tile (tkey c (nth 0 o.tiles 0))).badPar (bits o.word 84 77 + 1) = none)
    (hbad : decide (bits o.word 72 71 ≠ 0) = true → s.badIn o.a2 (opndBytes (bits o.word 70 69) (bits o.word 84 77 + 1)) = none) :
    let w := o.word
    let n := bits w 84 77 + 1
    let vals := drainVals (s.tile (tkey c (nth 0 o.tiles 0))) (s.profile c (bits w 76 73)).data
      (if decide (bits w 72 71 ≠ 0) then s.engRead o.a2 (opndBytes (bits w 70 69) n) else []) w o.rng
    let t := s.runDrain c o
    SameMemory (s.engWrite o.a1 (leBytes (outBytes (bits w 68 66) n) (packBits (outBits (bits w 68 66)) (vals.map (fun v => v.1))))) t ∧
      Left o t ∧ ∀ j, (t.tile j).ent = (s.tile j).ent := by
  intro w n vals t
  obtain ⟨hm, hl⟩ := tileRead_mem s c o n
  have hprof := profile_congr (tileRead_clu s c o n) c (bits w 76 73)
  have hread := engRead_congr hm hl o.a2 (opndBytes (bits w 70 69) n)
  have hfuse : (if decide (bits w 72 71 ≠ 0) = true then s.badIn o.a2 (opndBytes (bits w 70 69) n) else none) = none := by
    split
    · next h => exact hbad h
    · rfl
  have hrun : ∃ k1 k2, t = (((((s.tileRead c o n).engWrite o.a1 (leBytes (outBytes (bits w 68 66) n) (packBits (outBits (bits w 68 66))
      (vals.map (fun v => v.1))))).bump .out c 0x64 k1).bump .out c 0x68 k2).bump64 .out c 0x58 1).retire o := by
    unfold t State.runDrain
    dsimp only
    rw [hpar]
    dsimp only
    rw [hfuse]
    dsimp only
    refine ⟨vals.foldl (fun t v => t + v.2.1) 0, vals.foldl (fun t v => t + v.2.2) 0, ?_⟩
    unfold vals
    rw [← hprof, ← hread]
    rfl
  obtain ⟨k1, k2, hrun⟩ := hrun
  rw [hrun]
  exact written_spec hm hl (tileRead_ent s c o n) (by simp) (by simp) (fun j => by simp)

theorem runDrain_bad {s : State} {c e : Nat} {o : Op} (hpar : (s.tile (tkey c (nth 0 o.tiles 0))).badPar (bits o.word 84 77 + 1) = some e) :
    s.runDrain c o = (s.tileFault o.ctx (s.invNum o.ctx) c (nth 0 o.tiles 0) e).stopOp o .parity := by
  unfold State.runDrain
  dsimp only
  rw [hpar]

/-- Settles O10: the stall that is counted first changes neither tiles nor memory; `runDrain_ok` is the rest. -/
theorem drainWritesItsValues : Obligations.DrainWritesItsValues := by
  unfold Obligations.DrainWritesItsValues
  intro s c stall o hfind hop w n x nb fuse
  have hexec : exec (.drainRetire c stall) s = .next (((s.bump .out c 0x6C stall).stallAt o.a1 stall).runDrain c o) := by
    refine congrArg Host.Outcome.next ?_
    rw [hfind]
    exact if_pos hop
  have hk := stallKeep_stallAt s .out c 0x6C o.a1 stall
  generalize (s.bump .out c 0x6C stall).stallAt o.a1 stall = u at hexec hk
  refine ⟨fun hpar hbad => gives hexec ?_, fun e hpar => gives hexec ?_⟩
  · have hspec := runDrain_ok (s := u) (c := c) (o := o) (by rw [hk.tile]; exact hpar) (fun h => by rw [badIn_congr hk.parBad hk.lpBad]; exact hbad h)
    dsimp only at hspec
    rw [hk.tile, profile_congr hk.clu, engRead_congr hk.mem hk.lpmem] at hspec
    obtain ⟨hmem, hleft, hent⟩ := hspec
    exact ⟨sameMemory_trans (sameMemory_engWrite _ _ hk.mem hk.lpmem) hmem, hleft, fun j => by rw [hent, hk.tile]⟩
  · rw [runDrain_bad (by rw [hk.tile]; exact hpar)]
    refine ⟨stopOp_stops fun k => ?_, sameMemory_of ?_ ?_, fun j => ?_⟩
    · simp [hk.ctx]
    · simp [hk.mem]
    · simp [hk.lpmem]
    · simp [hk.tile]

/-- The record of R164 that an ARGX leaves: its winner, by value and then by index. -/
def argxRecord (w : Nat) (x : Tile) (p old : List Byte) : List Byte :=
  let n := bits w 84 77 + 1
  let best := bestOf (wX4 w) ((List.range n).map (fun i => (stages p 0 (x.read i).1 (ofInt 0), i)))
  let own := (best.1, (bits w 72 57 + best.2) % 65536)
  let old := (decode32 (fieldLe old 0 4), fieldLe old 4 2)
  let win := if wX5 w && beats (wX4 w) old own then old else own
  leBytes 4 (encode32 win.1) ++ leBytes 2 win.2 ++ leBytes 1 (b2n win.1.isNan + 2 * b2n (wX5 w)) ++ leBytes 1 0

theorem runArgx_ok {s : State} {c : Nat} {o : Op} (hpar : (s.tile (tkey c (nth 0 o.tiles 0))).badPar (bits o.word 84 77 + 1) = none)
    (hbad : wX5 o.word = true → s.badIn o.a1 8 = none) :
    s.runArgx c o = (((s.tileRead c o (bits o.word 84 77 + 1)).engWrite o.a1 (argxRecord o.word (s.tile (tkey c (nth 0 o.tiles 0)))
      (s.profile c (bits o.word 76 73)).data (s.engRead o.a1 8))).bump .out c 0x60 1).retire o := by
  obtain ⟨hm, hl⟩ := tileRead_mem s c o (bits o.word 84 77 + 1)
  have hmerge : (if wX5 o.word = true then s.badIn o.a1 8 else none) = none := by
    split
    · next h => exact hbad h
    · rfl
  rw [← profile_congr (tileRead_clu s c o (bits o.word 84 77 + 1)), ← engRead_congr hm hl]
  unfold State.runArgx
  dsimp only
  rw [hpar]
  dsimp only
  rw [hmerge]
  rfl

/-- Settles O11: as DRAIN, with the winner's record in place of the values. -/
theorem argxWritesItsWinner : Obligations.ArgxWritesItsWinner := by
  unfold Obligations.ArgxWritesItsWinner
  intro s c stall o hfind hop w n x hpar hbad
  have hexec : exec (.drainRetire c stall) s = .next (((s.bump .out c 0x6C stall).stallAt o.a1 stall).runArgx c o) := by
    refine congrArg Host.Outcome.next ?_
    rw [hfind]
    exact if_neg hop
  have hk := stallKeep_stallAt s .out c 0x6C o.a1 stall
  generalize (s.bump .out c 0x6C stall).stallAt o.a1 stall = u at hexec hk
  rw [runArgx_ok (by rw [hk.tile]; exact hpar) (fun h => by rw [badIn_congr hk.parBad hk.lpBad]; exact hbad h), hk.tile, profile_congr hk.clu,
    engRead_congr hk.mem hk.lpmem] at hexec
  obtain ⟨hm, hl⟩ := tileRead_mem u c o n
  exact gives hexec (written_spec (bs := argxRecord w x (s.profile c (bits w 76 73)).data (s.engRead o.a1 8)) (hm.trans hk.mem) (hl.trans hk.lpmem)
    (fun j => by rw [tileRead_ent, hk.tile]) (bump_keep State.mem (fun _ _ _ => rfl) _ _ _ _ _)
    (bump_keep State.lpmem (fun _ _ _ => rfl) _ _ _ _ _) (fun j => by rw [State.tile_bump, State.engWrite_tile_keep]))

/-! ### AZERO, ASAVE and ARESTORE -/

/-- The tiles that an AZERO clears. -/
def State.zeroTiles (s : State) (c : Nat) (o : Op) : State :=
  o.tiles.foldl (fun s t => (s.modTile (tkey c t) (fun x => { x with ent := [], coarse := false, clip := false, sat := false })).logOp o (uClu c) c t) s

/-- The state in which ARESTORE has read its image (R290: a read of the LPDDR5X counts). -/
def State.restoreRead (s : State) (o : Op) : State :=
  if o.a1 ≥ 2 ^ 63 then s.lpCountRead (o.a1 % 2 ^ 63) (68 + 1296 * o.tiles.length) else s

theorem restoreRead_frame (s : State) (o : Op) : (s.restoreRead o).mem = s.mem ∧ (s.restoreRead o).lpmem = s.lpmem ∧ (∀ j, (s.restoreRead o).tile j = s.tile j) ∧
    ∀ k, (s.restoreRead o).ctx k = s.ctx k := by
  unfold State.restoreRead State.lpCountRead
  split
  · exact ⟨by simp, by simp, fun j => by simp, fun k => by simp⟩
  · exact ⟨rfl, rfl, fun _ => rfl, fun _ => rfl⟩

theorem restoreBad_congr {s u : State} (h : ∀ k, u.ctx k = s.ctx k) (ctx n : Nat) (im : List Byte) : u.restoreBad ctx n im = s.restoreBad ctx n im := by
  unfold State.restoreBad
  rw [h]

/-- Settles O12: the tiles by `zero_keep` and `restore_keep`; the retirement touches neither tiles nor memory. -/
theorem tileOperationsRetire : Obligations.TileOperationsRetire := by
  unfold Obligations.TileOperationsRetire
  intro s c o hfind
  refine ⟨fun hop => ?_, fun hop hpar => ?_, fun hop hbad => ?_⟩
  · obtain ⟨hm, hl, hother, hzero⟩ := zero_keep o c o.tiles s
    refine gives (t := (s.zeroTiles c o).retire o) ?_ ⟨retire_left _ _, sameMemory_retire o (sameMemory_of hm hl), fun k hk => ?_, fun j hj => ?_⟩
    · refine congrArg Host.Outcome.next ?_
      rw [hfind]
      exact if_pos hop
    · exact (State.retire_tile_keep _ _ _).trans (hzero k hk)
    · exact (State.retire_tile_keep _ _ _).trans (hother j hj)
  · refine gives (t := (s.engWrite o.a1 (s.saveImage c o)).retire o) ?_ ⟨retire_left _ _, sameMemory_retire o (sameMemory_rfl _), fun j => ?_⟩
    · refine congrArg Host.Outcome.next ?_
      rw [hfind]
      dsimp only
      rw [if_neg (by rw [hop]; decide), if_pos hop, hpar]
    · rw [State.retire_tile_keep, State.engWrite_tile_keep]
  · intro im
    obtain ⟨hm, hl, ht, hc⟩ := restoreRead_frame s o
    have hexec : exec (.accOpRetire c) s = .next (match (s.restoreRead o).restoreBad o.ctx o.tiles.length im with
        | some e => (s.restoreRead o).stopOp o e
        | none => ((s.restoreRead o).restoreTiles o c im o.tiles 0).retire o) := by
      refine congrArg Host.Outcome.next ?_
      rw [hfind]
      dsimp only
      rw [if_neg (by rw [hop]; decide), if_neg (by rw [hop]; decide), hbad]
      rfl
    refine gives hexec ?_
    rw [restoreBad_congr hc]
    cases s.restoreBad o.ctx o.tiles.length im with
    | some e =>
      exact ⟨sameMemory_of ((State.stopOp_mem _ _ _).trans hm) ((State.stopOp_lpmem _ _ _).trans hl), stopOp_stops hc,
        fun j => (State.stopOp_tile_keep _ _ _ _).trans (ht j)⟩
    | none =>
      obtain ⟨km, kl, kother, kimage⟩ := restore_keep o c im o.tiles (s.restoreRead o) 0
      refine ⟨sameMemory_retire o (sameMemory_of (km.trans hm) (kl.trans hl)), retire_left _ _, fun hnd k x hx hk => ?_, fun j hj => ?_⟩
      · rw [State.retire_tile_keep, kimage hnd k x hx hk, ht, Nat.zero_add]
      · rw [State.retire_tile_keep, kother j hj, ht]

/-! ### CMPR -/

/-- The state in which CMPR has read both its tiles. -/
def State.pairRead (s : State) (c : Nat) (o : Op) : State :=
  (s.readTile c (nth 0 o.tiles 0) (bits o.word 65 58 + 1)).readTile (bits o.word 84 79) (nth 0 o.tiles 1) (bits o.word 65 58 + 1)

theorem pairRead_frame (s : State) (c : Nat) (o : Op) : (s.pairRead c o).mem = s.mem ∧ (s.pairRead c o).lpmem = s.lpmem ∧
    (∀ j, ((s.pairRead c o).tile j).ent = (s.tile j).ent) ∧ ∀ k, (s.pairRead c o).ctx k = s.ctx k := by
  unfold State.pairRead
  exact ⟨by simp, by simp, fun j => by rw [readTile_ent, readTile_ent], fun k => by simp⟩

/-- A comparison of `n` entries: the summary of R261, with the number of mismatches. -/
def cmprPairs (n w : Nat) (x y : Tile) : List (Nat × Bool) := (List.range n).map (fun i => cmprEntry x.fp (bits w 57 42) (x.e i) (y.e i))
def cmprBad (r : List (Nat × Bool)) : Nat := (r.filter (fun e => e.2)).length
def cmprSummary (r : List (Nat × Bool)) : List Byte :=
  leBytes 2 (cmprBad r) ++ leBytes 2 ((findIdx (fun e => e.2) r 0).getD 0xFFFF) ++ leBytes 4 (r.foldl (fun m e => max m e.1) 0)

/-- The tiles read, and the summary written where STORE is set. -/
def State.compared (s : State) (c : Nat) (o : Op) (summary : List Byte) : State :=
  if wX4 o.word then (s.pairRead c o).engWrite o.a1 summary else s.pairRead c o

theorem compared_frame (s : State) (c : Nat) (o : Op) (summary : List Byte) :
    SameMemory (if wX4 o.word then s.engWrite o.a1 summary else s) (s.compared c o summary) ∧
      (∀ j, ((s.compared c o summary).tile j).ent = (s.tile j).ent) ∧ ∀ k, (s.compared c o summary).ctx k = s.ctx k := by
  obtain ⟨hm, hl, ht, hc⟩ := pairRead_frame s c o
  unfold State.compared
  split
  · exact ⟨sameMemory_engWrite _ _ hm hl, fun j => by rw [State.engWrite_tile_keep, ht], fun k => by rw [State.engWrite_ctx_keep, hc]⟩
  · exact ⟨sameMemory_of hm hl, ht, hc⟩

/-- The report of a comparison that finds a mismatch. -/
def cmprReport (o : Op) (inv : Nat) (r : List (Nat × Bool)) : Report :=
  { kind := 0x11, ctx := o.ctx, invoc := inv, tile := nth 0 o.tiles 0, detail := min (r.foldl (fun m e => max m e.1) 0) 65535
    pos := (findIdx (fun e => e.2) r 0).getD 0xFFFF }

/-- How a CMPR ends: without a mismatch it retires; with one it reports it, and stops where STOP is set. -/
def State.cmprEnd (s : State) (o : Op) (rep : Report) (bad : Nat) : State :=
  if bad = 0 then s.retire o else if wX5 o.word then (s.report rep).stopOp o .digest else (s.report rep).retire o

theorem cmprEnd_spec {s u : State} (o : Op) (rep : Report) (bad : Nat) (hc : ∀ k, u.ctx k = s.ctx k) :
    SameMemory u (u.cmprEnd o rep bad) ∧ (∀ j, (u.cmprEnd o rep bad).tile j = u.tile j) ∧ Left o (u.cmprEnd o rep bad) ∧
      (bad ≠ 0 → wX5 o.word = true → StopsOp o .digest s (u.cmprEnd o rep bad)) := by
  unfold State.cmprEnd
  split
  · next h => exact ⟨sameMemory_retire o (sameMemory_rfl u), fun j => State.retire_tile_keep _ _ _, retire_left _ _, fun hne => absurd h hne⟩
  · split
    · exact ⟨sameMemory_of (by simp) (by simp), fun j => by simp, stopOp_left _ _ _, fun _ _ => stopOp_stops hc⟩
    · next h => exact ⟨sameMemory_of (by simp) (by simp), fun j => by simp, retire_left _ _, fun _ h5 => absurd h5 h⟩

/-- Settles O13: the reads change no entry, the summary is the one write, and a mismatch is reported before the stop. -/
theorem compareDecides : Obligations.CompareDecides := by
  unfold Obligations.CompareDecides
  intro s c o hfind w n x y hx hy
  obtain ⟨hmem, hent, hctx⟩ := compared_frame s c o (cmprSummary (cmprPairs n w x y))
  have hexec : exec (.cmprDone c) s = .next ((s.compared c o (cmprSummary (cmprPairs n w x y))).cmprEnd o
      (cmprReport o (s.invNum o.ctx) (cmprPairs n w x y)) (cmprBad (cmprPairs n w x y))) := by
    refine congrArg Host.Outcome.next ?_
    rw [hfind]
    dsimp only
    rw [hx, hy]
    rfl
  obtain ⟨kmem, ktile, kleft, kstop⟩ := cmprEnd_spec o (cmprReport o (s.invNum o.ctx) (cmprPairs n w x y)) (cmprBad (cmprPairs n w x y)) hctx
  exact gives hexec ⟨sameMemory_trans hmem kmem, fun j => by rw [ktile, hent], kleft, kstop⟩

end Sys2Proof.Machine
end

section
/-!
PROOFS. The engines' ends: proof-engine operations, MOVE, and the fixed engines' GATHER, PACK and RANK.
-/
open Sys2Proof Sys2Proof.Machine

namespace Sys2Proof.Machine

/-! ### The proof engine -/

/-- A proof-engine operation that writes its tiles after writing `writes` to memory. -/
theorem proofFinish_spec {s u x : State} {c : Nat} {o : Op} {vals : List (List (Option FVal))} (work : Nat)
    (ht : ∀ j, x.tile j = u.tile j) (hc : ∀ k, (x.ctx k).inv = (s.ctx k).inv) {m : State} (hm : SameMemory m x) :
    SameMemory m (x.proofFinish c o vals work) ∧
      match (u.proofTiles c o 0 vals).2 with
      | none => Left o (x.proofFinish c o vals work) ∧ ∀ j, (x.proofFinish c o vals work).tile j = (u.proofTiles c o 0 vals).1.tile j
      | some _ => StopsOp o .parity s (x.proofFinish c o vals work) := by
  obtain ⟨hmem, hends⟩ := finish_spec (s := s) (c := c) (o := o) (vals := vals) work ht hc
  exact ⟨sameMemory_trans hm hmem, hends⟩

/-- Writes of an engine touch neither tiles nor contexts. -/
theorem foldWrite_frame (l : List (Nat × List Byte)) (s : State) :
    (∀ j, (l.foldl (fun s p => s.engWrite p.1 p.2) s).tile j = s.tile j) ∧ ∀ k, (l.foldl (fun s p => s.engWrite p.1 p.2) s).ctx k = s.ctx k :=
  ⟨fun j => foldl_keep (fun s => State.tile s j) _ (fun _ _ => State.engWrite_tile_keep _ _ _ _) _ _,
   fun k => foldl_keep (fun s => State.ctx s k) _ (fun _ _ => State.engWrite_ctx_keep _ _ _ _) _ _⟩

/-- What PROOF_OP_RETIRE runs, once its operation is free and its stall is counted. -/
def State.proofRun (s : State) (c : Nat) (o : Op) (residueOk : Bool) : State :=
  if !residueOk then (s.report { kind := 1, ctx := o.ctx, invoc := s.invNum o.ctx, tile := nth 0 o.tiles 0, unit := uClu c }).stopOp o .parity
  else if o.spilled then s.runSpilled c o
  else if o.opc = 0x20 then s.runPmm c o
  else if o.opc = 0x21 then s.runPmmc c o
  else s.runPout c o

theorem proofOpRetire_exec {s : State} {c : Nat} (stall : Nat) (ok : Bool) {o : Op}
    (hfind : s.ops.find? (fun o => o.clusters == [c] && o.isProof && decide (o.stage ≥ 1)) = some o) (hfree : o.free = true)
    (hready : o.spilled = true → o.chainIx = none) :
    exec (.proofOpRetire c stall ok) s = .next (((s.bump .prf c 0x6C stall).stallAt o.a1 stall).proofRun c o ok) := by
  refine congrArg Host.Outcome.next ?_
  rw [hfind]
  refine if_neg ?_
  cases hs : o.spilled with
  | false => simp [hfree]
  | true => simp [hfree, hready hs]

section
variable {s : State} {c : Nat} {o : Op}

theorem proofRun_residue : ∃ rep, s.proofRun c o false = (s.report rep).stopOp o .parity := ⟨_, rfl⟩

theorem proofRun_pmm (hs : o.spilled = false) (hop : o.opc = 0x20) (hrow : s.pmmBadRow o = none) (hin : s.pmmBadIn o = none) :
    ∃ work, s.proofRun c o true = s.proofFinish c o (s.pmmVals o) work := by
  have hrun : s.proofRun c o true = s.runPmm c o := by
    unfold State.proofRun
    rw [hs]
    exact if_pos hop
  rw [hrun]
  unfold State.runPmm
  rw [hrow, hin]
  exact ⟨_, rfl⟩

theorem proofRun_pmmc (hs : o.spilled = false) (hop : o.opc = 0x21) (hin : s.pmmcBadIn o = none) :
    ∃ work, s.proofRun c o true = s.proofFinish c o (s.pmmcVals o) work := by
  have hrun : s.proofRun c o true = s.runPmmc c o := by
    unfold State.proofRun
    rw [hs, hop]
    rfl
  rw [hrun]
  unfold State.runPmmc
  rw [hin]
  exact ⟨_, rfl⟩

theorem proofRun_spilled (hs : o.spilled = true) : s.proofRun c o true = s.runSpilled c o := by
  unfold State.proofRun
  exact (if_neg (by decide)).trans (if_pos hs)

theorem proofRun_pout (hs : o.spilled = false) (hop : o.opc = 0x22) : s.proofRun c o true = s.runPout c o := by
  unfold State.proofRun
  rw [hs, hop]
  rfl

theorem runPout_ok {d : List Byte} {shift : Nat} {p : PoutWork} (hd : s.poutDesc o = d) (hshift : s.poutShift c o = shift) (hp : s.poutWork o shift d = p)
    (hbad : s.poutBad c o shift d = none) (hpar : s.badIn o.a1 (64 + 2 * min 512 (fieldLe d 2 2)) = none) (hblk : s.blockedAny p.ext = none) (hin : p.bad = none) :
    s.runPout c o = ((p.writes.foldl (fun s q => s.engWrite q.1 q.2) s).bump .prf c 0x4C p.lost).proofFinish c o p.vals p.work := by
  unfold State.runPout
  dsimp only
  rw [hd, hshift, hbad]
  dsimp only
  rw [hpar]
  dsimp only
  rw [hp, hblk]
  dsimp only
  rw [hin]

theorem runPout_refused {e : Code} (hbad : s.poutBad c o (s.poutShift c o) (s.poutDesc o) = some e) : s.runPout c o = s.stopOp o e := by
  unfold State.runPout
  dsimp only
  rw [hbad]

end

/-- Settles O14: the stall changes neither tiles, memory nor invocations; each operation then ends through `finish_spec`. -/
theorem proofEngineRetires : Obligations.ProofEngineRetires := by
  unfold Obligations.ProofEngineRetires
  intro s c stall o hfind hfree u writes
  have hk : StallKeep s u := stallKeep_stallAt s .prf c 0x6C o.a1 stall
  have hmem : SameMemory s u := sameMemory_of hk.mem hk.lpmem
  have hinv : ∀ k, (u.ctx k).inv = (s.ctx k).inv := fun k => by rw [hk.ctx]
  have hexec : ∀ ok, (o.spilled = true → o.chainIx = none) → exec (.proofOpRetire c stall ok) s = .next (u.proofRun c o ok) :=
    fun ok hready => proofOpRetire_exec stall ok hfind hfree hready
  have hplain : o.spilled = false → o.spilled = true → o.chainIx = none := fun h h' => absurd (h.symm.trans h') Bool.false_ne_true
  clear_value u
  refine ⟨fun hs => gives (hexec false (hplain hs)) ?_, fun hs hop hrow hin => gives (hexec true (hplain hs)) ?_, fun hs hop hin => gives (hexec true (hplain hs)) ?_,
    fun hs hop hbad hpar hblk hin => gives (hexec true (hplain hs)) ?_, fun e hs hop hbad => gives (hexec true (hplain hs)) ?_,
    fun hs hch hblk hpar hin => gives (hexec true (fun _ => hch)) ?_⟩
  · obtain ⟨rep, hrun⟩ := proofRun_residue (s := u) (c := c) (o := o)
    rw [hrun]
    exact ⟨stopOp_stops (fun k => hk.ctx k), sameMemory_trans hmem (sameMemory_of (by simp) (by simp)), fun j => by simp [hk.tile]⟩
  · obtain ⟨work, hrun⟩ := proofRun_pmm (c := c) hs hop hrow hin
    rw [hrun]
    exact proofFinish_spec work (fun _ => rfl) hinv hmem
  · obtain ⟨work, hrun⟩ := proofRun_pmmc (c := c) hs hop hin
    rw [hrun]
    exact proofFinish_spec work (fun _ => rfl) hinv hmem
  · rw [proofRun_pout hs hop, runPout_ok rfl rfl rfl hbad hpar hblk hin]
    obtain ⟨htile, hctx⟩ := foldWrite_frame (u.poutWork o (u.poutShift c o) (u.poutDesc o)).writes u
    refine proofFinish_spec _ (fun j => ?_) (fun k => ?_) (sameMemory_of ?_ ?_)
    · rw [State.tile_bump]
      exact htile j
    · rw [State.ctx_bump, hctx]
      exact hinv k
    · exact bump_keep State.mem (fun _ _ _ => rfl) _ _ _ _ _
    · exact bump_keep State.lpmem (fun _ _ _ => rfl) _ _ _ _ _
  · rw [proofRun_pout hs hop, runPout_refused hbad]
    exact ⟨stopOp_stops hk.ctx, sameMemory_trans hmem (sameMemory_of (by simp) (by simp)), fun j => by simp [hk.tile]⟩
  · rw [proofRun_spilled hs, spilled_eq rfl hblk hpar hin hch]
    refine proofFinish_spec _ (fun j => State.tile_bump64 _ _ _ _ _ _) (fun k => ?_) (sameMemory_trans hmem (sameMemory_of ?_ ?_))
    · rw [State.ctx_bump64]
      exact hinv k
    · exact bump64_keep State.mem (fun _ _ _ => rfl) (fun _ _ _ => rfl) _ _ _ _ _
    · exact bump64_keep State.lpmem (fun _ _ _ => rfl) (fun _ _ _ => rfl) _ _ _ _ _

/-! ### The mover -/

/-- Rows written from equal memory leave equal memory. -/
theorem foldRows_congr {s u : State} {f g : Nat → List Byte} (a : Nat → Nat) (rows : Nat) (h : ∀ r, r < rows → g r = f r) (hm : u.mem = s.mem) (hl : u.lpmem = s.lpmem) :
    SameMemory ((List.range rows).foldl (fun s r => s.engWrite (a r) (f r)) s) ((List.range rows).foldl (fun s r => s.engWrite (a r) (g r)) u) := by
  have hpairs : ∀ (f : Nat → List Byte) (v : State), (List.range rows).foldl (fun s r => s.engWrite (a r) (f r)) v =
      ((List.range rows).map (fun r => (a r, f r))).foldl (fun s p => s.engWrite p.1 p.2) v := fun f v => by rw [List.foldl_map]
  have hlist : (List.range rows).map (fun r => (a r, g r)) = (List.range rows).map (fun r => (a r, f r)) :=
    List.map_congr_left fun r hr => by rw [h r (List.mem_range.mp hr)]
  rw [hpairs f s, hpairs g u, hlist]
  obtain ⟨k1, k2⟩ := foldWrite_congr ((List.range rows).map (fun r => (a r, f r))) s u hm hl
  exact sameMemory_of k1 k2

/-- The state in which a MOVE has read its rows: reads of the LPDDR5X count. -/
def State.rowsRead (s : State) (counts : Bool) (a : Nat → Nat) (rows len : Nat) : State :=
  if counts then (List.range rows).foldl (fun s r => s.lpCountRead (a r % 2 ^ 63) len) s else s

theorem rowsRead_frame (s : State) (counts : Bool) (a : Nat → Nat) (rows len : Nat) :
    (s.rowsRead counts a rows len).mem = s.mem ∧ (s.rowsRead counts a rows len).lpmem = s.lpmem ∧ ∀ j, (s.rowsRead counts a rows len).tile j = s.tile j := by
  unfold State.rowsRead
  split
  · exact ⟨foldl_keep State.mem _ (fun b r => by simp [State.lpCountRead]) _ _, foldl_keep State.lpmem _ (fun b r => by simp [State.lpCountRead]) _ _,
      fun j => foldl_keep (fun s => State.tile s j) _ (fun b r => by simp [State.lpCountRead]) _ _⟩
  · exact ⟨rfl, rfl, fun _ => rfl⟩

/-- Settles O15: reads from the LPDDR5X only count, so each row is the source's as it stood. -/
theorem moveCopiesItsRows : Obligations.MoveCopiesItsRows := by
  unfold Obligations.MoveCopiesItsRows
  intro s c o hfind d zero len rows src dst
  refine ⟨fun e hbad => gives (t := s.stopOp o e) ?_ ⟨stopOp_stops fun _ => rfl, sameMemory_of (by simp) (by simp)⟩, fun hbad hpar hblk hread => ?_⟩
  · refine congrArg Host.Outcome.next ?_
    rw [hfind]
    dsimp only
    rw [hbad]
  · let row : Nat → List Byte := fun r => if zero then List.replicate len 0#8 else s.engRead (src + r * fieldLe d 24 4) len
    let counts := !zero && decide (src ≥ 2 ^ 63)
    have hfault : (if zero then none else (List.range rows).findSome? (fun r => s.badIn (src + r * fieldLe d 24 4) len)) = none := by
      cases hz : zero with
      | true => rfl
      | false => exact hread hz
    have hexec : exec (.moveRetire c) s = .next (((List.range rows).foldl (fun u r => u.engWrite (dst + r * fieldLe d 28 4)
        (nth [] ((List.range rows).map row) r)) (s.rowsRead counts (fun r => src + r * fieldLe d 24 4) rows len)).retire o) := by
      refine congrArg Host.Outcome.next ?_
      rw [hfind]
      dsimp only
      rw [hbad]
      dsimp only
      rw [hpar]
      dsimp only
      rw [hblk]
      dsimp only
      rw [hfault]
      rfl
    obtain ⟨hm, hl, ht⟩ := rowsRead_frame s counts (fun r => src + r * fieldLe d 24 4) rows len
    refine gives hexec ⟨retire_left _ _, fun j => ?_, sameMemory_retire o (foldRows_congr _ rows (fun r hr => nth_map_range _ _ _ _ hr) hm hl)⟩
    rw [State.retire_tile_keep, ← ht]
    exact foldl_keep (fun s => State.tile s j) _ (fun _ _ => State.engWrite_tile_keep _ _ _ _) _ _

/-! ### The fixed engines -/

theorem engDone_spec {m s : State} (e : Nat) (o : Op) (items : Nat) (h : SameMemory m s) :
    Left o (s.engDone e o items) ∧ SameMemory m (s.engDone e o items) := by
  unfold State.engDone
  exact ⟨retire_left _ _, sameMemory_retire o (sameMemory_trans h (sameMemory_of (by simp) (by simp)))⟩

theorem engRefuse_mem (s : State) (e : Nat) (o : Op) (c : Code) : SameMemory s (s.engRefuse e o c) := by
  unfold State.engRefuse
  exact sameMemory_of (by simp) (by simp)

/-- What ENGINE_OP_RETIRE runs, once its descriptor has passed its checks. -/
def State.engineRun (s : State) (e : Nat) (o : Op) (d : List Byte) : State :=
  if e = 0 then s.runGather o d else if e = 1 then s.runPack o d else s.runRank o d

theorem engineOpRetire_refused {s : State} {e : Nat} (stall : Nat) {o : Op} {c : Code}
    (hfind : s.ops.find? (fun o => o.engine == some e && decide (o.stage ≥ 1)) = some o)
    (hbad : ((s.bump .eng e 0x60 stall).bump .gal 0 0x70 stall).engineBad e o (((s.bump .eng e 0x60 stall).bump .gal 0 0x70 stall).engRead o.a1 64) = some c) :
    exec (.engineOpRetire e stall) s = .next (((s.bump .eng e 0x60 stall).bump .gal 0 0x70 stall).engRefuse e o c) := by
  refine congrArg Host.Outcome.next ?_
  rw [hfind]
  dsimp only
  rw [hbad]

theorem engineOpRetire_exec {s u : State} {e stall : Nat} {o : Op} (hfind : s.ops.find? (fun o => o.engine == some e && decide (o.stage ≥ 1)) = some o)
    (hu : (s.bump .eng e 0x60 stall).bump .gal 0 0x70 stall = u)
    (hbad : u.engineBad e o (u.engRead o.a1 64) = none) (hpar : u.badIn o.a1 64 = none) (hblk : u.blockedAny (engineExt e o (u.engRead o.a1 64)) = none) :
    exec (.engineOpRetire e stall) s = .next (u.engineRun e o (u.engRead o.a1 64)) := by
  refine congrArg Host.Outcome.next ?_
  rw [hfind]
  dsimp only
  rw [hu, hbad]
  dsimp only
  rw [hpar]
  dsimp only
  rw [hblk]
  rfl

theorem runGather_ok {s : State} {o : Op} {d : List Byte} (h : s.gatherBadIn o d = none) :
    Left o (s.runGather o d) ∧ SameMemory ((s.gatherWrites o d).foldl (fun s p => s.engWrite p.1 p.2) s) (s.runGather o d) := by
  unfold State.runGather
  dsimp only
  rw [h]
  dsimp only
  generalize (s.gatherWrites o d).foldl (fun s p => s.engWrite p.1 p.2) s = u
  exact engDone_spec 0 o _ (sameMemory_of (by simp) (by simp))

theorem runPack_ok {s : State} {o : Op} {d : List Byte} (h : s.badIn (descAddr d 0 o.a2) (fieldLe d 16 4 * (fieldLe d 22 1 + 1)) = none) :
    Left o (s.runPack o d) ∧ SameMemory (s.engWrite (descAddr d 8 o.a3) (s.packBytes o d)) (s.runPack o d) := by
  unfold State.runPack
  dsimp only
  rw [h]
  dsimp only
  generalize s.engWrite (descAddr d 8 o.a3) (s.packBytes o d) = u
  refine engDone_spec 1 o _ ?_
  split
  · exact sameMemory_of (by simp) (by simp)
  · exact sameMemory_of (by simp [State.addEgress]) (by simp [State.addEgress])

theorem runRank_ok {s : State} {o : Op} {d : List Byte} (h : s.rankBadIn o d = none) :
    Left o (s.runRank o d) ∧ SameMemory (s.engWrite (descAddr d 8 o.a3) (s.rankRecords o d)) (s.runRank o d) := by
  unfold State.runRank
  rw [h]
  exact engDone_spec 2 o _ (sameMemory_rfl _)

/-- Settles O16: each engine stores what it computes before its counters and its retirement. -/
theorem fixedEnginesRetire : Obligations.FixedEnginesRetire := by
  unfold Obligations.FixedEnginesRetire
  intro s e stall o hfind u d
  have hctx : ∀ k, u.ctx k = s.ctx k := fun k => by simp [u]
  refine ⟨fun c hbad => gives (engineOpRetire_refused stall hfind hbad) ⟨engRefuse_stops hctx, sameMemory_trans (sameMemory_of ?_ ?_) (engRefuse_mem u e o c)⟩,
    fun hbad hpar hblk => ?_⟩
  · simp [u]
  · simp [u]
  · have hexec := engineOpRetire_exec hfind (u := u) rfl hbad hpar hblk
    clear_value u
    refine ⟨fun he hin => ?_, fun he hin => ?_, fun he hin => ?_⟩ <;> subst he
    · exact gives hexec (runGather_ok hin)
    · exact gives hexec (runPack_ok hin)
    · exact gives hexec (runRank_ok hin)

end Sys2Proof.Machine
end

section
/-!
PROOFS. The ends of DIGEST, TESTVEC, XSEND and XRECV.
-/
open Sys2Proof Sys2Proof.Machine

namespace Sys2Proof.Machine

/-! ### DIGEST -/

/-- The state in which a DIGEST has written its hash. -/
def State.digested (s : State) (o : Op) (h : List Byte) : State := (s.engWrite o.a2 h).bump .cfg 0 0x80 1

theorem digested_mem (s : State) (o : Op) (h : List Byte) :
    (s.digested o h).mem = (s.engWrite o.a2 h).mem ∧ (s.digested o h).lpmem = (s.engWrite o.a2 h).lpmem ∧
      (s.digested o h).parBad = (s.engWrite o.a2 h).parBad ∧ (s.digested o h).lpBad = (s.engWrite o.a2 h).lpBad :=
  ⟨bump_keep State.mem (fun _ _ _ => rfl) _ _ _ _ _, bump_keep State.lpmem (fun _ _ _ => rfl) _ _ _ _ _,
    bump_keep State.parBad (fun _ _ _ => rfl) _ _ _ _ _, bump_keep State.lpBad (fun _ _ _ => rfl) _ _ _ _ _⟩

theorem digested_ctx (s : State) (o : Op) (h : List Byte) (k : Nat) : (s.digested o h).ctx k = s.ctx k := by simp [State.digested]

/-- The end of a DIGEST whose extent reads well, without a comparison and with one whose reference reads well. -/
theorem digestDone_exec {s : State} {o : Op} (hfind : s.ops.find? (fun o => o.opc == 0x51 && decide (o.stage ≥ 1)) = some o)
    {h : List Byte} (hh : sha384 (s.engRead o.a1 (64 * (bits o.word 103 86 + 1))) = h)
    (hread : s.badIn o.a1 (64 * (bits o.word 103 86 + 1)) = none) :
    (wX4 o.word = false → exec .digestDone s = .next ((s.digested o h).retire o)) ∧
    (wX4 o.word = true → (s.digested o h).badIn o.a3 48 = none → ∃ rep, exec .digestDone s = .next (
      if (s.digested o h).engRead o.a3 48 = h then (s.digested o h).retire o else ((s.digested o h).report rep).stopOp o .digest)) := by
  have hrun : exec .digestDone s = .next (
      if !wX4 o.word then (s.digested o h).retire o
      else match (s.digested o h).badIn o.a3 48 with
        | some b => ((s.digested o h).readFault false b o.ctx (s.invNum o.ctx)).stopOp o .parity
        | none =>
          if (s.digested o h).engRead o.a3 48 = h then (s.digested o h).retire o
          else ((s.digested o h).report { kind := 0x12, ctx := o.ctx, invoc := s.invNum o.ctx, detail := min (64 * (bits o.word 103 86 + 1) / 64) 65535, pos := o.a1 }).stopOp o .digest) := by
    refine congrArg Host.Outcome.next ?_
    rw [hfind]
    dsimp only
    rw [hread]
    dsimp only
    rw [hh]
    rfl
  refine ⟨fun hx => ?_, fun hx hbad => ?_⟩
  · rw [hrun, hx]
    rfl
  · rw [hrun, hx, hbad]
    exact ⟨_, rfl⟩

/-! ### XSEND and XRECV -/

/-- An XSEND whose tile reads well: its message joins the upstream port's queue (R263, R383). -/
def State.xsent (s : State) (o : Op) (x : Tile) (message : List Byte) : State :=
  ((s.modCtx o.ctx (fun k => k.modInv (fun v => v.orFlags x))).withChain { s.chain with xtx := s.chain.xtx ++ [message] }).retire o

theorem xsent_spec (s : State) (o : Op) (x : Tile) (message : List Byte) :
    (s.xsent o x message).chain = { s.chain with xtx := s.chain.xtx ++ [message] } ∧ Left o (s.xsent o x message) ∧
      SameMemory s (s.xsent o x message) ∧ ∀ j, (s.xsent o x message).tile j = s.tile j := by
  unfold State.xsent
  exact ⟨State.retire_chain _ _, retire_left _ _, sameMemory_retire o (sameMemory_of rfl rfl), fun j => State.retire_tile_keep _ _ _⟩

/-- The message taken from the receive buffer, and what its checks leave of the XRECV (R264, R384, R385). -/
def State.xreceived (s : State) (c : Nat) (o : Op) (m : List Byte) (rest : List (List Byte)) : State :=
  let n := bits o.word 84 77 + 1
  let t := nth 0 o.tiles 0
  let u := s.withChain { s.chain with xrx := rest }
  match s.collBad n m with
  | some e => ((u.bump .dsy 1 0x60 1).report { kind := 0x13, ctx := o.ctx, invoc := s.invNum o.ctx, tile := t }).stopOp o e
  | none =>
    match u.writeTile o c t (wAdd o.word) ((List.range n).map (fun i => some (decode32 (fieldLe m (16 + 4 * i) 4)))) o.rng (bit (fieldLe m 2 1) 0) (bit (fieldLe m 2 1) 1) with
    | none => (u.tileFault o.ctx (s.invNum o.ctx) c t (((u.tile (tkey c t)).badPar 256).getD 0)).stopOp o .parity
    | some v => (v.modTile (tkey c t) (fun x => { x with sat := x.sat || bit (fieldLe m 2 1) 2 })).retire o

/-- What every outcome of a taken message leaves as it was. -/
theorem xreceived_frame (s : State) (c : Nat) (o : Op) (m : List Byte) (rest : List (List Byte)) :
    (s.xreceived c o m rest).chain = { s.chain with xrx := rest } ∧ Left o (s.xreceived c o m rest) ∧ SameMemory s (s.xreceived c o m rest) ∧
      ∀ j, j ≠ tkey c (nth 0 o.tiles 0) → (s.xreceived c o m rest).tile j = s.tile j := by
  unfold State.xreceived
  dsimp only
  split
  · exact ⟨by simp, stopOp_left _ _ _, sameMemory_of (by simp) (by simp), fun j _ => by simp⟩
  · split
    · exact ⟨by simp, stopOp_left _ _ _, sameMemory_of (by simp) (by simp), fun j _ => by simp⟩
    · next v hv =>
      have hk := writeTile_tileKeep hv
      refine ⟨?_, retire_left _ _, sameMemory_retire o (sameMemory_of hk.mem hk.lpmem), fun j hj => ?_⟩
      · exact (State.retire_chain _ _).trans hk.chain
      · rw [State.retire_tile_keep, State.modTile_eq, State.tile_setTile, if_neg hj, writeTile_tile hv, if_neg hj]
        rfl

/-- A message that fails a check stops the invocation, and its tile stays (R264). -/
theorem xreceived_bad {s : State} {c : Nat} {o : Op} {m : List Byte} {rest : List (List Byte)} {e : Code}
    (h : s.collBad (bits o.word 84 77 + 1) m = some e) :
    StopsOp o e s (s.xreceived c o m rest) ∧ ∀ j, (s.xreceived c o m rest).tile j = s.tile j := by
  unfold State.xreceived
  dsimp only
  rw [h]
  exact ⟨stopOp_stops fun k => by simp, fun j => by simp⟩

/-- One that passes writes its entries to its tile (R385). -/
theorem xreceived_ok {s : State} {c : Nat} {o : Op} {m : List Byte} {rest : List (List Byte)}
    (h : s.collBad (bits o.word 84 77 + 1) m = none) (hpar : wAdd o.word = false ∨ (s.tile (tkey c (nth 0 o.tiles 0))).badPar 256 = none) :
    ((s.xreceived c o m rest).tile (tkey c (nth 0 o.tiles 0))).ent =
      (tileWrite (s.tile (tkey c (nth 0 o.tiles 0))) (wAdd o.word) ((List.range (bits o.word 84 77 + 1)).map (fun i => some (decode32 (fieldLe m (16 + 4 * i) 4))))
        o.rng (bit (fieldLe m 2 1) 0) (bit (fieldLe m 2 1) 1)).1.ent := by
  unfold State.xreceived
  dsimp only
  rw [h]
  dsimp only
  split
  · next hw =>
    unfold State.writeTile at hw
    dsimp only at hw
    rw [if_neg] at hw
    · cases hw
    · obtain hadd | hbad := hpar
      · simp [hadd]
      · simp [hbad]
  · next v hv =>
    rw [State.retire_tile_keep, State.modTile_eq, State.tile_setTile, if_pos rfl, writeTile_tile hv, if_pos rfl]
    rfl

/-- Settles O17: each end is one write, one message or one tile; reports and stops touch none of them. -/
theorem digestsTestVectorsAndCollectivesEnd : Obligations.DigestsTestVectorsAndCollectivesEnd := by
  unfold Obligations.DigestsTestVectorsAndCollectivesEnd
  refine ⟨fun s o => ⟨fun hfind => ?_, fun c hfind => ?_⟩, fun s o => ⟨fun hfind hup => ?_, fun c m rest => ?_⟩⟩
  · intro n h
    obtain ⟨hm, hl, hp, hb⟩ := digested_mem s o h
    refine ⟨fun hread hx => ?_, fun hread hx hbad => ?_, fun b hread => ?_⟩
    · exact gives ((digestDone_exec hfind rfl hread).1 hx) ⟨retire_left _ _, sameMemory_retire o (sameMemory_of hm hl)⟩
    · obtain ⟨rep, hexec⟩ := (digestDone_exec (h := h) hfind rfl hread).2 hx (by rw [badIn_congr hp hb]; exact hbad)
      refine gives hexec ?_
      rw [engRead_congr hm hl]
      split
      · next heq => exact ⟨sameMemory_retire o (sameMemory_of hm hl), retire_left _ _, fun hne => absurd heq hne⟩
      · exact ⟨sameMemory_trans (sameMemory_of hm hl) (sameMemory_of (by simp) (by simp)), stopOp_left _ _ _, fun _ => stopOp_stops (digested_ctx s o h)⟩
    · refine gives (t := (s.readFault false b o.ctx (s.invNum o.ctx)).stopOp o .parity) ?_ ⟨sameMemory_of (by simp) (by simp), stopOp_stops fun k => by simp⟩
      refine congrArg Host.Outcome.next ?_
      rw [hfind]
      dsimp only
      rw [hread]
  · refine gives (t := (s.engWrite o.a1 (testvecBytes (testvecSeed (s.ctx o.ctx).seed (s.invNum o.ctx) (bits o.word 83 68))
      (bits o.word 97 86 + 1) (bits o.word 85 84) (wX4 o.word))).retire o) ?_ ⟨retire_left _ _, sameMemory_retire o (sameMemory_rfl _)⟩
    refine congrArg Host.Outcome.next ?_
    rw [hfind]
  · intro w n x
    have hexec : exec .xsendAccepted s = .next (match x.badPar n with
        | some e => (s.tileFault o.ctx (s.invNum o.ctx) (o.clusters.headD 0) (nth 0 o.tiles 0) e).stopOp o .parity
        | none => s.xsent o x (
            let b := collBody (bits w 76 69) s.chain.pos (b2n x.coarse + 2 * b2n x.clip + 4 * b2n x.sat) n s.cfg.epoch ((List.range n).map (fun i => bits (x.e i) 31 0))
            b ++ leBytes 8 (crc64 b))) := by
      refine congrArg Host.Outcome.next ?_
      rw [hfind]
      exact if_neg (by simp [hup])
    refine ⟨fun hpar => ?_, fun e hpar => ?_⟩
    · rw [hpar] at hexec
      exact gives hexec (xsent_spec s o x _)
    · rw [hpar] at hexec
      exact gives hexec ⟨stopOp_stops fun k => by simp, by simp, fun j => by simp⟩
  · intro want hfind htake n k
    have hexec : exec (.xrecvMessage c) s = .next (s.xreceived c o m rest) := by
      refine congrArg Host.Outcome.next ?_
      rw [hfind]
      dsimp only
      rw [htake]
      rfl
    obtain ⟨hchain, hleft, hmem, htile⟩ := xreceived_frame s c o m rest
    refine gives hexec ⟨hchain, hleft, hmem, htile, ?_⟩
    cases hbad : s.collBad n m with
    | some e =>
      obtain ⟨hstop, hstay⟩ := xreceived_bad (rest := rest) (c := c) hbad
      exact ⟨hstop, hstay k⟩
    | none => exact xreceived_ok hbad

end Sys2Proof.Machine
end

section
/-!
PROOFS. The fronthaul port's commands: PAUSE frames, the link, and the writes of its registers and of the galley maps.
-/
open Sys2Proof Sys2Proof.Machine

namespace Sys2Proof.Machine

/-! ### Ports -/

theorem modPort_frame (s : State) (p : Nat) (f : Fhp → Fhp) : SameMemory s (s.modPort p f) ∧ SameRegs s (s.modPort p f) (fun _ => False) :=
  ⟨⟨fun _ => rfl, fun _ => rfl⟩, fun _ _ => rfl⟩

/-- PAUSE_TRANSMIT's step once the occupancy is taken: a frame at the upper mark, one at the lower mark, or none (R300). -/
def State.pauseStep (s : State) (p was occ : Nat) (xoff : Bool) : State :=
  let r := s.reg .fhp p 0x5C
  if !s.portUp p ∨ !bit (s.reg .fhp p 0x40) 4 then s
  else if was ≤ 1024 * bits r 22 16 ∧ 1024 * bits r 22 16 < occ then (s.sendPause p (bits r 15 0)).modPort p (fun x => { x with xoff := true })
  else if xoff ∧ occ ≤ 1024 * bits r 30 24 then (s.sendPause p 0).modPort p (fun x => { x with xoff := false })
  else s

/-- The three outcomes of the step. -/
theorem pauseStep_cases {P : State → Prop} (s : State) (p was occ : Nat) (xoff : Bool) (hnone : P s)
    (hsend : ∀ q b, P ((s.sendPause p q).modPort p (fun x => { x with xoff := b }))) : P (s.pauseStep p was occ xoff) := by
  unfold State.pauseStep
  dsimp only
  split
  · exact hnone
  · split
    · exact hsend _ _
    · split
      · exact hsend _ _
      · exact hnone

/-- A port after a PAUSE frame and its new XOFF. -/
theorem sent_spec (s : State) (p q : Nat) (b : Bool) :
    let t := (s.sendPause p q).modPort p (fun x => { x with xoff := b })
    t.port p = { s.port p with sent := (s.port p).sent ++ [q], xoff := b } ∧ t.reg .fhp p 0xB0 = satNat 32 (s.reg .fhp p 0xB0 + 1) ∧ SameMemory s t := by
  intro t
  refine ⟨?_, sendPause_cnt s p q, (sendPause_mem s p q).trans (modPort_frame _ _ _).1⟩
  unfold t
  rw [port_modPort, sendPause_port]

/-- PAUSE_TRANSMIT's clause of O20. -/
theorem pauseTransmit_gives {s : State} {p : Nat} (hp : p ≤ 3) (occ : Nat) :
    let r := s.reg .fhp p 0x5C
    Gives (.pauseTransmit p occ) s (fun t => (t.port p).occ = occ ∧ SameMemory s t ∧
      (s.portUp p = true → bit (s.reg .fhp p 0x40) 4 = true →
        ((s.port p).occ ≤ 1024 * bits r 22 16 → 1024 * bits r 22 16 < occ →
          (t.port p).sent = (s.port p).sent ++ [bits r 15 0] ∧ (t.port p).xoff = true ∧ t.reg .fhp p 0xB0 = satNat 32 (s.reg .fhp p 0xB0 + 1)) ∧
        (¬ 1024 * bits r 22 16 < occ → (s.port p).xoff = true → occ ≤ 1024 * bits r 30 24 →
          (t.port p).sent = (s.port p).sent ++ [0] ∧ (t.port p).xoff = false ∧ t.reg .fhp p 0xB0 = satNat 32 (s.reg .fhp p 0xB0 + 1))) ∧
      ((s.portUp p && bit (s.reg .fhp p 0x40) 4) = false → (t.port p).sent = (s.port p).sent ∧ SameRegs s t (fun _ => False))) := by
  intro r
  have hport : (s.modPort p (fun x => { x with occ := occ })).port p = { s.port p with occ := occ } := port_modPort _ _ _
  have hup := portUp_occ s p occ
  have hframe := modPort_frame s p (fun x => { x with occ := occ })
  have hreg : ∀ o, (s.modPort p (fun x => { x with occ := occ })).reg .fhp p o = s.reg .fhp p o := fun _ => rfl
  have hexec : exec (.pauseTransmit p occ) s = .next ((s.modPort p (fun x => { x with occ := occ })).pauseStep p (s.port p).occ occ (s.port p).xoff) :=
    congrArg Host.Outcome.next (if_neg (by omega))
  generalize s.modPort p (fun x => { x with occ := occ }) = u at hport hup hframe hreg hexec
  refine gives hexec ⟨?_, ?_, fun h1 h2 => ⟨fun hlo hhi => ?_, fun hhi hx hlo => ?_⟩, fun h => ?_⟩
  · refine pauseStep_cases (P := fun t => (t.port p).occ = occ) u p _ _ _ (by rw [hport]) fun q b => ?_
    rw [(sent_spec u p q b).1, hport]
  · exact pauseStep_cases u p _ _ _ hframe.1 fun q b => hframe.1.trans (sent_spec u p q b).2.2
  · have hstep : u.pauseStep p (s.port p).occ occ (s.port p).xoff = (u.sendPause p (bits r 15 0)).modPort p (fun x => { x with xoff := true }) := by
      unfold State.pauseStep
      dsimp only
      rw [hreg, hreg, if_neg (by rw [hup, h1, h2]; decide), if_pos ⟨hlo, hhi⟩]
    obtain ⟨k1, k2, -⟩ := sent_spec u p (bits r 15 0) true
    rw [hstep, k1, k2, hport, hreg]
    exact ⟨rfl, rfl, rfl⟩
  · have hstep : u.pauseStep p (s.port p).occ occ (s.port p).xoff = (u.sendPause p 0).modPort p (fun x => { x with xoff := false }) := by
      unfold State.pauseStep
      dsimp only
      rw [hreg, hreg, if_neg (by rw [hup, h1, h2]; decide), if_neg (fun h => hhi h.2), if_pos ⟨hx, hlo⟩]
    obtain ⟨k1, k2, -⟩ := sent_spec u p 0 false
    rw [hstep, k1, k2, hport, hreg]
    exact ⟨rfl, rfl, rfl⟩
  · have hstep : u.pauseStep p (s.port p).occ occ (s.port p).xoff = u := by
      unfold State.pauseStep
      dsimp only
      rw [hreg, hup, if_pos]
      cases hu : s.portUp p with
      | false => exact Or.inl rfl
      | true => exact Or.inr (by simpa [hu] using h)
    rw [hstep, hport]
    exact ⟨rfl, hframe.2⟩

/-! ### Checked writes -/

/-- Checks of which none holds. -/
theorem firstBad_of_false {l : List (Bool × Code)} (h : ∀ x ∈ l, x.1 = false) : firstBad l = none := by
  induction l with
  | nil => rfl
  | cons x r ih =>
    unfold firstBad
    rw [h x (List.mem_cons_self ..)]
    exact ih fun y hy => h y (List.mem_cons_of_mem _ hy)

theorem plain_fhpCfg : ∀ p ≤ 3, plainReg (rOff .fhp p 0x40) = true := by decide
theorem plain_galMap : ∀ i < 8, plainReg (0x20040 + 4 * i) = true := by decide

/-- Settles O20: each write passes its checks and is then `regPut`, `setRegs_rd` or a port's change. -/
theorem fronthaulPortCommands : Obligations.FronthaulPortCommands := by
  unfold Obligations.FronthaulPortCommands
  intro s p value hp r v
  have hv : v < 2 ^ 32 := value.isLt
  refine ⟨fun occ => pauseTransmit_gives hp occ, fun hup hpa hx hocc => ?_, fun up => ?_, fun hbad hsame => ?_, fun hbad hclr => ?_, fun i hi => ?_⟩
  · refine gives (t := s.sendPause p (bits r 15 0)) (congrArg Host.Outcome.next (if_neg ?_)) ⟨?_, sendPause_cnt s p _, sendPause_mem s p _⟩
    · rw [hup, hpa, hx]
      simpa using ⟨hp, hocc⟩
    · rw [sendPause_port]
  · refine gives (congrArg Host.Outcome.next (if_neg (by omega))) ⟨?_, rfl, (modPort_frame _ _ _).2, (modPort_frame _ _ _).1⟩
    rw [port_modPort]
  · have hcase : (bit (s.reg .fhp p 0x40) 7 && (bit v 0 != bit (s.reg .fhp p 0x40) 0 || bits v 6 5 != bits (s.reg .fhp p 0x40) 6 5)) = false := by
      cases hen : bit (s.reg .fhp p 0x40) 7 with
      | false => rfl
      | true => simp [hsame hen]
    have hrd := regPut_plain (s := s) (v := v) (plain_fhpCfg p hp)
    refine gives (t := (s.regPut (rOff .fhp p 0x40) v).modPort p (fun x => { x with linkUp := x.linkUp && bit v 7, xoff := x.xoff && bit v 7 })) ?_ ⟨?_, fun h7 => ?_, fun h7 => ?_, fun off hoff => ?_, ?_⟩
    · refine congrArg Host.Outcome.next ((if_neg (by omega)).trans (regWrite_ok hbad rfl (firstBad_of_false ?_)))
      exact List.forall_mem_singleton.mpr hcase
    · exact (hrd _).trans ((if_pos rfl).trans (Nat.mod_eq_of_lt hv))
    · rw [port_modPort]
      simp [h7]
    · rw [port_modPort]
      simp only [h7, Bool.and_true]
      exact congrArg Fhp.linkUp (regPut_keep (fun s => State.port s p) (fun _ _ => rfl) (fun _ _ => rfl) (fun _ _ _ => rfl) (fun _ _ _ => rfl) s _ v)
    · exact (hrd _).trans (if_neg hoff)
    · exact (regPut_mem s _ v).trans (modPort_frame _ _ _).1
  · refine gives (t := fhpCounters.foldl (fun s o => s.setReg .fhp p o 0) s) ?_ ⟨fun o ho => ?_, fun off hoff => ?_, setRegs_mem _ _ _⟩
    · exact congrArg Host.Outcome.next ((if_neg (by omega)).trans ((regWrite_ok hbad rfl rfl).trans (if_pos hclr)))
    · exact (setRegs_rd _ _ _ _).trans (if_pos (List.mem_map_of_mem ho))
    · refine (setRegs_rd _ _ _ _).trans (if_neg fun hmem => ?_)
      obtain ⟨o, ho, heq⟩ := List.mem_map.mp hmem
      exact hoff ⟨o, ho, heq.symm⟩
  · intro off a hbad hbusy harea
    have hrd := regPut_plain (s := s) (v := v) (plain_galMap i hi)
    refine gives (t := s.regPut off v) ?_ ⟨(hrd _).trans ((if_pos rfl).trans (Nat.mod_eq_of_lt hv)), fun x hx => (hrd x).trans (if_neg hx), regPut_mem s off v⟩
    refine congrArg Host.Outcome.next ((if_neg (by omega)).trans (regWrite_ok hbad rfl (firstBad_of_false ?_)))
    have hindex : (off - 0x20040) / 4 = i := by omega
    rw [hindex]
    have hon : (areaOf (decide (i ≥ 4)) v).isSome = bit v 31 := by
      unfold areaOf
      cases bit v 31 <;> rfl
    rw [hon]
    cases h31 : bit v 31 with
    | false => simpa using hbusy
    | true =>
      obtain ⟨hend, hover, hslices⟩ := harea h31
      have hin : ∀ n ∈ (List.range 4).filter (fun n => decide (a.1 < 24 * (n + 1) ∧ 24 * n < a.1 + a.2)), s.fenced (uSlice n) = false ∧ s.domOn (36 + n) = true := by
        intro n hn
        simp only [List.mem_filter, List.mem_range, decide_eq_true_eq] at hn
        exact hslices n hn.1 hn.2.1 hn.2.2
      have hover' : (s.otherAreas i).any (fun b => decide (a.1 < b.1 + b.2 ∧ b.1 < a.1 + a.2)) = false := by
        rw [List.any_eq_false]
        intro b hb
        have := hover b hb
        simpa using by omega
      simp only [List.mem_cons, List.not_mem_nil, or_false, forall_eq_or_imp, forall_eq, Bool.true_and]
      refine ⟨hbusy, ?_, ?_, ?_⟩
      · exact Bool.or_eq_false_iff.mpr ⟨decide_eq_false (Nat.not_lt.mpr hend), hover'⟩
      · exact List.any_eq_false.mpr fun n hn => by simp [(hin n hn).1]
      · exact List.any_eq_false.mpr fun n hn => by simp [(hin n hn).2]

end Sys2Proof.Machine
end

section
/-!
PROOFS. Programming of arrays, digest rounds with their readbacks, and the restoring of a repowered context (R346 to R363).
-/
open Sys2Proof Sys2Proof.Machine

namespace Sys2Proof.Machine

/-! ### Programming -/

/-- An array that is programmed: its maps and baseline are set, both formes are empty, and its weights stay. -/
theorem programmedOk_spec (s : State) (k : Nat) (rows : List (Nat × Nat)) (pairs : List Nat) (s0 s1 : Nat) (tw1 tw2 : List Int) :
    let r := s.arr k
    let u := s.programmedOk k rows pairs s0 s1 tw1 tw2
    let q := u.arr k
    q.st = (if r.forArr.isSome then 2 else 3) ∧ q.rowmap = rows ∧ q.colmap = pairs ∧ q.weights = r.weights ∧ q.layer = r.layer ∧
      q.recD = ((s0 + s1 : Nat) : Int) - 188416 ∧ (∀ f p, q.coef f p = { gain := 0x4000, off := 0 }) ∧ q.due = false ∧
      q.twinfail = (!twinOk tw1 && !twinOk tw2) ∧ SameMemory s u := by
  have hrefs : (s.setRefs k s0 s1).arr k = { s.arr k with ref0 := s0, ref1 := s1, refcnt := satNat 32 ((s.arr k).refcnt + 1) } := by
    rw [arr_setRefs, if_pos rfl]
  have hmem : SameMemory s (s.setRefs k s0 s1) := ⟨fun _ => rfl, fun _ => rfl⟩
  intro r u q
  unfold q u State.programmedOk
  generalize s.setRefs k s0 s1 = z at hrefs hmem ⊢
  rw [(twin_spec _ k tw1 tw2).1]
  rw [State.arr_withFree, State.modArr_eq, State.arr_setArr, if_pos rfl, hrefs]
  exact ⟨rfl, rfl, rfl, rfl, rfl, rfl, fun _ _ => rfl, rfl, rfl, hmem.trans (SameMemory.trans ⟨fun _ => rfl, fun _ => rfl⟩ (twin_spec _ k tw1 tw2).2)⟩

/-- What ARRAY_PROGRAMMED decides of an array that is being programmed (R117, R346, R348). -/
theorem arrayProgrammed_exec {s : State} {c a : Nat} {badRows badPairs : List Nat} {s0 s1 : Nat} {tw1 tw2 : List Int} {pairs : List Nat}
    (hst : (s.arr (akey c a)).st = 2) (hbegun : (s.arr (akey c a)).begun = true) (hon : s.cluOn c = true)
    (hpairs : pairs = (s.arr (akey c a)).colmap ++ trimPairs (s.arr (akey c a)) ++ badPairs.filter (fun q => !(trimPairs (s.arr (akey c a))).contains q)) :
    let fits := pairs.length ≤ 2 - ((failedTrims (s.arr (akey c a))).filter (fun q => q ≥ 262)).length ∧ 186368 ≤ s0 + s1 ∧ s0 + s1 ≤ 190463
    (∀ rows, replaceRows badRows (s.arr (akey c a)).rowmap = some rows → fits → exec (.arrayProgrammed c a badRows badPairs s0 s1 tw1 tw2) s =
        .next ((s.programmedOk (akey c a) rows pairs s0 s1 tw1 tw2).progCheck (s.arr (akey c a)).ctx)) ∧
    ((replaceRows badRows (s.arr (akey c a)).rowmap = none ∨ ¬ fits) → exec (.arrayProgrammed c a badRows badPairs s0 s1 tw1 tw2) s =
        .next (s.programmedBad (akey c a))) := by
  intro fits
  have hguard : ¬ ((s.arr (akey c a)).st ≠ 2 ∨ (!(s.arr (akey c a)).begun) = true ∨ (!s.cluOn c) = true) := by
    simp [hst, hbegun, hon]
  have hfits : (decide (pairs.length ≤ 2 - ((failedTrims (s.arr (akey c a))).filter (fun q => q ≥ 262)).length) &&
      decide (-2048 ≤ ((s0 + s1 : Nat) : Int) - 188416 ∧ ((s0 + s1 : Nat) : Int) - 188416 ≤ 2047)) = decide fits := by
    rw [← Bool.decide_and]
    exact decide_eq_decide.mpr (and_congr_right fun _ => by omega)
  subst hpairs
  refine ⟨fun rows hrows hfit => congrArg Host.Outcome.next ((if_neg hguard).trans ?_), fun hbad => congrArg Host.Outcome.next ((if_neg hguard).trans ?_)⟩
  · dsimp only
    rw [hrows]
    dsimp only
    rw [hfits, decide_eq_true hfit]
    rfl
  · dsimp only
    cases hrows : replaceRows badRows (s.arr (akey c a)).rowmap with
    | none => rfl
    | some rows =>
      have hnot := hbad.resolve_left (by rw [hrows]; exact Option.some_ne_none _)
      dsimp only
      rw [hfits, decide_eq_false hnot]
      rfl

/-! ### Digest rounds -/

/-- A readback: its array leaves the round, and the round's last one reports those that differ (R355, R356). -/
theorem verifiedReadback_exec {s : State} {c a s0 s1 : Nat} {dev : List (Nat × Int)} {x : Nat} {z u : State}
    (hx : (s.arr (akey c a)).ctx = x) (hleft : (s.ctx x).digLeft.contains (akey c a) = true) (hon : s.cluOn c = true)
    (hz : (s.driftRead (akey c a) s0 s1).evalTriggers (akey c a) = z)
    (hu : z.modCtx x (fun y => { y with digLeft := y.digLeft.filter (fun i => i != akey c a)
                                        digBad := if readbackSame (z.arr (akey c a)) dev then y.digBad else y.digBad ++ [akey c a] }) = u) :
    exec (.verifiedReadback c a s0 s1 dev) s = .next (if !(u.ctx x).digLeft.isEmpty then u
      else (u.ctx x).digBad.foldl (fun s i => s.report { kind := 0x0A, ctx := x, invoc := (s.ctx x).invoc, unit := uArr (i / 128) (i % 128) })
        (u.modCtx x (fun y => { y with digBad := [] }))) := by
  refine congrArg Host.Outcome.next ((if_neg ?_).trans ?_)
  · rw [hx, hleft, hon]
    decide
  · rw [hx, hz]
    subst hu
    rfl

/-- Settles O24: programming by `programmedOk_spec`, a round's reports by `reports_fold`. -/
theorem arraysAreProgrammedAndReadBack : Obligations.ArraysAreProgrammedAndReadBack := by
  unfold Obligations.ArraysAreProgrammedAndReadBack
  intro s c
  refine ⟨fun a badRows badPairs s0 s1 tw1 tw2 => ?_, fun g hact hst hper hdone hback hleft => ?_, fun a s0 s1 dev => ?_, fun hex hhold hret => ?_⟩
  · intro k r pairs fits hst hbegun hon
    obtain ⟨hok, hbad⟩ := arrayProgrammed_exec (badRows := badRows) (s0 := s0) (s1 := s1) (tw1 := tw1) (tw2 := tw2) (pairs := pairs) hst hbegun hon rfl
    exact ⟨fun rows hrows hfit => ⟨hok rows hrows hfit, programmedOk_spec s k rows pairs s0 s1 tw1 tw2⟩, hbad⟩
  · refine gives (t := s.modCtx c (fun x => { x with digLeft := s.inService c, digBad := [], digDone := 0 })) (congrArg Host.Outcome.next ?_) ⟨?_, fun j hj => ?_, ?_, ?_⟩
    · dsimp only
      rw [hact]
      refine if_neg ?_
      rintro (h | h | h | h | h)
      · exact h hst
      · exact hper h
      · omega
      · rw [Option.isNone_iff_eq_none] at h
        rw [h] at hback
        cases hback
      · rw [hleft] at h
        cases h
    · simp
    · simp [hj]
    · exact ⟨fun _ => rfl, fun _ => rfl⟩
    · exact fun _ _ => rfl
  · intro k x z same bad hleft hon
    have hexec := verifiedReadback_exec (s0 := s0) (s1 := s1) (dev := dev) (x := x) (z := z) rfl hleft hon rfl rfl
    have hctx : ((z.modCtx x (fun y => { y with digLeft := y.digLeft.filter (fun i => i != k), digBad := if same then y.digBad else y.digBad ++ [k] })).ctx x) =
        { z.ctx x with digLeft := (z.ctx x).digLeft.filter (fun i => i != k), digBad := bad } := by simp [bad]
    have hrep : ∀ f, (z.modCtx x f).reports = z.reports := fun _ => rfl
    have hrep := hrep (fun y => { y with digLeft := y.digLeft.filter (fun i => i != k), digBad := if same then y.digBad else y.digBad ++ [k] })
    generalize z.modCtx x (fun y => { y with digLeft := y.digLeft.filter (fun i => i != k), digBad := if same then y.digBad else y.digBad ++ [k] }) = u at hexec hctx hrep
    clear_value z
    refine ⟨fun hmore => ?_, fun hlast => ?_⟩
    · obtain ⟨j, hj, hjk⟩ := hmore
      have hne : (u.ctx x).digLeft.isEmpty = false := by
        rw [hctx, List.isEmpty_eq_false_iff_exists_mem]
        exact ⟨j, List.mem_filter.mpr ⟨hj, by simpa using hjk⟩⟩
      rw [hne] at hexec
      exact gives hexec ⟨congrArg Ctx.digLeft hctx, congrArg Ctx.digBad hctx, hrep⟩
    · have hempty : (u.ctx x).digLeft = [] := by
        rw [hctx]
        exact List.filter_eq_nil_iff.mpr fun j hj => by simp [hlast j hj]
      have hbad : (u.ctx x).digBad = bad := congrArg Ctx.digBad hctx
      have hclear : (u.modCtx x (fun y => { y with digBad := [] })).ctx x = { u.ctx x with digBad := [] } := by simp
      have hinvoc : ((u.modCtx x (fun y => { y with digBad := [] })).ctx x).invoc = (z.ctx x).invoc := by rw [hclear, hctx]
      have hreports : (u.modCtx x (fun y => { y with digBad := [] })).reports = z.reports := hrep
      rw [hempty, hbad, report_ctx_fold x bad (z.ctx x).invoc _ hinvoc] at hexec
      obtain ⟨kreports, kctx⟩ := reports_fold (fun i => { kind := 0x0A, ctx := x, invoc := (z.ctx x).invoc, unit := uArr (i / 128) (i % 128) }) bad
        (u.modCtx x (fun y => { y with digBad := [] }))
      refine gives hexec ⟨?_, ?_, kreports.trans (by rw [hreports])⟩
      · exact (congrArg Ctx.digLeft ((kctx x).trans hclear)).trans hempty
      · exact congrArg Ctx.digBad ((kctx x).trans hclear)
  · intro need z
    have hguard : (s.ctxArrays c).any (fun k => (s.unit (uArr (k / 128) (k % 128))).state == 2) = false := by
      rw [List.any_eq_false]
      intro k hk
      simpa using hret k hk
    have hrun : exec (.domainRepowerRestore c) s = .next (
        if need.any (fun g => ((s.ctx c).letter g).backing.isNone) then (z.modCtx c (fun x => { x with state := 2 })).record c (z.ctxClus c)
        else match (s.ctx c).active with
          | some g => (need.foldl (fun s g => s.loadRows c g) z).loadProfiles c g
          | none => need.foldl (fun s g => s.loadRows c g) z) := by
      refine congrArg Host.Outcome.next ?_
      dsimp only
      rw [hex, hhold, hguard]
      rfl
    refine ⟨fun hneed => ?_, fun g hneed hact => ?_⟩
    · rw [hrun, if_pos hneed]
    · rw [hrun, if_neg (by rw [hneed]; exact Bool.false_ne_true), hact]

end Sys2Proof.Machine
end

section
/-!
PROOFS. Judging of fault reports, the host's windows onto memory, and the external memory's upkeep (R399, R36, R269, R290).
-/
open Sys2Proof Sys2Proof.Machine

namespace Sys2Proof.Machine

/-! ### Fault reports -/

/-- A kind that counts imposes no fence at once (R400). -/
theorem immediate_of_kindCounts {k : Nat} (h : kindCounts k = true) : immediate k = none := by
  have hk : k = 1 ∨ k = 2 ∨ k = 4 ∨ k = 5 ∨ k = 6 ∨ k = 7 := by simpa [kindCounts] using h
  rcases hk with rfl | rfl | rfl | rfl | rfl | rfl <;> rfl

/-- What the fault manager makes of a report of a unit (R399). -/
def State.unitReport (s : State) (r : Report) (rep0 rep1 : Bool) : State :=
  match immediate r.kind with
  | some why => (((s.eventIn r r.unit 3).fenceNow r.unit why).histWrite r.unit).settleTests
  | none => if !kindCounts r.kind then (s.eventIn r r.unit 0).histWrite r.unit else s.countedFault r rep0 rep1

theorem faultEvent_exec {s : State} {r : Report} {rest : List Report} (rep0 rep1 : Bool) (hr : s.reports = r :: rest) :
    exec (.faultEvent rep0 rep1) s = .next (if r.unit = 0xFFFF then (s.withReports rest).eventIn r 0xFFFF 0 else (s.withReports rest).unitReport r rep0 rep1) := by
  refine congrArg Host.Outcome.next ?_
  rw [hr]
  rfl

/-- A counted report that concerns one unit only: three outcomes of its repeat (R407 to R409). -/
theorem countedFault_single {z : State} {r : Report} {rep0 rep1 : Bool} (h5 : r.kind ≠ 5) :
    z.countedFault r rep0 rep1 =
      (if z.repeats r && rep0 then ((((if z.repeats r then z.bump .tst 0 0x70 1 else z).eventIn r r.unit 2).permanent r r.unit).settleTests)
       else ((((if z.repeats r then z.bump .tst 0 0x70 1 else z).eventIn r r.unit 1).judge r r.unit).settleTests)) := by
  have hcharged : r.charged rep0 rep1 = [r.unit] := if_neg h5
  have hkind : (r.kind == 5) = false := by simpa using h5
  unfold State.countedFault
  dsimp only
  rw [hcharged, hkind, if_neg h5]
  simp only [Bool.false_and, Bool.or_false, List.foldl_cons, List.foldl_nil, List.headD_cons]
  generalize (if z.repeats r = true then z.bump .tst 0 0x70 1 else z) = y
  cases z.repeats r && rep0 with
  | true => simp only [if_true]
  | false => simp only [Bool.false_eq_true, if_false]

/-- Settles O26: a case split on the report's unit and kind (`faultEvent_exec`), and on the limits of `judge`. -/
theorem faultReportsAreJudged : Obligations.FaultReportsAreJudged := by
  unfold Obligations.FaultReportsAreJudged
  intro s r rest rep0 rep1 hr z
  have hexec := faultEvent_exec rep0 rep1 hr
  refine ⟨fun hu => ?_, fun why hu him => ?_, fun hu him hc => ?_, fun hu hc h5 => ?_, fun u => ?_⟩
  · rw [if_pos hu] at hexec
    have hkeep : ∀ {β : Type} (g : State → β), (∀ s o v, g (State.wr s o v) = g s) → (∀ s p f, g (State.modPage s p f) = g s) →
        g (z.eventIn r 0xFFFF 0) = g { z with events := ({ kind := r.kind, cls := 0, ctx := r.ctx, invoc := r.invoc, tile := r.tile, unit := 0xFFFF, detail := r.detail } :: s.events).take 64 } :=
      fun g h1 h2 => bump64_keep g h1 h2 _ _ _ _ _
    refine gives hexec ⟨?_, ?_, ?_, ?_, fun a => ?_, fun a => ?_⟩
    · exact hkeep (fun s => s.reports) (fun _ _ _ => rfl) (fun _ _ _ => rfl)
    · exact hkeep (fun s => s.events) (fun _ _ _ => rfl) (fun _ _ _ => rfl)
    · exact reg64_bump64_same _ _ _ _ _ (by decide)
    · exact hkeep (fun s => s.units) (fun _ _ _ => rfl) (fun _ _ _ => rfl)
    · exact hkeep (fun s => s.memByte a) (fun _ _ _ => rfl) (fun _ _ _ => rfl)
    · exact hkeep (fun s => s.lpByte a) (fun _ _ _ => rfl) (fun _ _ _ => rfl)
  · rw [hexec, if_neg hu]
    unfold State.unitReport
    rw [him]
  · rw [hexec, if_neg hu]
    unfold State.unitReport
    rw [him, hc]
    rfl
  · have hunit : z.unitReport r rep0 rep1 = z.countedFault r rep0 rep1 := by
      unfold State.unitReport
      rw [immediate_of_kindCounts hc, hc]
      rfl
    rw [hexec, if_neg hu, hunit, countedFault_single h5]
    refine ⟨fun h h0 => ?_, fun h h0 => ?_, fun h => ?_⟩
    · rw [h, h0]
      rfl
    · rw [h, h0]
      rfl
    · rw [h]
      rfl
  · intro w n
    refine ⟨fun h => ?_, fun h hn => ?_, fun h hn => ?_⟩
    · exact congrArg (fun t => State.histWrite t u) (if_pos h)
    · exact congrArg (fun t => State.histWrite t u) ((if_neg (Nat.not_le.mpr h)).trans (if_pos hn))
    · exact congrArg (fun t => State.histWrite t u) ((if_neg (Nat.not_le.mpr h)).trans (if_neg (Nat.not_le.mpr hn)))

/-! ### Windows onto memory -/

/-- One byte read where the offset stands for a memory byte that no march test holds. -/
theorem bar2Read_mem {s : State} {o a k : Nat} (h : s.bar2Byte o = .mem a k) (hm : s.underMarch a = false) :
    (s.bar2Read o 1).host.reply = [s.memByte a] := by
  unfold State.bar2Read
  dsimp only
  show List.map _ _ = _
  simp [h, hm]

theorem bar2Read_lp {s : State} {o a : Nat} (h : s.bar2Byte o = .lp a) : (s.bar2Read o 1).host.reply = [s.lpByte a] := by
  unfold State.bar2Read
  dsimp only
  show List.map _ _ = _
  simp [h]

theorem bar2Byte_galley {s : State} {o : Nat} (h : o < galEnd) (hd : s.domOn (36 + sliceOf o) = true) (hf : s.fenced (uSlice (sliceOf o)) = false) :
    s.bar2Byte o = .mem o 0 := by
  unfold State.bar2Byte
  dsimp only
  rw [if_pos h, hd, hf]
  rfl

theorem bar2Byte_aperture {s : State} {o : Nat} (h1 : 0x80000000 ≤ o) (h2 : o < 0xC0000000) (hr : s.lpReady = true) (h48 : s.domOn 48 = true)
    (h49 : s.domOn 49 = true) (hcap : s.reg64 .hif 0 0x50 + (o - 0x80000000) < s.lpCap) : s.bar2Byte o = .lp (s.reg64 .hif 0 0x50 + (o - 0x80000000)) := by
  unfold State.bar2Byte
  dsimp only
  rw [if_neg (by unfold galEnd; omega), if_neg (by omega), if_neg (by omega), if_pos (by omega), hr, h48, h49, decide_eq_true hcap]
  rfl

/-- Settles O29: each offset stands for one byte (`bar2Byte_win` and its kin), which `bar2Write_mem` and `bar2Write_lp` write. -/
theorem memoryWindowsReachTheirBytes : Obligations.MemoryWindowsReachTheirBytes := by
  unfold Obligations.MemoryWindowsReachTheirBytes
  intro s o b x c rot lp
  refine ⟨fun n hm => ?_, fun h hc => ?_, fun h hd hf => ?_, ?_, fun h hc => ⟨?_, fun hm => ?_⟩, fun h hc h1 => ?_, fun h hc h1 => ?_, fun h hc h0 => ?_, fun h1 h2 hr h48 h49 hcap => ⟨?_, ?_⟩⟩
  · exact gives rfl ⟨bar2Read_memory s o n, bar2Read_unsup s o n, bar2Read_reply s o n hm⟩
  · exact gives rfl (bar2Write_mem s o b o 0 ((bar2Byte_win s o 1 h (by decide) (by decide) hc).trans (if_pos rfl)) b rfl)
  · exact gives rfl (bar2Write_mem s o b o 0 (bar2Byte_galley h hd hf) b rfl)
  · exact gives rfl (sameMemory_rfl s)
  · have hbyte : s.bar2Byte o = .mem rot 0 := (bar2Byte_win s o 2 h (by decide) (by decide) hc).trans ((if_neg (by decide)).trans (if_pos rfl))
    exact gives (congrArg Host.Outcome.next (if_pos h)) (bar2Write_mem s o b rot 0 hbyte b rfl)
  · have hbyte : s.bar2Byte o = .mem rot 0 := (bar2Byte_win s o 2 h (by decide) (by decide) hc).trans ((if_neg (by decide)).trans (if_pos rfl))
    exact gives (congrArg Host.Outcome.next (if_pos h)) ⟨bar2Read_mem hbyte hm, bar2Read_memory s o 1⟩
  · have hbyte : s.bar2Byte o = .mem (0x10000000 + x) 1 := by
      rw [bar2Byte_win s o 3 h (by decide) (by decide) hc, if_neg (by decide), if_neg (by decide), if_neg (by rw [h1]; decide)]
    exact gives (congrArg Host.Outcome.next (if_pos h)) (bar2Write_mem s o b _ 1 hbyte _ rfl)
  · have hbyte : s.bar2Byte o = .mem (0x10000000 + x) 2 := by
      rw [bar2Byte_win s o 4 h (by decide) (by decide) hc, if_neg (by decide), if_neg (by decide), if_neg (by rw [h1]; decide)]
    exact gives (congrArg Host.Outcome.next (if_pos h)) (bar2Write_mem s o b _ 2 hbyte _ rfl)
  · have hbyte : s.bar2Byte o = .none := by
      rw [bar2Byte_win s o 3 h (by decide) (by decide) hc, if_neg (by decide), if_neg (by decide), if_pos h0]
    refine gives ((congrArg Host.Outcome.next (if_pos h)).trans (congrArg Host.Outcome.next (bar2Write_none s o b hbyte))) ⟨?_, ?_⟩
    · exact (bump_mem s _ _ _ _).trans (setReg_frame _ _ _ _ _).1
    · exact (rd_setReg_other _ _ _ _ _ _ (by decide)).trans (reg_bump_same _ _ _ _ _ (by decide))
  · exact gives (congrArg Host.Outcome.next (if_pos ⟨h1, h2⟩)) (bar2Write_lp s o b lp (bar2Byte_aperture h1 h2 hr h48 h49 hcap))
  · exact gives (congrArg Host.Outcome.next (if_pos ⟨h1, h2⟩)) ⟨bar2Read_lp (bar2Byte_aperture h1 h2 hr h48 h49 hcap), bar2Read_memory s o 1⟩

/-! ### External memory -/

theorem withLpx_frame (s : State) (m : FMap Nat) : SameMemory s (s.withLpx m) ∧ SameRegs s (s.withLpx m) (fun _ => False) :=
  ⟨⟨fun _ => rfl, fun _ => rfl⟩, fun _ _ => rfl⟩

/-- What a training leaves of a channel that is powered and untrained (R290, R291). -/
theorem lpxTraining_exec {s : State} {c d : Nat} (hc : c ≤ 1) (hon : s.domOn (48 + c) = true) (hd : d ≤ 3) (hready : bit (s.reg .lpx c 0x44) 9 = false)
    (hstage : 6 ≤ s.sec.stage) : exec (.lpxTrainingDone c d) s = .next (
      let z := s.withLpx (FMap.put 0 s.lpx (4 + c) 1)
      if d = 0 ∨ ((FMap.get 0 s.lpx (5 - c) == 1) = true ∧ bits (s.reg .lpx (1 - c) 0x44) 7 4 ≠ d) then
        (z.setReg .lpx 0 0x44 (z.reg .lpx 0 0x40 % 4)).setReg .lpx 1 0x44 (z.reg .lpx 1 0x40 % 4)
      else z.setReg .lpx c 0x44 (z.reg .lpx c 0x40 % 4 + (d <<< 4) + 0x300)) := by
  refine congrArg Host.Outcome.next (if_neg ?_)
  rw [hon, hready]
  simp only [Bool.not_true, Bool.false_eq_true, false_or]
  omega

/-- Settles O30: training by `lpxTraining_exec`, the patrol by `patrol_lemma`. -/
theorem externalMemoryIsMaintained : Obligations.ExternalMemoryIsMaintained := by
  unfold Obligations.ExternalMemoryIsMaintained
  intro s c d link hc hon
  refine ⟨fun hd hready hstage => ⟨fun hsame => ?_, fun hnone => ?_⟩, fun hrate hlp => patrol_lemma s c link hc hon hrate hlp, fun rate => ?_⟩
  · have hgood : ¬ (d = 0 ∨ ((FMap.get 0 s.lpx (5 - c) == 1) = true ∧ bits (s.reg .lpx (1 - c) 0x44) 7 4 ≠ d)) := by
      rintro (h | ⟨h1, h2⟩)
      · exact hsame.1 h
      · exact h2 (hsame.2 (by simpa using h1))
    refine gives ((lpxTraining_exec hc hon hd hready hstage).trans (congrArg Host.Outcome.next (if_neg hgood))) ⟨?_, ?_, ?_⟩
    · rw [reg_setReg]
      show (s.reg .lpx c 0x40 % 4 + (d <<< 4) + 0x300) % 2 ^ 32 = _
      rw [Nat.shiftLeft_eq, Nat.mod_eq_of_lt (by omega)]
    · exact (withLpx_frame s _).1.trans (setReg_frame _ _ _ _ _).1
    · exact fun k hk => (rd_setReg_other _ _ _ _ _ _ hk).trans ((withLpx_frame s _).2 k id)
  · refine gives ((lpxTraining_exec hc hon hd hready hstage).trans (congrArg Host.Outcome.next (if_pos (Or.inl hnone)))) ⟨?_, ?_, ?_, ?_⟩
    · refine (rd_setReg_other _ _ _ _ _ _ (by decide)).trans ((reg_setReg _ _ _ _ _).trans ?_)
      exact Nat.mod_eq_of_lt (lt_of_lt_of_le (Nat.mod_lt _ (by decide)) (by decide))
    · refine (reg_setReg _ _ _ _ _).trans ?_
      exact Nat.mod_eq_of_lt (lt_of_lt_of_le (Nat.mod_lt _ (by decide)) (by decide))
    · exact ((withLpx_frame s _).1.trans (setReg_frame _ _ _ _ _).1).trans (setReg_frame _ _ _ _ _).1
    · intro k hk
      exact (rd_setReg_other _ _ _ _ _ _ fun h => hk (Or.inr h)).trans ((rd_setReg_other _ _ _ _ _ _ fun h => hk (Or.inl h)).trans ((withLpx_frame s _).2 k id))
  · refine gives (congrArg Host.Outcome.next (if_neg ?_)) ⟨FMap.get_put_same _ _ _ _, withLpx_frame s _⟩
    rw [hon]
    simpa using hc

end Sys2Proof.Machine
end

section
/-!
PROOFS. The Colophon: the steps of its writes, the retained settings and hours, and the host's access to it (R434 to R446).
-/
open Sys2Proof Sys2Proof.Machine

namespace Sys2Proof.Machine

theorem withCol_frame (s : State) (x : ColSt) : SameMemory s (s.withCol x) ∧ SameRegs s (s.withCol x) (fun _ => False) :=
  ⟨⟨fun _ => rfl, fun _ => rfl⟩, fun _ _ => rfl⟩

/-! ### Steps of a write -/

theorem bump_col (s : State) (t : PType) (i o n : Nat) : (s.bump t i o n).col = s.col := bump_keep (fun s => s.col) (fun _ _ _ => rfl) s t i o n

/-- What COLOPHON_STEP_START makes of the first write's next step. -/
def State.stepStart (s : State) (w : ColWrite) (r : List ColWrite) (b : Nat × List Byte × Nat × Nat) (ok : Bool) : State :=
  let z := s.setReg .hld 0 0x5C (min (4 * b.2.2.2) 65535 + (b2n ok <<< 16))
  if ok then (z.bump .hld 0 0x58 1).withCol { z.col with queue := { w with active := some (b.1, b.2.1, b.2.2.1), denied := false } :: r }
  else if w.denied then z
  else (z.bump .col 0 0x74 1).withCol { z.col with queue := { w with denied := true } :: r }

theorem stepStart_exec {s : State} {w : ColWrite} {r : List ColWrite} {st : ColStep} {more : List ColStep} (hq : s.col.queue = w :: r)
    (ha : w.active = none) (hs : w.steps = st :: more) :
    exec .colophonStepStart s = .next (s.stepStart w r (s.stepBytes st) (s.supplyOk (s.stepBytes st).2.2.2)) := by
  refine congrArg Host.Outcome.next ?_
  rw [hq]
  dsimp only
  split
  · next st' tail ha' hs' =>
    rw [hs] at hs'
    cases hs'
    rfl
  · next hno => exact absurd hs (hno st more ha)

/-- A step that passes the supply check starts (R435). -/
theorem stepStart_ok (s : State) (w : ColWrite) (r : List ColWrite) (b : Nat × List Byte × Nat × Nat) :
    let t := s.stepStart w r b true
    t.col = { s.col with queue := { w with active := some (b.1, b.2.1, b.2.2.1), denied := false } :: r } ∧
      t.reg .hld 0 0x58 = satNat 32 (s.reg .hld 0 0x58 + 1) ∧ t.reg .hld 0 0x5C = min (4 * b.2.2.2) 65535 + 65536 ∧
      SameMemory s t ∧ SameRegs s t (fun off => off = rOff .hld 0 0x58 ∨ off = rOff .hld 0 0x5C) := by
  have henergy : (min (4 * b.2.2.2) 65535 + (b2n true <<< 16)) % 2 ^ 32 = min (4 * b.2.2.2) 65535 + 65536 := by
    have h1 : b2n true <<< 16 = 65536 := rfl
    rw [h1, Nat.mod_eq_of_lt (by omega)]
  unfold State.stepStart
  dsimp only
  generalize min (4 * b.2.2.2) 65535 + (b2n true <<< 16) = v at henergy ⊢
  rw [if_pos rfl]
  refine ⟨rfl, ?_, ?_, ?_, fun k hk => ?_⟩
  · refine (reg_bump_same _ _ _ _ _ (by decide)).trans ?_
    rw [State.reg_eq, rd_setReg_other _ _ _ _ _ _ (by decide)]
    rfl
  · refine (reg_bump_other _ _ _ _ _ _ (by decide)).trans ((reg_setReg _ _ _ _ _).trans henergy)
  · exact ((setReg_frame _ _ _ _ _).1.trans (bump_mem _ _ _ _ _)).trans (withCol_frame _ _).1
  · exact (State.rd_bump_other _ _ _ _ _ _ fun h => hk (Or.inl h)).trans (rd_setReg_other _ _ _ _ _ _ fun h => hk (Or.inr h))

/-- A step that fails the supply check waits, and counts once (R435). -/
theorem stepStart_denied {s : State} {w : ColWrite} {r : List ColWrite} (b : Nat × List Byte × Nat × Nat) (hq : s.col.queue = w :: r) :
    let t := s.stepStart w r b false
    t.col = { s.col with queue := { w with denied := true } :: r } ∧ t.reg .hld 0 0x5C = min (4 * b.2.2.2) 65535 ∧
      t.reg .col 0 0x74 = (if w.denied then s.reg .col 0 0x74 else satNat 32 (s.reg .col 0 0x74 + 1)) ∧
      SameMemory s t ∧ SameRegs s t (fun off => off = rOff .hld 0 0x5C ∨ off = rOff .col 0 0x74) := by
  have henergy : (min (4 * b.2.2.2) 65535 + (b2n false <<< 16)) % 2 ^ 32 = min (4 * b.2.2.2) 65535 := by
    have h0 : b2n false <<< 16 = 0 := rfl
    rw [h0, Nat.mod_eq_of_lt (by omega), Nat.add_zero]
  unfold State.stepStart
  dsimp only
  rw [if_neg (by decide)]
  cases hd : w.denied with
  | true =>
    rw [if_pos rfl]
    have hw : { w with denied := true } = w := by
      rw [← hd]
    refine ⟨?_, (reg_setReg _ _ _ _ _).trans henergy, rd_setReg_other _ _ _ _ _ _ (by decide), (setReg_frame _ _ _ _ _).1, fun k hk => ?_⟩
    · rw [hw, ← hq]
      rfl
    · exact rd_setReg_other _ _ _ _ _ _ fun h => hk (Or.inl h)
  | false =>
    rw [if_neg (by decide), if_neg (by decide)]
    refine ⟨rfl, ?_, ?_, ?_, fun k hk => ?_⟩
    · exact (State.rd_bump_other _ _ _ _ _ _ (by decide)).trans ((reg_setReg _ _ _ _ _).trans henergy)
    · refine (reg_bump_same _ _ _ _ _ (by decide)).trans ?_
      rw [State.reg_eq, rd_setReg_other _ _ _ _ _ _ (by decide)]
      rfl
    · exact ((setReg_frame _ _ _ _ _).1.trans (bump_mem _ _ _ _ _)).trans (withCol_frame _ _).1
    · exact (State.rd_bump_other _ _ _ _ _ _ fun h => hk (Or.inr h)).trans (rd_setReg_other _ _ _ _ _ _ fun h => hk (Or.inl h))

/-- The bytes of a step stand, and its page operations are counted (R436). -/
def State.stepWritten (s : State) (a : Nat) (bs : List Byte) (pg : Nat) : State :=
  (s.withCol { s.col with mem := colPut s.col.mem a bs }).bump64 .col 0 0x68 pg

theorem stepWritten_spec (s : State) (a : Nat) (bs : List Byte) (pg : Nat) :
    (s.stepWritten a bs pg).col = { s.col with mem := colPut s.col.mem a bs } ∧
      (s.stepWritten a bs pg).reg64 .col 0 0x68 = (if pg = 0 then s.reg64 .col 0 0x68 else satNat 64 (s.reg64 .col 0 0x68 + pg)) ∧
      (s.stepWritten a bs pg).reg .col 0 0x70 = s.reg .col 0 0x70 ∧ SameMemory s (s.stepWritten a bs pg) := by
  refine ⟨bump64_keep (fun s => s.col) (fun _ _ _ => rfl) (fun _ _ _ => rfl) _ _ _ _ _, ?_, ?_, (withCol_frame _ _).1.trans (bump64_mem _ _ _ _ _)⟩
  · exact (State.reg64_eq _ _ _ _).trans (State.rd64_bump64_same _ _ _ _ _)
  · exact reg_bump64_other _ _ _ _ _ _ (by decide) (by decide)

theorem colStepEnd_eq {s : State} {w : ColWrite} {r : List ColWrite} {a pg : Nat} {bs : List Byte} {st : ColStep} {more : List ColStep}
    (hq : s.col.queue = w :: r) (ha : w.active = some (a, bs, pg)) (hs : w.steps = st :: more) (hh : st.home < 64 ∨ 96 ≤ st.home) :
    s.colStepEnd = let z := s.stepWritten a bs pg
      if more.isEmpty then ((z.withCol { z.col with queue := r }).bump .col 0 0x70 1, some w)
      else (z.withCol { z.col with queue := { w with steps := more, active := none, denied := false } :: r }, none) := by
  unfold State.colStepEnd
  rw [hq]
  dsimp only
  split
  · next a' bs' pg' st' tail ha' hs' =>
    rw [ha] at ha'
    rw [hs] at hs'
    cases ha'
    cases hs'
    rw [if_neg (show ¬ (64 ≤ st.home ∧ st.home < 96) by omega)]
    rfl
  · next hno => exact absurd hs (hno a bs pg st more ha)

/-- Settles O31: `stepStart_ok` and `stepStart_denied` for a start, `colStepEnd_eq` for an end. -/
theorem colophonWritesProceed : Obligations.ColophonWritesProceed := by
  unfold Obligations.ColophonWritesProceed
  intro s w r hq
  refine ⟨fun st more ha hs => ⟨fun hok => ?_, fun hno => ?_⟩, fun a bs pg st more ha hs hh => ⟨fun hmore => ?_, fun hmore => ?_⟩, fun x l hx => ?_⟩
  · have hexec := stepStart_exec hq ha hs
    rw [hok] at hexec
    exact gives hexec (stepStart_ok s w r _)
  · have hexec := stepStart_exec hq ha hs
    rw [hno] at hexec
    exact gives hexec (stepStart_denied _ hq)
  · have hend := colStepEnd_eq hq ha hs hh
    have hne : ¬ more.isEmpty = true := by simpa using hmore
    obtain ⟨hcol, hcnt, -, hmem⟩ := stepWritten_spec s a bs pg
    generalize s.stepWritten a bs pg = z at hend hcol hcnt hmem
    dsimp only at hend
    rw [if_neg hne, hcol] at hend
    refine gives (t := z.withCol _) (congrArg Host.Outcome.next ?_) ⟨rfl, hcnt, hmem.trans (withCol_frame _ _).1⟩
    rw [hend]
  · subst hmore
    have hend := colStepEnd_eq hq ha hs hh
    obtain ⟨hcol, -, hreg, hmem⟩ := stepWritten_spec s a bs pg
    generalize s.stepWritten a bs pg = z at hend hcol hreg hmem
    dsimp only at hend
    rw [List.isEmpty_nil, if_pos rfl, hcol] at hend
    refine ⟨(z.withCol { s.col with mem := colPut s.col.mem a bs, queue := r }).bump .col 0 0x70 1, ?_, ?_, ?_, ?_⟩
    · exact bump_col _ _ _ _ _
    · refine (reg_bump_same _ _ _ _ _ (by decide)).trans ?_
      rw [← hreg]
      rfl
    · exact (hmem.trans (withCol_frame _ _).1).trans (bump_mem _ _ _ _ _)
    · refine congrArg Host.Outcome.next ?_
      rewrite [hend]
      rfl
  · intro z
    refine ⟨fun e he => ⟨?_, fun hk => ?_⟩, fun he => ?_⟩
    · refine congrArg Host.Outcome.next ?_
      rw [hx]
      dsimp only
      rw [he]
    · unfold State.cmdDenied
      rcases hk with hk | hk
      · rw [hk]
        rfl
      · rw [hk]
        rfl
    · refine gives (t := z.withCol { z.col with pwBusy := false, pwFail := true }) (congrArg Host.Outcome.next ?_) ⟨rfl, ⟨fun _ => rfl, fun _ => rfl⟩, fun _ _ => rfl⟩
      rw [hx]
      dsimp only
      rw [he]

/-! ### Settings and hours -/

/-- Settles O32: both writes join the queue by `State.colQueue`. -/
theorem settingsAndHoursAreWritten : Obligations.SettingsAndHoursAreWritten := by
  unfold Obligations.SettingsAndHoursAreWritten
  intro s
  refine ⟨fun hp hm => ?_, fun e hb hbad => ?_⟩
  · refine gives (t := ((s.withCol { s.col with hours := satNat 32 (s.col.hours + 1) }).withCol
      { s.col with hours := satNat 32 (s.col.hours + 1), queue := s.col.queue.filter (fun w => !(w.k == 21 && w.active.isNone)) }).colQueue
        { steps := [deviceStep (s.withCol { s.col with hours := satNat 32 (s.col.hours + 1) })], k := 21 }) (congrArg Host.Outcome.next ?_) ⟨rfl, ⟨fun _ => rfl, fun _ => rfl⟩, fun _ _ => rfl⟩
    have hoff : ¬ (!s.powered) = true := by simpa using hp
    have hmount : ¬ (!(s.withCol { s.col with hours := satNat 32 (s.col.hours + 1) }).col.mounted) = true := by simpa using hm
    exact (if_neg hoff).trans (if_neg hmount)
  · refine gives (t := (s.marked e).colQueue { steps := [{ home := 0, recs := [(0, (s.marked e).settingsPayload)] }, deviceStep (s.marked e)], k := 18, job := some e })
      (congrArg Host.Outcome.next ((begin_act hb _).trans ?_)) ⟨rfl, ⟨fun _ => rfl, fun _ => rfl⟩, fun _ _ => rfl⟩
    rw [hbad]

/-! ### The host's access -/

/-- A range that lies within the pages and within one region (R442). -/
def colFits (p f n : Nat) : Prop :=
  1 ≤ n ∧ n ≤ 1024 ∧ p ≤ 255 ∧ f ≤ 1023 ∧ p + (f + n - 1) / 1024 ≤ 255 ∧ regionOf p = regionOf (p + (f + n - 1) / 1024)

/-- The checks of R442 once the range fits: the region's lock, its password, then the pages. -/
theorem colCheck_fits {z : State} {e : Entry} {wr : Bool} (hbad : entryBad e (if wr then [2] else [2, 3]) false [(8, 24)] false = none)
    (hfit : colFits (e.p 8 2) (e.p 10 2) (e.p 12 4)) :
    z.colCheck e wr =
      (if nth false z.col.locked (regionOf (e.p 8 2)) || (wr && z.locked 6) then (z, some .lock)
       else
        let t := z.pwTry (regionOf (e.p 8 2)) (b2n wr) (e.p 24 8)
        if !t.2 then (t.1, some .lock)
        else if (pagesOf (e.p 8 2) (e.p 10 2) (e.p 12 4)).any (fun q => decide (228 ≤ q) || (wr && decide (224 ≤ q))) then (t.1, some .lock)
        else if (pagesOf (e.p 8 2) (e.p 10 2) (e.p 12 4)).any (fun q => z.busyPages.contains q) then (t.1, some .busy)
        else (t.1, none)) := by
  obtain ⟨h1, h2, h3, h4, h5, h6⟩ := hfit
  have hrange : (decide (e.p 12 4 = 0 ∨ e.p 12 4 > 1024 ∨ e.p 8 2 > 255 ∨ e.p 10 2 > 1023 ∨ e.p 8 2 + (e.p 10 2 + e.p 12 4 - 1) / 1024 > 255) ||
      regionOf (e.p 8 2) != regionOf (e.p 8 2 + (e.p 10 2 + e.p 12 4 - 1) / 1024)) = false := by
    rw [← h6]
    simpa using by omega
  unfold State.colCheck
  rw [hbad]
  dsimp only
  rw [hrange]
  rfl

theorem colCheck_range {z : State} {e : Entry} {wr : Bool} (hbad : entryBad e (if wr then [2] else [2, 3]) false [(8, 24)] false = none)
    (h : e.p 12 4 = 0 ∨ e.p 12 4 > 1024 ∨ e.p 8 2 > 255 ∨ e.p 10 2 > 1023) : z.colCheck e wr = (z, some .range) := by
  have hrange : (decide (e.p 12 4 = 0 ∨ e.p 12 4 > 1024 ∨ e.p 8 2 > 255 ∨ e.p 10 2 > 1023 ∨ e.p 8 2 + (e.p 10 2 + e.p 12 4 - 1) / 1024 > 255) ||
      regionOf (e.p 8 2) != regionOf (e.p 8 2 + (e.p 10 2 + e.p 12 4 - 1) / 1024)) = true := by
    rw [decide_eq_true (by omega)]
    rfl
  unfold State.colCheck
  rw [hbad]
  dsimp only
  rw [hrange]
  rfl

theorem pwTry_right {s : State} {r which v : Nat} (h : nth 0 s.col.pw (2 * r + which) = 0 ∨ nth 0 s.col.pw (2 * r + which) = v) :
    s.pwTry r which v = (s.withCol { s.col with tries := setNth s.col.tries r 0 }, true) := if_pos h

theorem pwTry_wrong {s : State} {r which v : Nat} (h0 : nth 0 s.col.pw (2 * r + which) ≠ 0) (h : nth 0 s.col.pw (2 * r + which) ≠ v) :
    s.pwTry r which v = (s.withCol { s.col with
      tries := setNth s.col.tries r (nth 0 s.col.tries r + 1)
      locked := if nth 0 s.col.tries r + 1 ≥ 8 then setNth s.col.locked r true else s.col.locked }, false) :=
  if_neg fun h' => h'.elim h0 h

theorem mem_pagesOf {p f n q : Nat} : q ∈ pagesOf p f n ↔ p ≤ q ∧ q < p + (f + n + 1023) / 1024 := by
  unfold pagesOf
  rw [List.mem_map]
  constructor
  · rintro ⟨i, hi, rfl⟩
    have := List.mem_range.mp hi
    omega
  · intro h
    exact ⟨q - p, List.mem_range.mpr (by omega), by omega⟩

/-- Settles O33: `colCheck_range` and `colCheck_fits`, then a password right or wrong. -/
theorem colophonAccessIsChecked : Obligations.ColophonAccessIsChecked := by
  unfold Obligations.ColophonAccessIsChecked
  intro s e z p f n r good pw once
  refine ⟨fun x hb hx => ?_, fun x data hb hx => ?_, fun x c hb hx => ?_, fun x c data hb hx => ?_, fun wr hbad h => colCheck_range hbad h, fun wr hg hl => ?_, fun wr hg hl h6 => ?_, ?_⟩
  · refine congrArg Host.Outcome.next ((begin_act hb _).trans ?_)
    rw [hx]
  · refine congrArg Host.Outcome.next ((begin_act hb _).trans ?_)
    rw [hx]
  · refine congrArg Host.Outcome.next ((begin_act hb _).trans ?_)
    rw [hx]
    rfl
  · refine congrArg Host.Outcome.next ((begin_act hb _).trans ?_)
    rw [hx]
    rfl
  · have hlock : nth false z.col.locked r = true := hl
    rw [colCheck_fits hg.1 hg.2, if_pos (by rw [hlock]; rfl)]
  · have hopen : ¬ (nth false z.col.locked r || (wr && z.locked 6)) = true := by
      have h1 : nth false z.col.locked r = false := hl
      have h2 : z.locked 6 = false := h6
      rw [h1, h2]
      simp
    have hcheck := (colCheck_fits (z := z) hg.1 hg.2).trans (if_neg hopen)
    have hn := hg.2.1
    refine ⟨fun h0 h => ?_, fun h hp hbusy hend => ?_, fun h hp => ?_⟩
    · rw [hcheck, pwTry_wrong (s := z) h0 h]
      rfl
    · have hlow : (pagesOf p f n).any (fun q => decide (228 ≤ q) || (wr && decide (224 ≤ q))) = false := by
        rw [List.any_eq_false]
        intro q hq
        have := mem_pagesOf.mp hq
        have h1 : ¬ 228 ≤ q := by omega
        have h2 : ¬ 224 ≤ q := by omega
        simp [h1, h2]
      have hidle : (pagesOf p f n).any (fun q => z.busyPages.contains q) = false := by
        have hz : z.busyPages = [] := hbusy
        rw [hz]
        simp
      rw [hcheck, pwTry_right (s := z) h]
      dsimp only
      rw [hlow, hidle]
      rfl
    · have hhigh : (pagesOf p f n).any (fun q => decide (228 ≤ q) || (wr && decide (224 ≤ q))) = true := by
        rw [List.any_eq_true]
        refine ⟨p, mem_pagesOf.mpr (by omega), ?_⟩
        rw [decide_eq_true hp]
        rfl
      rw [hcheck, pwTry_right (s := z) h]
      dsimp only
      rw [hhigh]
      rfl
  · intro value r' i hbad hgo hl hpw hbusy
    refine gives (t := ((s.withCol { s.col with tries := setNth s.col.tries r' 0 }).withCol { s.col with tries := setNth s.col.tries r' 0, pwBusy := true, pwFail := false }).colQueue
      { steps := [{ home := 37, recs := [(0, (setNth s.col.pw i s.col.pwNew).flatMap (fun p => leBytes 8 p))] }], k := 19, args := [i, s.col.pwNew] })
      (congrArg Host.Outcome.next ?_) ⟨rfl, ⟨fun _ => rfl, fun _ => rfl⟩, fun _ _ => rfl⟩
    rw [hbad]
    dsimp only
    rw [hgo, if_neg (by decide), if_neg (by rw [hl]; decide), pwTry_right hpw]
    dsimp only
    rw [if_neg (by decide), if_neg (by rw [show (s.withCol { s.col with tries := setNth s.col.tries r' 0 }).col.pwBusy = false from hbusy]; decide)]
    rfl

end Sys2Proof.Machine
end

section
/-!
PROOFS. Holdup energy, resets and what they keep, and the stages of the boot (R449 to R457, R508 to R520, R542, R543).
-/
open Sys2Proof Sys2Proof.Machine

namespace Sys2Proof.Machine

/-! ### Holdup energy -/

theorem modHld_frame (s : State) (f : HldSt → HldSt) : SameMemory s (s.modHld f) ∧ SameRegs s (s.modHld f) (fun _ => False) ∧ (s.modHld f).col = s.col :=
  ⟨⟨fun _ => rfl, fun _ => rfl⟩, fun _ _ => rfl, rfl⟩

/-- The node's voltage, the energy that follows it (R450), and nothing else. -/
theorem nodeAt_spec (s : State) (mv : Nat) : let t := s.nodeAt mv
    (t.hld.vhold = mv ∧ (mv ≤ 2000 → t.hld.eusable = 0) ∧
      (mv > 2000 → let e := s.hld.cap * 475 * (mv * mv - 4000000)
        t.hld.eusable = satNat 16 (e / 1000000000) ∨ (e % 1000000000 ≠ 0 ∧ t.hld.eusable = satNat 16 (e / 1000000000 + 1)))) ∧
      t.hld.st = s.hld.st ∧ SameMemory s t ∧ SameRegs s t (fun _ => False) ∧ t.col = s.col := by
  obtain ⟨x, hx, hlow, hhigh⟩ := energy_spec s mv
  unfold State.nodeAt
  rw [hx]
  exact ⟨⟨rfl, hlow, hhigh⟩, rfl, ⟨fun _ => rfl, fun _ => rfl⟩, fun _ _ => rfl, rfl⟩

/-- What a fall of VDD_AON leaves of the Colophon: a step in progress new, or new up to a point (R436, R452). -/
def State.fallMem (s : State) (written a : Nat) (bs : List Byte) (pg : Nat) : FMap Byte :=
  colPut s.col.mem a (if 4 * (if pg = 0 then 4 else 60 * pg) ≤ s.eusable then bs else bs.take written ++ List.replicate (bs.length - written) 0xFF#8)

theorem vddAonFall_exec {s : State} (hp : s.powered = true) (written : Nat) : ∃ m, exec (.vddAonFall written) s = .next ((s.withCol { s.col with mem := m }).powerOff) ∧
    (s.col.queue = [] → m = s.col.mem) ∧ (∀ w r a bs pg, s.col.queue = w :: r → w.active = some (a, bs, pg) → m = s.fallMem written a bs pg) := by
  have hoff : ¬ (!s.powered) = true := by simpa using hp
  have hexec : ∀ m, (match s.col.queue with
        | w :: _ => match w.active with
          | some (a, bs, pg) => s.withCol { s.col with mem := s.fallMem written a bs pg }
          | none => s
        | [] => s) = s.withCol { s.col with mem := m } → exec (.vddAonFall written) s = .next ((s.withCol { s.col with mem := m }).powerOff) := fun m h =>
    congrArg Host.Outcome.next ((if_neg hoff).trans (congrArg State.powerOff h))
  cases hq : s.col.queue with
  | nil => exact ⟨s.col.mem, hexec _ (by rw [hq]; rfl), fun _ => rfl, fun w r a bs pg h => absurd h.symm (List.cons_ne_nil w r)⟩
  | cons w r =>
    cases ha : w.active with
    | none =>
      refine ⟨s.col.mem, hexec _ (by rw [hq]; dsimp only; rw [ha]; rfl), fun _ => rfl, fun w' r' a bs pg h h' => ?_⟩
      cases h
      rw [ha] at h'
      cases h'
    | some x =>
      obtain ⟨a, bs, pg⟩ := x
      refine ⟨s.fallMem written a bs pg, hexec _ (by rw [hq]; dsimp only; rw [ha]), fun h => absurd h (List.cons_ne_nil w r), fun w' r' a' bs' pg' h h' => ?_⟩
      cases h
      rw [ha] at h'
      cases h'
      rfl

/-- Settles O34: `nodeAt_spec` for the node, `vddAonFall_exec` for the fall of the supply. -/
theorem holdupEnergyIsManaged : Obligations.HoldupEnergyIsManaged := by
  unfold Obligations.HoldupEnergyIsManaged
  intro s mv hp kept
  have hon : (!s.powered) = false := by rw [hp]; rfl
  refine ⟨fun micros reached hm => ?_, fun hm => ?_, fun value hbad hgo => ⟨fun hq hm => ?_, fun hq => ?_⟩, fun written => ?_⟩
  · refine gives (congrArg Host.Outcome.next (if_neg ?_)) ⟨rfl, ?_, rfl, fun hbad => ?_, fun hr hlow => ?_, fun hr hlow hhigh => ?_, modHld_frame _ _⟩
    · rw [hon, hm]
      decide
    · cases hup : Config.roundUp s.draw.2 with
      | false => exact Or.inl (by simp [State.modHld, hup])
      | true =>
        by_cases h0 : micros % 100 = 0
        · exact Or.inl (by simp [State.modHld, h0])
        · exact Or.inr ⟨h0, by simp [State.modHld, hup, h0]⟩
    · have hb : (!reached || decide (micros > 540000)) = true := by
        rcases hbad with h | h
        · rw [decide_eq_true h, Bool.or_true]
        · rw [h]
          rfl
      simp [State.modHld, hb]
    · have h1 : ¬ micros > 540000 := by omega
      simp [State.modHld, hr, hlow, h1]
    · have h1 : ¬ micros > 540000 := by omega
      have h2 : ¬ micros < 25000 := by omega
      simp [State.modHld, hr, h1, h2]
  · obtain ⟨hfollow, hst, hkept⟩ := nodeAt_spec s mv
    refine ⟨?_, fun h0 hv => ?_, fun h1 hv hg hb => ?_⟩
    · refine gives (t := s.nodeAt mv) (congrArg Host.Outcome.next (if_neg ?_)) ⟨hfollow, hst, hkept⟩
      rw [hon, hm]
      decide
    · refine gives (t := (s.nodeAt mv).modHld (fun h => { h with st := 1 })) (congrArg Host.Outcome.next (if_neg ?_)) ⟨hfollow, rfl, hkept⟩
      rw [hon, hm, h0]
      simpa using hv
    · refine gives (t := (s.nodeAt mv).modHld (fun h => { h with st := 3, why := 2 })) (congrArg Host.Outcome.next (if_neg ?_)) ⟨hfollow, rfl, rfl, hkept⟩
      rw [hon, hm, h1, hg, hb]
      simpa using hv
  · refine gives (t := s.modHld (fun h => { h with measuring := true })) (congrArg Host.Outcome.next ((regWrite_ok hbad rfl ?_).trans (if_pos hgo))) ⟨rfl, modHld_frame _ _⟩
    rw [hgo, hq, hm]
    rfl
  · refine congrArg Host.Outcome.next (regWrite_bad ?_)
    rw [hbad, hgo]
    cases h : s.col.queue with
    | nil => exact absurd h hq
    | cons w r => rfl
  · obtain ⟨m, hexec, hidle, hstep⟩ := vddAonFall_exec hp written
    refine gives hexec ⟨rfl, rfl, rfl, fun _ hq => hidle hq, fun w r a bs pg hq ha => ⟨fun he => ?_, fun he => ?_⟩⟩
    · exact (hstep w r a bs pg hq ha).trans (congrArg (colPut s.col.mem a) (if_pos he))
    · exact (hstep w r a bs pg hq ha).trans (congrArg (colPut s.col.mem a) (if_neg (Nat.not_le.mpr he)))

/-! ### Resets -/

/-- A reset leaves what survives it, the Colophon, the holdup controller, the converters and the flash (R512). -/
theorem resetCore_spec (s : State) (locks : Bool) : let t := s.resetCore locks
    (∀ off, t.rd off = if survives locks off then s.rd off else (wordReset off).toNat) ∧ t.ctxs = [] ∧ t.ops = [] ∧ t.jobs = [] ∧ t.queues = [] ∧ t.reports = [] ∧
      t.col.mem = s.col.mem ∧ t.col.hours = s.col.hours ∧ t.hld = s.hld ∧ t.hkc = s.hkc ∧ t.sec.flash = s.sec.flash ∧ t.host.writes = s.host.writes :=
  ⟨resetCore_rd s locks, rfl, rfl, rfl, rfl, rfl, rfl, rfl, rfl, rfl, rfl, rfl⟩

/-- A start at stage 2 with the role kept (R489). -/
theorem restart_spec (u : State) (role : Nat) : let t := ((u.takeRole role).modSec (fun x => { x with cause := 2 })).stageTwo
    t.thm = u.thm ∧ t.sec.stage = 2 ∧ t.sec.role = role ∧ t.sec.cause = 2 ∧ t.reg .sec 0 0x40 = u.reg .sec 0 0x40 := by
  intro t
  have hthm : (u.takeRole role).thm = u.thm := takeRole_keep (fun s => s.thm) (fun _ _ => rfl) (fun _ _ _ => rfl) u role
  have hsec : (u.takeRole role).sec = { u.sec with role := role } := takeRole_keep (fun s => s.sec) (fun _ _ => rfl) (fun _ _ _ => rfl) u role
  have hregs : (u.takeRole role).regs = u.regs := takeRole_keep (fun s => s.regs) (fun _ _ => rfl) (fun _ _ _ => rfl) u role
  refine ⟨hthm, rfl, ?_, rfl, ?_⟩
  · exact congrArg SecSt.role hsec
  · refine (stageTwo_rd _ _).trans ((if_neg (by decide)).trans ?_)
    exact congrArg (fun m => BitVec.toNat (FMap.get (wordReset (rOff .sec 0 0x40)) m (rOff .sec 0 0x40))) hregs

/-- Settles O35: `resetCore_spec` for what a reset keeps, `start_spec` and `restart_spec` for what follows. -/
theorem resetsKeepWhatIsRetained : Obligations.ResetsKeepWhatIsRetained := by
  unfold Obligations.ResetsKeepWhatIsRetained
  intro s gone starts
  refine ⟨fun hp => ?_, fun hpe hp hs => ?_, fun hpe hp hs => ?_, fun role hp hpe hs hr => ?_, fun hp hpe hr hs => ?_, fun role hp hr hpe => ?_, fun hp hs hc hpe => ?_⟩
  · exact gives (congrArg Host.Outcome.next (if_neg (by rw [hp]; decide))) ⟨rfl, rfl, fun _ _ => rfl⟩
  · refine gives (t := (((s.withPerst true).resetCore false).modSec (fun x => { x with cause := 1 })).modThm (fun t => { t with shutdown := 0, tripN := true }))
      (congrArg Host.Outcome.next ((if_neg (by rw [hpe]; decide)).trans (if_neg ?_))) ⟨rfl, rfl, rfl, resetCore_spec (s.withPerst true) false⟩
    rw [hp]
    simpa using hs
  · exact congrArg Host.Outcome.next ((if_neg (by rw [hpe]; decide)).trans (if_pos (Or.inr hs)))
  · have hexec : exec (.perstNRelease role) s = .next (((s.withPerst false).withTap { s.tap with ir := if s.tap.ir = 0 ∨ s.tap.ir = 3 ∨ s.tap.ir = 4 then 0xFF else s.tap.ir }).start role) := by
      refine congrArg Host.Outcome.next ((if_neg ?_).trans (if_neg ?_))
      · rw [hp, hpe]
        decide
      · have h1 : s.thm.shutdown = 0 ∧ s.railOk = true := ⟨hs, hr⟩
        rintro (h | h)
        · exact h h1.1
        · exact absurd (h1.2.symm.trans (by simpa using h)) (by decide)
    obtain ⟨h1, h2, h3, h4, h5, h6, -, -⟩ := start_spec ((s.withPerst false).withTap { s.tap with ir := if s.tap.ir = 0 ∨ s.tap.ir = 3 ∨ s.tap.ir = 4 then 0xFF else s.tap.ir }) role
    exact gives hexec ⟨h6, h1, h2, h3, h4, h5⟩
  · refine gives (t := ((s.withRailOk false).resetCore false).modSec (fun x => { x with cause := 0 })) (congrArg Host.Outcome.next (if_neg ?_)) ⟨rfl, rfl, resetCore_spec (s.withRailOk false) false⟩
    rw [hp, hpe, hr, hs]
    decide
  · have hexec : exec (.railRecovery role) s = .next (((s.withRailOk true).modSec (fun x => { x with cause := 0 })).start role) := by
      refine congrArg Host.Outcome.next ((if_neg ?_).trans (if_neg ?_))
      · rw [hp, hr]
        decide
      · exact fun h => absurd (hpe.symm.trans h) (by decide)
    obtain ⟨h1, h2, h3, h4, h5, -, h7, h8⟩ := start_spec ((s.withRailOk true).modSec (fun x => { x with cause := 0 })) role
    exact gives hexec ⟨h7, h8, h1, h2, h3, h4, h5⟩
  · have hlive : ¬ ((!s.powered) = true ∨ s.thm.shutdown ≠ 1 ∨ s.thm.cool < 10) := by
      rw [hp, hs]
      simpa using hc
    have hperst : ¬ s.perst = true := by rw [hpe]; decide
    refine gives (congrArg Host.Outcome.next ((if_neg hlive).trans (if_neg hperst))) ?_
    obtain ⟨h1, h2, h3, h4, h5⟩ := restart_spec ({ s.modThm (fun t => { t with shutdown := 0, tripN := true, cool := 0, restarts := satNat 16 (t.restarts + 1) }) with
      doms := FMap.mapVals {} (fun _ (d : Dom) => { offs := d.offs }) s.doms }) s.sec.role
    exact ⟨congrArg ThmSt.shutdown h1, congrArg ThmSt.tripN h1, h2, h3, h4, h5⟩

/-! ### Boot stages -/

/-- Stage 5 with the active slot's image good, with the other slot's good, or with neither (R519, R520). -/
theorem stageFive_active {s : State} (h : (s.trySlot s.fwDir.1.active).2.2 = none) :
    s.stageFive = (s.trySlot s.fwDir.1.active).1.bootImage s.fwDir.1.active (s.trySlot s.fwDir.1.active).2.1 := by
  unfold State.stageFive
  dsimp only
  rw [h]

theorem stageFive_other {s : State} {c : Code} (h : (s.trySlot s.fwDir.1.active).2.2 = some c) (hb : bit s.fwDir.1.staged (1 - s.fwDir.1.active) = true)
    (h2 : ((s.trySlot s.fwDir.1.active).1.trySlot (1 - s.fwDir.1.active)).2.2 = none) :
    s.stageFive = ((s.trySlot s.fwDir.1.active).1.trySlot (1 - s.fwDir.1.active)).1.bootImage (1 - s.fwDir.1.active)
      ((s.trySlot s.fwDir.1.active).1.trySlot (1 - s.fwDir.1.active)).2.1 := by
  unfold State.stageFive
  dsimp only
  rw [h]
  dsimp only
  rw [hb, if_pos rfl, h2]

theorem stageFive_neither {s : State} {c : Code} (h : (s.trySlot s.fwDir.1.active).2.2 = some c) (hb : bit s.fwDir.1.staged (1 - s.fwDir.1.active) = false) :
    s.stageFive = (s.trySlot s.fwDir.1.active).1.modSec (fun x => { x with
      fail := true, recovery := true, bcode := c.num, active := s.fwDir.1.active, dirCopy := s.fwDir.2 }) := by
  unfold State.stageFive
  dsimp only
  rw [h]
  dsimp only
  rw [hb, if_neg (by decide)]

/-- Settles O36: the stage in progress decides; stage 5 by its three lemmas. -/
theorem bootStagesFollow : Obligations.BootStagesFollow := by
  unfold Obligations.BootStagesFollow
  intro s hp hpe hr hs hf goes
  have hruns : ¬ ((!s.powered) = true ∨ s.perst = true ∨ (!s.railOk) = true ∨ s.thm.shutdown ≠ 0 ∨ s.sec.fail = true) := by
    rw [hp, hpe, hr, hs, hf]
    decide
  refine ⟨fun hn => ?_, fun hn hscal => ?_, fun hn hb hpl => ?_, fun hn hb hpl => ?_, fun hn => ?_, fun hn => ⟨fun h => ?_, fun c h hst h2 => ?_, fun c h hst => ?_⟩,
    fun hn => ?_, fun hn hlp => ?_, fun hn hdue => ?_, fun hn => ?_⟩
  · refine gives (t := s.stageTwo) (congrArg Host.Outcome.next ((if_neg hruns).trans ?_)) ⟨rfl, rfl, fun h => ?_⟩
    · rw [hn]
      rfl
    · show (s.hld.measuring || s.hld.st != 1) = true
      simp [h]
  · refine gives (t := s.modSec (fun x => { x with stage := 3 })) (congrArg Host.Outcome.next ((if_neg hruns).trans ?_)) ⟨rfl, hf⟩
    rw [hn]
    exact if_neg (by rw [hscal]; decide)
  · have hthree : s.stageThree = (s.modSec (fun x => { x with fail := true, bcode := Code.digest.num })).modPage 0 (fun h => { h with errCode := Code.digest.num, errOff := 0 }) :=
      if_pos (by rw [hpl]; rfl)
    refine gives (congrArg Host.Outcome.next ((if_neg hruns).trans (Eq.trans ?_ hthree))) ⟨hn, rfl, rfl⟩
    rw [hn]
    exact if_neg (by rw [hb]; decide)
  · have hthree : s.stageThree = s.mount.modSec (fun x => { x with stage := 4 }) := if_neg (by simpa using hpl)
    refine gives (congrArg Host.Outcome.next ((if_neg hruns).trans (Eq.trans ?_ hthree))) rfl
    rw [hn]
    exact if_neg (by rw [hb]; decide)
  · refine gives (t := s.stageFour) (congrArg Host.Outcome.next ((if_neg hruns).trans ?_)) rfl
    rw [hn]
    rfl
  · refine gives (congrArg Host.Outcome.next ((if_neg hruns).trans (Eq.trans ?_ (stageFive_active h)))) ?_
    · rw [hn]
      rfl
    · rw [bootImage_sec, trySlot_flash]
      exact ⟨rfl, rfl, by simp, rfl⟩
  · refine gives (congrArg Host.Outcome.next ((if_neg hruns).trans (Eq.trans ?_ (stageFive_other h hst h2)))) ?_
    · rw [hn]
      rfl
    · rw [bootImage_sec]
      exact ⟨rfl, rfl, rfl⟩
  · refine gives (congrArg Host.Outcome.next ((if_neg hruns).trans (Eq.trans ?_ (stageFive_neither h hst)))) ⟨rfl, rfl, rfl⟩
    rw [hn]
    rfl
  · refine gives (t := s.modSec (fun x => { x with stage := 7 })) (congrArg Host.Outcome.next ((if_neg hruns).trans ?_)) ⟨rfl, hf⟩
    rw [hn]
    rfl
  · refine gives (t := s.stageSeven.stageEight) (congrArg Host.Outcome.next ((if_neg hruns).trans ?_)) ⟨rfl, rfl⟩
    rw [hn]
    refine if_neg fun h => ?_
    obtain ⟨ch, hch, hwait⟩ := List.any_eq_true.mp h
    have hch' : ch ≤ 1 := by
      simp only [List.mem_cons, List.not_mem_nil, or_false] at hch
      omega
    rcases hlp ch hch' with h1 | h1
    · simp [h1] at hwait
    · simp [h1] at hwait
  · refine gives (t := s.modSec (fun x => { x with stage := 9 })) (congrArg Host.Outcome.next ((if_neg hruns).trans ?_)) ⟨rfl, hf⟩
    rw [hn]
    exact if_neg (by rw [hdue]; decide)
  · refine gives (t := s.stageTen) (congrArg Host.Outcome.next ((if_neg hruns).trans ?_)) rfl
    rw [hn]
    rfl

end Sys2Proof.Machine
end

section
/-!
PROOFS. The thermal supervisor and its shutdown, quadrant frequencies, crossings and power domains (R479 to R502).
-/
open Sys2Proof Sys2Proof.Machine

namespace Sys2Proof.Machine

theorem modThm_frame (s : State) (f : ThmSt → ThmSt) : SameMemory s (s.modThm f) ∧ SameRegs s (s.modThm f) (fun _ => False) :=
  ⟨⟨fun _ => rfl, fun _ => rfl⟩, fun _ _ => rfl⟩

/-! ### Readings of the diode -/

/-- The arrays' triggers are judged without touching the supervisor or a byte of memory. -/
theorem evalTriggers_fold_keep {β : Type} (g : State → β) (h1 : ∀ s k x, g (State.setArr s k x) = g s) (h2 : ∀ s k x, g (State.setCtx s k x) = g s) (l : List Nat) (s : State) :
    g (l.foldl (fun s k => s.evalTriggers k) s) = g s := foldl_keep g _ (fun s k => evalTriggers_keep g h1 h2 s k) l s

theorem thmEnter_mem (s : State) (n : Nat) : SameMemory s (s.thmEnter n) :=
  ⟨fun a => thmEnter_keep (fun s => s.memByte a) (fun _ _ => rfl) (fun _ _ _ => rfl) s n, fun a => thmEnter_keep (fun s => s.lpByte a) (fun _ _ => rfl) (fun _ _ _ => rfl) s n⟩

theorem thmPublish_mem (s : State) (n : Nat) : SameMemory s (s.thmPublish n) :=
  ⟨fun a => thmPublish_keep (fun s => s.memByte a) (fun _ _ => rfl) s n, fun a => thmPublish_keep (fun s => s.lpByte a) (fun _ _ => rfl) s n⟩

theorem thmPublish_regs (s : State) (n : Nat) : SameRegs s (s.thmPublish n) (fun _ => False) := fun k _ => thmPublish_keep (fun s => s.rd k) (fun _ _ => rfl) s n

/-- A good reading while the diode is not faulty: the reading, its peak, and the next state (R481). -/
theorem goodReading_spec {s : State} (hf : s.thm.flt = 0) (q : Int) : let t := s.goodReading q
    t.thm.temp = q ∧ t.thm.valid = true ∧ t.thm.bad = 0 ∧ t.thm.peak = (if s.thm.peakSet then max s.thm.peak q else q) ∧
      t.thm.st = thmNext s.thm.st q ∧ t.thm.pub = s.thm.pub ∧ SameMemory s t := by
  have hgood : ∃ u : State, s.goodReading q = u.thmEnter (thmNext s.thm.st q) ∧ u.thm.temp = q ∧ u.thm.valid = true ∧ u.thm.bad = 0 ∧
      u.thm.peak = (if s.thm.peakSet then max s.thm.peak q else q) ∧ u.thm.pub = s.thm.pub ∧ SameMemory s u := by
    unfold State.goodReading
    dsimp only
    generalize (if s.thm.shutdown = 1 ∧ q < 360 then s.thm.cool + 1 else 0) = cool
    rw [if_neg (fun h => h.1 hf), if_neg (by simp [State.modThm, hf])]
    exact ⟨_, rfl, rfl, rfl, rfl, rfl, rfl, fun _ => rfl, fun _ => rfl⟩
  obtain ⟨u, hu, h1, h2, h3, h4, h5, hm⟩ := hgood
  intro t
  have ht : t = u.thmEnter (thmNext s.thm.st q) := hu
  rw [ht]
  refine ⟨?_, ?_, ?_, ?_, thmEnter_st _ _, ?_, hm.trans (thmEnter_mem _ _)⟩
  · exact (thmEnter_part ThmSt.temp (fun _ _ _ _ _ => rfl) _ _).trans h1
  · exact (thmEnter_part ThmSt.valid (fun _ _ _ _ _ => rfl) _ _).trans h2
  · exact (thmEnter_part ThmSt.bad (fun _ _ _ _ _ => rfl) _ _).trans h3
  · exact (thmEnter_part ThmSt.peak (fun _ _ _ _ _ => rfl) _ _).trans h4
  · exact (thmEnter_part ThmSt.pub (fun _ _ _ _ _ => rfl) _ _).trans h5

theorem badReading_first {s : State} {k : Nat} (h : s.thm.bad ≠ k) :
    s.badReading k = s.modThm (fun t => { t with bad := k, good := 0, cool := 0, flt := t.flt, valid := t.valid && !false }) := by
  have hk : (s.thm.bad == k) = false := by simpa using h
  unfold State.badReading
  rw [hk]
  rfl

theorem badReading_second {s : State} {k : Nat} (h : s.thm.bad = k) :
    s.badReading k = (s.modThm (fun t => { t with bad := k, good := 0, cool := 0, flt := k, valid := t.valid && !true })).thmEnter 3 := by
  have hk : (s.thm.bad == k) = true := by simpa using h
  unfold State.badReading
  rw [hk]
  rfl

/-- SENSOR FAULT is entered: enforcement at once, and its entries counted (R481, R485). -/
theorem thmEnter_fault {s : State} (h : s.thm.st ≠ 3) :
    (s.thmEnter 3).thm.enforced = true ∧ (s.thmEnter 3).reg .thm 0 0x60 = satNat 32 (s.reg .thm 0 0x60 + 1) := by
  have hthm : ∀ (u : State) t i o n, (u.bump t i o n).thm = u.thm := fun u t i o n => bump_keep (fun s => s.thm) (fun _ _ _ => rfl) u t i o n
  unfold State.thmEnter
  rw [if_neg (Ne.symm h)]
  dsimp only
  rw [if_neg (by decide), if_neg (by decide), if_pos rfl]
  refine ⟨?_, ?_⟩
  · rw [hthm, hthm]
    rfl
  · exact (reg_bump_other _ _ _ _ _ _ (by decide)).trans (reg_bump_same _ _ _ _ _ (by decide))

theorem diodeReading_bad {s : State} {d : Diode} (hp : s.powered = true) (hd : diodeFault d ≠ 0) :
    exec (.diodeReading d) s = .next ((s.badReading (diodeFault d)).thmPublish s.thm.st) :=
  congrArg Host.Outcome.next ((if_neg (by rw [hp]; decide)).trans (if_pos hd))

theorem diodeReading_good {s : State} {q : Int} (hp : s.powered = true) (h1 : -240 ≤ q) (h2 : q ≤ 640) :
    ∃ l : List Nat, exec (.diodeReading (.temp q)) s = .next (l.foldl (fun s k => s.evalTriggers k) ((s.goodReading q).thmPublish s.thm.st)) := by
  have hq : ¬ diodeFault (.temp q) ≠ 0 := not_not_intro (if_neg (by omega))
  exact ⟨_, congrArg Host.Outcome.next ((if_neg (by rw [hp]; decide)).trans (if_neg hq))⟩

/-- Settles O38: `goodReading_spec` for a good reading, `badReading_first` and `badReading_second` for a bad one. -/
theorem theDieTemperatureIsSupervised : Obligations.TheDieTemperatureIsSupervised := by
  unfold Obligations.TheDieTemperatureIsSupervised
  intro s hp
  refine ⟨fun q h1 h2 hf => ?_, fun d hd => ⟨fun hb => ?_, fun hb hst => ?_⟩, fun hst hg => ?_⟩
  · obtain ⟨l, hexec⟩ := diodeReading_good hp h1 h2
    obtain ⟨htemp, hvalid, hbad, hpeak, hst, hpub, hmem⟩ := goodReading_spec hf q
    refine gives hexec ?_
    have hthm := (evalTriggers_fold_keep (fun s => s.thm) (fun _ _ _ => rfl) (fun _ _ _ => rfl) l ((s.goodReading q).thmPublish s.thm.st)).trans (thmPublish_thm _ _)
    have hm : SameMemory s (l.foldl (fun s k => s.evalTriggers k) ((s.goodReading q).thmPublish s.thm.st)) := (hmem.trans (thmPublish_mem _ _)).trans
      ⟨fun a => evalTriggers_fold_keep (fun s => s.memByte a) (fun _ _ _ => rfl) (fun _ _ _ => rfl) l _,
        fun a => evalTriggers_fold_keep (fun s => s.lpByte a) (fun _ _ _ => rfl) (fun _ _ _ => rfl) l _⟩
    generalize l.foldl (fun s k => s.evalTriggers k) ((s.goodReading q).thmPublish s.thm.st) = t at hthm hm ⊢
    generalize s.goodReading q = u at htemp hvalid hbad hpeak hst hpub hthm
    rw [hthm]
    dsimp only
    rw [hst, htemp, hvalid, hbad, hpeak, hpub]
    unfold thmNext
    refine ⟨rfl, rfl, rfl, rfl, fun h => if_pos h, fun h h' => ?_, fun h h' => ?_, fun h h' h'' => ?_, fun h h' h'' => ?_, fun h h' h'' => ?_, fun h => ?_, rfl, hm⟩
    · split
      · rfl
      · exact if_pos ⟨h', h⟩
    · rw [if_neg (by omega), if_neg (by omega), if_pos h]
    · rw [if_neg (by omega), if_neg (by omega), if_pos (by omega)]
    · rw [if_neg (by omega), if_neg (by omega), if_neg (by omega), if_pos ⟨h'', h⟩]
    · rw [if_neg (by omega), if_neg (by omega), if_neg (by omega), if_neg (by omega)]
    · rw [if_neg (by omega), if_neg (by omega), if_neg (by omega), if_neg (by omega)]
  · have hexec := diodeReading_bad hp hd
    rw [badReading_first hb] at hexec
    refine gives hexec ?_
    rw [thmPublish_thm]
    exact ⟨rfl, rfl, rfl, rfl, (modThm_frame _ _).1.trans (thmPublish_mem _ _), thmPublish_regs _ _⟩
  · have hexec := diodeReading_bad hp hd
    rw [badReading_second hb] at hexec
    refine gives hexec ?_
    have hframe := modThm_frame s (fun t => { t with bad := diodeFault d, good := 0, cool := 0, flt := diodeFault d, valid := t.valid && !true })
    have hflt : (s.modThm (fun t => { t with bad := diodeFault d, good := 0, cool := 0, flt := diodeFault d, valid := t.valid && !true })).thm.flt = diodeFault d := rfl
    have hvalid : (s.modThm (fun t => { t with bad := diodeFault d, good := 0, cool := 0, flt := diodeFault d, valid := t.valid && !true })).thm.valid = false := Bool.and_false _
    have hst' : (s.modThm (fun t => { t with bad := diodeFault d, good := 0, cool := 0, flt := diodeFault d, valid := t.valid && !true })).thm.st ≠ 3 := hst
    generalize s.modThm (fun t => { t with bad := diodeFault d, good := 0, cool := 0, flt := diodeFault d, valid := t.valid && !true }) = u at hframe hflt hvalid hst' ⊢
    obtain ⟨henf, hcnt⟩ := thmEnter_fault hst'
    rw [thmPublish_thm]
    refine ⟨?_, ?_, thmEnter_st u 3, henf, ?_, (hframe.1.trans (thmEnter_mem u 3)).trans (thmPublish_mem _ _)⟩
    · exact (thmEnter_part ThmSt.flt (fun _ _ _ _ _ => rfl) u 3).trans hflt
    · exact (thmEnter_part ThmSt.valid (fun _ _ _ _ _ => rfl) u 3).trans hvalid
    · refine (thmPublish_regs _ _ _ id).trans (hcnt.trans ?_)
      rw [State.reg_eq, hframe.2 _ id]
      rfl
  · refine gives (t := (s.modThm (fun t => { t with grace := false, enforced := true })).bump .thm 0 0x64 1) (congrArg Host.Outcome.next (if_pos ⟨hst, hg⟩)) ⟨?_, ?_, ?_, fun k hk => ?_⟩
    · exact bump_keep (fun s => s.thm) (fun _ _ _ => rfl) _ _ _ _ _
    · exact reg_bump_same _ _ _ _ _ (by decide)
    · exact (modThm_frame s _).1.trans (bump_mem _ _ _ _ _)
    · exact State.rd_bump_other _ _ _ _ _ _ hk

/-! ### Shutdown -/

/-- Settles O39: both shutdowns are `shutDown_spec`; the two writes are checked and then stored. -/
theorem theDeviceShutsDownWhenTooHot : Obligations.TheDeviceShutsDownWhenTooHot := by
  unfold Obligations.TheDeviceShutsDownWhenTooHot
  intro s down
  refine ⟨fun hp hs => gives rfl (shutDown_spec s 1 hp hs), fun hp hs hst hf => gives (congrArg Host.Outcome.next (if_pos ⟨hst, hf⟩)) (shutDown_spec s 2 hp hs),
    fun value hbad hgo => ?_, fun value hbad => ⟨fun hopen => ?_, fun hl hv => ?_⟩⟩
  · exact gives (congrArg Host.Outcome.next ((regWrite_ok hbad rfl rfl).trans (if_pos hgo))) ⟨rfl, modThm_frame s _⟩
  · have hlock : (bit (s.rd (rOff .thm 0 0x44)) 31 && (!bit value.toNat 31 || decide (bits value.toNat 6 0 > bits (s.rd (rOff .thm 0 0x44)) 6 0))) = false := by
      rcases hopen with h | ⟨h1, h2⟩
      · rw [show bit (s.rd (rOff .thm 0 0x44)) 31 = false from h]
        rfl
      · rw [h1, decide_eq_false (show ¬ bits value.toNat 6 0 > bits (s.rd (rOff .thm 0 0x44)) 6 0 from Nat.not_lt.mpr h2)]
        exact Bool.and_false _
    refine gives (t := s.wr (rOff .thm 0 0x44) value.toNat) (congrArg Host.Outcome.next (regWrite_ok hbad hlock rfl)) ⟨?_, rfl, wr_memory _ _ _, fun k hk => ?_⟩
    · exact (State.rd_wr _ _ _ _).trans ((if_pos rfl).trans (Nat.mod_eq_of_lt value.isLt))
    · exact (State.rd_wr _ _ _ _).trans (if_neg hk)
  · refine congrArg Host.Outcome.next (regWrite_bad ?_)
    have hlock : (bit (s.rd (rOff .thm 0 0x44)) 31 && (!bit value.toNat 31 || decide (bits value.toNat 6 0 > bits (s.rd (rOff .thm 0 0x44)) 6 0))) = true := by
      rw [show bit (s.rd (rOff .thm 0 0x44)) 31 = true from hl]
      rcases hv with h | h
      · rw [h]
        rfl
      · rw [decide_eq_true (show bits value.toNat 6 0 > bits (s.rd (rOff .thm 0 0x44)) 6 0 from h), Bool.or_true]
        rfl
    rw [hbad, hlock]
    rfl

/-! ### Quadrants and crossings -/

/-- QFREQ's fold over the quadrants. -/
def State.qfreqFold (s : State) (v : Nat) : State :=
  (List.range 4).foldl (fun s n => if bits v (8 * n + 7) (8 * n) = s.quad n then s else s.withQfreq (FMap.put 80 s.qfreq n (s.quad n % 256 + 256))) s

theorem qfreqFold_keep {β : Type} (g : State → β) (h : ∀ s m, g (State.withQfreq s m) = g s) (s : State) (v : Nat) : g (s.qfreqFold v) = g s := by
  refine foldl_keep g _ (fun s n => ?_) _ s
  split
  · rfl
  · exact h _ _

/-- A pair's closing seen from one side (R496). -/
def Xng.close (x : Xng) : Xng := if x.closed then x else { x with closed := true, closes := satNat 32 (x.closes + 1) }

theorem Xng.close_spec (x : Xng) : x.close.closed = true ∧ x.close.lost = x.lost ∧ x.close.merged = x.merged ∧ x.close.dropw = x.dropw ∧
    x.close.closes = (if x.closed then x.closes else satNat 32 (x.closes + 1)) := by
  unfold Xng.close
  cases h : x.closed with
  | true => exact ⟨h, rfl, rfl, rfl, rfl⟩
  | false => exact ⟨rfl, rfl, rfl, rfl, rfl⟩

/-- Settles O40: `quad_fold` for the quadrants, `xng_mod` for each side of a pair. -/
theorem quadrantsRelockAndCrossingsClose : Obligations.QuadrantsRelockAndCrossingsClose := by
  unfold Obligations.QuadrantsRelockAndCrossingsClose
  refine ⟨fun s => ⟨fun value hbad => ?_, fun n hn hr hb => ?_⟩, fun s a b hab => ?_⟩
  · have hquad : ∀ n, (s.regPut (rOff .pwr 0 0x50) value.toNat).quad n = s.quad n := fun n =>
      regPut_keep (fun s => s.quad n) (fun _ _ => rfl) (fun _ _ => rfl) (fun _ _ _ => rfl) (fun _ _ _ => rfl) s _ _
    have hmem := regPut_mem s (rOff .pwr 0 0x50) value.toNat
    have hrd := regPut_plain (s := s) (v := value.toNat) plain_qfreq
    refine gives (t := (s.regPut (rOff .pwr 0 0x50) value.toNat).qfreqFold value.toNat) (congrArg Host.Outcome.next (regWrite_ok hbad rfl rfl)) ?_
    generalize s.regPut (rOff .pwr 0 0x50) value.toNat = u at hquad hmem hrd ⊢
    have hrd' : ∀ k, (u.qfreqFold value.toNat).rd k = u.rd k := fun k => qfreqFold_keep (fun s => s.rd k) (fun _ _ => rfl) u _
    refine ⟨fun n hn => ?_, ?_, ?_, fun k hk => ?_⟩
    · refine (quad_fold value.toNat (List.range 4) u n List.nodup_range).trans ?_
      rw [if_pos (List.mem_range.mpr hn), hquad]
    · exact (hrd' _).trans ((hrd _).trans ((if_pos rfl).trans (Nat.mod_eq_of_lt value.isLt)))
    · exact hmem.trans ⟨fun a => qfreqFold_keep (fun s => s.memByte a) (fun _ _ => rfl) u _, fun a => qfreqFold_keep (fun s => s.lpByte a) (fun _ _ => rfl) u _⟩
    · exact (hrd' k).trans ((hrd k).trans (if_neg hk))
  · refine gives (t := s.withQfreq (FMap.put 80 s.qfreq n (bits (s.reg .pwr 0 0x50) (8 * n + 7) (8 * n)))) (congrArg Host.Outcome.next (if_neg ?_))
      ⟨FMap.get_put_same _ _ _ _, fun j hj => FMap.get_put_other _ _ _ _ _ hj, ⟨fun _ => rfl, fun _ => rfl⟩, fun _ _ => rfl⟩
    rw [hr, hb]
    simpa using hn
  · have hrange : a < 32 ∧ b < 32 ∧ a ≠ b := by
      have h := of_decide_eq_true hab
      omega
    obtain ⟨ha, hb, hne⟩ := hrange
    have hother : ¬ (a = b ∧ b = a) := fun h => hne h.1
    have hother' : ¬ (b = a ∧ a = b) := fun h => hne h.2
    have hgo : ¬ (!crossed a b) = true := by rw [hab]; decide
    refine ⟨fun lost dropped => ?_, ?_⟩
    · refine gives (t := ((s.modXng a b Xng.close).modXng b a Xng.close).modXng a b (fun x =>
        { x with lost := satNat 32 (x.lost + lost.lost), dropw := satNat 32 (x.dropw + dropped), merged := satNat 32 (x.merged + lost.merged) }))
        (congrArg Host.Outcome.next (if_neg hgo)) ?_
      have hab' := xng_mod ((s.modXng a b Xng.close).modXng b a Xng.close) a b a b (fun x =>
        { x with lost := satNat 32 (x.lost + lost.lost), dropw := satNat 32 (x.dropw + dropped), merged := satNat 32 (x.merged + lost.merged) }) hb hb
      have hba' := xng_mod ((s.modXng a b Xng.close).modXng b a Xng.close) a b b a (fun x =>
        { x with lost := satNat 32 (x.lost + lost.lost), dropw := satNat 32 (x.dropw + dropped), merged := satNat 32 (x.merged + lost.merged) }) hb ha
      rw [if_pos ⟨rfl, rfl⟩, xng_mod _ b a a b _ ha hb, if_neg hother, xng_mod s a b a b _ hb hb, if_pos ⟨rfl, rfl⟩] at hab'
      rw [if_neg hother', xng_mod _ b a b a _ ha ha, if_pos ⟨rfl, rfl⟩, xng_mod s a b b a _ hb ha, if_neg hother'] at hba'
      obtain ⟨c1, c2, c3, c4, c5⟩ := (s.xngAt a b).close_spec
      obtain ⟨d1, d2, -, -, d5⟩ := (s.xngAt b a).close_spec
      rw [hab', hba']
      dsimp only
      rw [c1, c2, c3, c4, c5, d1, d2, d5]
      exact ⟨rfl, rfl, rfl, rfl, rfl, rfl, rfl, rfl, modXng_frame3 s a b b a a b _ _ _⟩
    · refine gives (t := (s.modXng a b (fun x => { x with closed := false })).modXng b a (fun x => { x with closed := false })) (congrArg Host.Outcome.next (if_neg hgo)) ?_
      rw [xng_mod _ b a a b _ ha hb, if_neg hother, xng_mod s a b a b _ hb hb, if_pos ⟨rfl, rfl⟩, xng_mod _ b a b a _ ha ha, if_pos ⟨rfl, rfl⟩]
      exact ⟨rfl, rfl, rfl, rfl, ⟨fun _ => rfl, fun _ => rfl⟩, fun _ _ => rfl⟩

/-! ### Power domains -/

theorem pairBack_dom (s : State) (d : Nat) (j : Nat) : (s.pairBack d).dom j = s.dom j := by
  unfold State.pairBack
  dsimp only
  refine (foldl_keep (fun s => State.dom s j) (fun s k => (s.modArr k (fun r => { r with st := 4 })).modUnit (uArr (k / 128) (k % 128)) (fun u => { u with state := 2 })) (fun _ _ => rfl) _ _).trans ?_
  refine foldl_keep (fun s => State.dom s j) _ (fun s c => ?_) _ s
  split
  · rfl
  · rfl

/-- What a domain that comes back ON restores of its own (R365, R415, R295). -/
def State.domRestored (s : State) (d : Nat) : State :=
  if d < 32 then s.pairBack d
  else if 48 ≤ d then s.setReg .lpx (d - 48) 0x44 (s.reg .lpx (d - 48) 0x44 % 2 ^ 10)
  else if d = 46 ∨ d = 47 then s.modDsy (d - 46) (fun x => { x with st := if bit (s.reg .dsy (d - 46) 0x40) 0 then 1 else 0 })
  else s

theorem domRestored_dom (s : State) (d j : Nat) : (s.domRestored d).dom j = s.dom j := by
  unfold State.domRestored
  split
  · exact pairBack_dom s d j
  · split
    · rfl
    · split
      · rfl
      · rfl

/-- A domain that is requested on and OFF starts its sequence (R498, R500). -/
theorem pstep_on {z : State} {d : Nat} (hreq : z.requested d = true) (hoff : z.staysOff d = false) (hst : (z.dom d).st = 0) (hmay : z.mayPower d true = true) :
    ((pstep z d).dom d).st = 1 := by
  have hstep : pstep z d = z.modDom d (fun x => { x with st := 1 }) := by
    unfold pstep
    rw [hreq, hoff, hst, hmay]
    rfl
  rw [hstep, State.dom_modDom, if_pos rfl]

/-- A domain that is not requested and ON starts to go off (R498, R501). -/
theorem pstep_off {z : State} {d : Nat} (hreq : z.requested d = false) (hst : (z.dom d).st = 2) (hmay : z.mayPower d false = true) : ((pstep z d).dom d).st = 3 := by
  have hstep : pstep z d = z.modDom d (fun x => { x with st := 3 }) := by
    unfold pstep
    rw [hreq, hst, hmay]
    rfl
  rw [hstep, State.dom_modDom, if_pos rfl]

theorem mayPower_on {z : State} {d : Nat} (hq : d < 32 → (z.dom (32 + d / 8)).st = 2) (hs : 36 ≤ d → d ≤ 39 → (z.dom 40).st = 2) : z.mayPower d true = true := by
  unfold State.mayPower
  split
  · next h => rw [hq h]; rfl
  · split
    · rfl
    · split
      · rw [hs (by omega) (by omega)]; rfl
      · split
        · rfl
        · rfl

theorem mayPower_off {z : State} {d : Nat} (h : d < 32 ∨ 36 ≤ d ∧ d ≤ 39 ∨ 41 ≤ d) : z.mayPower d false = true := by
  unfold State.mayPower
  split
  · rfl
  · rw [if_neg (by omega)]
    split
    · rfl
    · exact if_neg (by omega)

/-- A write of a page's GATE whose field is good is judged by R498 and R499. -/
theorem gateWrite_exec {s : State} {offset : Nat} {value : Word} {t : PType} {i d : Nat} (hp : pageAt (offset / 4096) = some (t, i)) (h8 : offset % 4096 = 8)
    (hne : offset ≠ rOff .pwr 0 0x5C) (hv : value.toNat ≤ 3) (hd : domOf t i = some d) :
    exec (.powerRequestWrite offset value) s = .next (
      let z := s.modPage (offset / 4096) (fun h => { h with gate := value.toNat })
      match firstBad (s.requestBad z d (bit value.toNat 0)) with
      | some c => s.reject (offset / 4096) c 8
      | none => z.powerEval) := by
  refine congrArg Host.Outcome.next ((if_neg hne).trans ?_)
  rw [hp]
  dsimp only
  rw [if_neg (not_not_intro h8), hd, if_neg (Nat.not_lt.mpr hv)]
  rfl

/-- Settles O41: `peval_dom` reduces `powerEval` to the domain's own step; the writes and the sequences by their branches. -/
theorem powerRequestsTakeEffect : Obligations.PowerRequestsTakeEffect := by
  unfold Obligations.PowerRequestsTakeEffect
  intro s
  refine ⟨fun d hd hs hpe hr => ⟨fun hreq hoff hst hq hsl => ?_, fun hreq hst hd' => ?_⟩, fun offset value t i hp h8 hne hv => ⟨fun d hdom hok => ?_, fun d hdom hoff hon => ?_, fun d hdom hreq hno hkeep => ?_⟩,
    fun value hbad hok => ?_, fun d hd hst hb => ?_, fun d hd hst => ?_⟩
  · obtain ⟨z, hz, hzd, hzr, hzs, hzj⟩ := peval_dom s d hd
    rw [powerEval_fold s hs hpe hr, hz]
    refine pstep_on (hzr.trans hreq) ?_ ((congrArg Dom.st hzd).trans hst) (mayPower_on (fun h => ?_) (fun h h' => ?_))
    · unfold State.staysOff
      rw [hzs]
      exact hoff
    · rw [hzj _ (by omega)]
      exact hq h
    · rw [hzj _ (by omega)]
      exact hsl h h'
  · obtain ⟨z, hz, hzd, hzr, -, -⟩ := peval_dom s d hd
    rw [powerEval_fold s hs hpe hr, hz]
    exact pstep_off (hzr.trans hreq) ((congrArg Dom.st hzd).trans hst) (mayPower_off hd')
  · rw [gateWrite_exec hp h8 hne hv hdom]
    dsimp only
    rw [hok]
  · rw [gateWrite_exec hp h8 hne hv hdom]
    unfold State.requestBad
    rw [hoff, hon]
    rfl
  · have hlist : ∀ z, z.requested d = false → firstBad (s.requestBad z d (bit value.toNat 0)) = some .state := by
      intro z hz
      unfold State.requestBad
      rw [hreq, hz, hkeep]
      cases s.staysOff d && bit value.toNat 0 with
      | true => rfl
      | false => rfl
    rw [gateWrite_exec hp h8 hne hv hdom]
    dsimp only
    rw [hlist _ hno]
  · exact congrArg Host.Outcome.next ((if_pos rfl).trans (regWrite_ok hbad rfl hok))
  · refine congrArg Host.Outcome.next (if_neg ?_)
    rw [hst, hb]
    simpa using hd
  · refine ⟨(s.modDom d (fun x => { x with st := 2 })).domRestored d, congrArg Host.Outcome.next (if_neg ?_), ?_, fun j hj => ?_⟩
    · rw [hst]
      simpa using hd
    · rw [domRestored_dom, State.dom_modDom, if_pos rfl]
    · rw [domRestored_dom, State.dom_modDom, if_neg hj]

end Sys2Proof.Machine
end

section
/-!
PROOFS. The housekeeping converters: the sequencer, its outputs, self-calibration, the twin check, and the host's commands (R459 to R478).
-/
open Sys2Proof Sys2Proof.Machine

namespace Sys2Proof.Machine

theorem modHkc_frame (s : State) (f : HkcSt → HkcSt) : SameMemory s (s.modHkc f) ∧ SameRegs s (s.modHkc f) (fun _ => False) :=
  ⟨modHkc_memory s f, fun _ _ => rfl⟩

theorem toBits_lt (w : Nat) (v : Int) : toBits w v < 2 ^ w := by
  unfold toBits
  have h := Int.emod_lt_of_pos v (show (0 : Int) < ((2 ^ w : Nat) : Int) by exact_mod_cast Nat.two_pow_pos w)
  have h0 := Int.emod_nonneg v (show ((2 ^ w : Nat) : Int) ≠ 0 by exact_mod_cast (Nat.two_pow_pos w).ne')
  omega

/-! ### The sequencer -/

/-- The converter that an entry takes: A before B where either will do (R463). -/
theorem freeConv_eq {h : HkcSt} {want c : Nat} (hc : (want ≠ 1 ∧ h.a.busy = none ∧ c = 0) ∨ (want = 1 ∧ h.b.busy = none ∧ c = 1) ∨
    (2 ≤ want ∧ h.a.busy ≠ none ∧ h.b.busy = none ∧ c = 1)) : h.freeConv want = some c := by
  unfold HkcSt.freeConv
  rcases hc with ⟨hw, ha, rfl⟩ | ⟨hw, hb, rfl⟩ | ⟨hw, ha, hb, rfl⟩
  · rw [ha, if_neg hw]
    split
    · rfl
    · rfl
  · rw [hb, if_neg (by omega), if_pos hw]
    rfl
  · have hbusy : ¬ h.a.busy.isNone = true := by simpa using ha
    rw [hb, if_neg (by omega), if_neg (by omega), if_neg hbusy]
    rfl

/-- An entry's start on converter `c` (R463). -/
def HkcSt.entryStart (h : HkcSt) (c who n : Nat) (st : Nat × Nat × Nat × Nat) : HkcSt :=
  { h.setConv c ((h.conv c).start who n st) with pos := h.pos + 1, lastE := h.pos }

theorem entryStart_spec (h : HkcSt) {c : Nat} (hc : c ≤ 1) (who n : Nat) (st : Nat × Nat × Nat × Nat) :
    (h.entryStart c who n st).conv c = (h.conv c).start who n st ∧ (h.entryStart c who n st).conv (1 - c) = h.conv (1 - c) := by
  have : c = 0 ∨ c = 1 := by omega
  rcases this with rfl | rfl
  · exact ⟨rfl, rfl⟩
  · exact ⟨rfl, rfl⟩

theorem hkcEntryStart_exec {s : State} {c : Nat} (hrun : s.hkc.running = true) (hpos : s.hkc.pos < s.hkcLen) (hscal : s.scalRunning = false) (htwin : s.hkc.twinDue = false)
    (hwait : let prev := if s.hkc.pos = 0 then s.hkcLen - 1 else s.hkc.pos - 1
      enDelay (s.hkcEntry prev) = 0 ∨ s.hkc.lastE ≠ prev ∨ (s.hkc.a.busy ≠ some prev ∧ s.hkc.b.busy ≠ some prev))
    (hfree : s.hkc.freeConv (enConv (s.hkcEntry s.hkc.pos)) = some c) :
    exec .hkcEntryStart s = .next (s.modHkc (fun h => h.entryStart c s.hkc.pos (enRepeat (s.hkcEntry s.hkc.pos)) (enSettings (s.hkcEntry s.hkc.pos)))) := by
  refine congrArg Host.Outcome.next ((if_neg ?_).trans ?_)
  · rw [hrun, hscal, htwin, decide_eq_false (Nat.not_le.mpr hpos)]
    decide
  · dsimp only at hwait ⊢
    generalize (if s.hkc.pos = 0 then s.hkcLen - 1 else s.hkc.pos - 1) = prev at hwait ⊢
    have hno : (decide (enDelay (s.hkcEntry prev) ≠ 0 ∧ s.hkc.lastE = prev) && (s.hkc.a.busy == some prev || s.hkc.b.busy == some prev)) = false := by
      rcases hwait with h | h | ⟨h1, h2⟩
      · rw [decide_eq_false (fun h' => h'.1 h)]
        rfl
      · rw [decide_eq_false (fun h' => h h'.2)]
        rfl
      · rw [beq_eq_false_iff_ne.mpr h1, beq_eq_false_iff_ne.mpr h2]
        exact Bool.and_false _
    rw [hno, if_neg (by decide), hfree]
    rfl

/-! ### Outputs -/

/-- A settled output enters its entry's statistics (R471). -/
def State.entered (s : State) (i : Nat) (code : Nat × Bool) (settle : Bool) : State :=
  if settle then s else s.modHkc (fun h => { h with stats := FMap.upd {} h.stats i (fun x => hkcEnter x code) })

theorem entered_spec (s : State) (i : Nat) (code : Nat × Bool) (settle : Bool) :
    (s.entered i code settle).hkc.running = s.hkc.running ∧
      (s.entered i code settle).hkc.stats = (if settle then s.hkc.stats else FMap.upd {} s.hkc.stats i (fun x => hkcEnter x code)) ∧
      (∀ k, (s.entered i code settle).rd k = s.rd k) ∧ SameMemory s (s.entered i code settle) := by
  cases settle
  · exact ⟨rfl, rfl, fun _ => rfl, fun _ => rfl, fun _ => rfl⟩
  · exact ⟨rfl, rfl, fun _ => rfl, fun _ => rfl, fun _ => rfl⟩

/-- What a delivery leaves (R468 to R471): the statistics, or the data register with its flags. -/
theorem hkcDeliver_spec (s : State) {i : Nat} (hi : i < 32) (dest word : Nat) (code : Nat × Bool) (settle : Bool) :
    let off := rOff .hkc 0 (0x100 + 4 * i)
    let act := rOff .hkc 0 0x78
    let z := s.hkcDeliver i dest word code settle
    let entered := if settle then s.hkc.stats else FMap.upd {} s.hkc.stats i (fun x => hkcEnter x code)
    z.hkc.running = s.hkc.running ∧ SameMemory s z ∧
      (dest = 0 → z.rd off = (word + 2 ^ 16 + (b2n (bit (s.rd off) 16) <<< 18)) % 2 ^ 32 ∧ z.hkc.stats = s.hkc.stats) ∧
      (dest = 1 → z.hkc.stats = entered ∧ SameRegs s z (fun _ => False)) ∧
      (dest = 2 → bit (s.rd act) i = false → bit (s.rd off) 16 = false → z.rd off = (word + 2 ^ 16) % 2 ^ 32 ∧ z.hkc.stats = s.hkc.stats) ∧
      (dest = 2 → bit (s.rd act) i = false → bit (s.rd off) 16 = true → z.rd off = (s.rd off ||| 2 ^ 18) % 2 ^ 32 ∧ z.rd act = (s.rd act ||| 2 ^ i) % 2 ^ 32 ∧
        z.hkc.stats = entered) := by
  intro off act z entered
  have hne : off ≠ act := by
    unfold off act rOff
    simp only [pageBase]
    omega
  have hcases := hkcDeliver_cases s i dest word code settle
  rcases hcases with ⟨h0, hz⟩ | ⟨h0, h1, hz⟩ | ⟨h0, h1, ha, hv, hz⟩ | ⟨h0, h1, ha, hv, hz⟩
  · have hz' : z = s.wr off (word + 2 ^ 16 + (b2n (bit (s.rd off) 16) <<< 18)) := hz
    rw [hz']
    refine ⟨rfl, wr_memory _ _ _, fun _ => ⟨(State.rd_wr _ _ _ _).trans (if_pos rfl), rfl⟩, ?_, ?_, ?_⟩
    · intro h
      omega
    · intro h
      omega
    · intro h
      omega
  · obtain ⟨k1, k2, k3, k4⟩ := entered_spec s i code settle
    have hz' : z = s.entered i code settle := hz
    rw [hz']
    refine ⟨k1, k4, ?_, fun _ => ⟨k2, fun k _ => k3 k⟩, ?_, ?_⟩
    · intro h
      omega
    · intro h ha
      rcases h1 with h1 | h1
      · omega
      · exact absurd (h1.symm.trans ha) (by decide)
    · intro h ha
      rcases h1 with h1 | h1
      · omega
      · exact absurd (h1.symm.trans ha) (by decide)
  · obtain ⟨k1, k2, k3, k4⟩ := entered_spec ((s.wr off (s.rd off ||| 2 ^ 18)).wr act (s.rd act ||| 2 ^ i)) i code settle
    have hz' : z = ((s.wr off (s.rd off ||| 2 ^ 18)).wr act (s.rd act ||| 2 ^ i)).entered i code settle := hz
    rw [hz']
    refine ⟨k1, SameMemory.trans ⟨fun _ => rfl, fun _ => rfl⟩ k4, ?_, ?_, ?_, fun _ _ _ => ⟨(k3 off).trans ?_, (k3 act).trans ?_, k2⟩⟩
    · intro h
      omega
    · intro h
      omega
    · intro _ _ hv'
      exact absurd (hv.symm.trans hv') (by decide)
    · rw [State.rd_wr, if_neg hne, State.rd_wr, if_pos rfl]
    · rw [State.rd_wr, if_pos rfl]
  · have hz' : z = s.wr off (word + 2 ^ 16) := hz
    rw [hz']
    refine ⟨rfl, wr_memory _ _ _, ?_, ?_, fun _ _ _ => ⟨(State.rd_wr _ _ _ _).trans (if_pos rfl), rfl⟩, ?_⟩
    · intro h
      omega
    · intro h
      omega
    · intro _ _ hv'
      exact absurd (hv'.symm.trans hv) (by decide)

/-- A converter after an output (R463). -/
def HkcConv.output (x : HkcConv) (done : Bool) : HkcConv := { x with since := x.since + 1, left := x.left - 1, busy := if done then none else x.busy }

theorem output_busy {x : HkcConv} {i : Nat} (h : x.busy = some i) (running : Bool) :
    (x.output (decide (x.left ≤ 1) || !running)).busy = (if x.left ≤ 1 ∨ running = false then none else some i) := by
  unfold HkcConv.output
  dsimp only
  rw [h]
  cases running with
  | true => simp
  | false => simp

/-- A converter's output is done (R463). -/
def State.outputEnd (z : State) (c : Nat) (x : HkcConv) : State :=
  z.modHkc (fun h => h.setConv c (x.output (decide (x.left ≤ 1) || !z.hkc.running)))

theorem outputEnd_spec {z : State} {c i : Nat} {x : HkcConv} {running : Bool} (hc : c ≤ 1) (hb : x.busy = some i) (hr : z.hkc.running = running) :
    ((z.outputEnd c x).hkc.conv c).since = x.since + 1 ∧ ((z.outputEnd c x).hkc.conv c).left = x.left - 1 ∧
      ((z.outputEnd c x).hkc.conv c).busy = (if x.left ≤ 1 ∨ running = false then none else some i) ∧ (z.outputEnd c x).hkc.stats = z.hkc.stats ∧
      SameMemory z (z.outputEnd c x) := by
  obtain ⟨k1, -, k3, -, -⟩ := conv_setConv z.hkc c (x.output (decide (x.left ≤ 1) || !z.hkc.running)) hc
  refine ⟨congrArg HkcConv.since k1, congrArg HkcConv.left k1, (congrArg HkcConv.busy k1).trans ?_, k3, modHkc_memory z _⟩
  rw [output_busy hb, hr]

theorem hkcOutput_exec {s : State} {c i : Nat} {st : Nat × Nat × Nat × Nat} (raw : Int) (past : Bool) (hc : c ≤ 1) (hb : (s.hkc.conv c).busy = some i) (hi : i < 32)
    (hl : (s.hkc.conv c).last = some st) :
    let settle := decide ((s.hkc.conv c).since < settleN st.2.2.1)
    let code := hkcCode (nth (0, 0x8000) (s.hkc.conv c).factors st.2.1) raw past
    let z := s.hkcDeliver i (enDest (s.hkcEntry i)) (s.hkcWord c st code settle) code settle
    exec (.hkcOutput c raw past) s = .next (z.outputEnd c (s.hkc.conv c)) := by
  intro settle code z
  refine congrArg Host.Outcome.next ((if_neg (Nat.not_lt.mpr hc)).trans ?_)
  dsimp only
  split
  · next i' st' hb' hl' =>
    rw [hb] at hb'
    rw [hl] at hl'
    cases hb'
    cases hl'
    exact if_neg (Nat.not_le.mpr hi)
  · next hno => exact absurd hl (hno i st hb)

/-- A twin check that leaves `v` in TWIN, and counts where it fails (R474). -/
def State.twinChecked (s : State) (v : Nat) (bad : Bool) : State :=
  let z := (s.withFree (s.free + 1)).setReg .hkc 0 0x58 v
  (if bad then z.bump .hkc 0 0x5C 1 else z).modHkc (fun h => { h.unsettle with twinDue := false })

theorem twinChecked_spec (s : State) (v : Nat) (bad : Bool) : let t := s.twinChecked v bad
    t.hkc.twinDue = false ∧ t.hkc.a.last = none ∧ t.hkc.b.last = none ∧ t.reg .hkc 0 0x58 = v % 2 ^ 32 ∧
      t.reg .hkc 0 0x5C = (if bad then satNat 32 (s.reg .hkc 0 0x5C + 1) else s.reg .hkc 0 0x5C) ∧ SameMemory s t ∧
      SameRegs s t (fun off => off = rOff .hkc 0 0x58 ∨ off = rOff .hkc 0 0x5C) := by
  have hv := reg_setReg (s.withFree (s.free + 1)) .hkc 0 0x58 v
  have hz : ∀ k, k ≠ rOff .hkc 0 0x58 → ((s.withFree (s.free + 1)).setReg .hkc 0 0x58 v).rd k = s.rd k := fun k hk => rd_setReg_other (s.withFree (s.free + 1)) _ _ _ _ _ hk
  have hm : SameMemory s ((s.withFree (s.free + 1)).setReg .hkc 0 0x58 v) := ⟨fun _ => rfl, fun _ => rfl⟩
  unfold State.twinChecked
  dsimp only
  generalize (s.withFree (s.free + 1)).setReg .hkc 0 0x58 v = z at hv hz hm ⊢
  cases bad with
  | false => exact ⟨rfl, rfl, rfl, hv, hz _ (by decide), hm.trans (modHkc_memory z _), fun k hk => hz k fun h => hk (Or.inl h)⟩
  | true =>
    rw [if_pos rfl, if_pos rfl]
    refine ⟨rfl, rfl, rfl, (reg_bump_other z _ _ _ _ _ (by decide)).trans hv, (reg_bump_same z _ _ _ _ (by decide)).trans ?_,
      (hm.trans (bump_mem z _ _ _ _)).trans (modHkc_memory _ _), fun k hk => ?_⟩
    · rw [State.reg_eq, hz _ (by decide)]
      rfl
    · exact (State.rd_bump_other z _ _ _ _ _ fun h => hk (Or.inr h)).trans (hz k fun h => hk (Or.inl h))

/-- Settles O42: each row by its branch; an output by `hkcDeliver_spec`. -/
theorem theSequencerRunsItsTable : Obligations.TheSequencerRunsItsTable := by
  unfold Obligations.TheSequencerRunsItsTable
  intro s h prev
  refine ⟨fun c hrun hpos hscal htwin hwait hfree => ?_, fun hrun hlen hpos => ?_, fun c i st raw past hc hb hi hl => ?_, fun factors hscal ha hb => ?_, fun a b hdue hscal ha hb hd => ?_⟩
  · have hc : c ≤ 1 := by omega
    obtain ⟨k1, k2⟩ := entryStart_spec s.hkc hc s.hkc.pos (enRepeat (s.hkcEntry s.hkc.pos)) (enSettings (s.hkcEntry s.hkc.pos))
    refine gives (hkcEntryStart_exec hrun hpos hscal htwin hwait (freeConv_eq hfree)) ?_
    refine ⟨congrArg HkcConv.busy k1, congrArg HkcConv.left k1, congrArg HkcConv.last k1, congrArg HkcConv.since k1, k2, rfl, rfl, modHkc_frame s _⟩
  · refine gives (congrArg Host.Outcome.next (if_neg ?_)) ⟨?_, ?_, ?_, ?_, ?_, ?_, fun k hk => ?_⟩
    · rw [show s.hkc.running = true from hrun, decide_eq_false hlen, decide_eq_false (Nat.not_lt.mpr hpos)]
      decide
    · rfl
    · rfl
    · rfl
    · show ((if FMap.get 0 (s.bump .hkc 0 0x50 1).hkc.staged 0x40 ≠ 0 then (s.bump .hkc 0 0x50 1).hkc.unsettle else (s.bump .hkc 0 0x50 1).hkc).twinDue || _) = _
      split
      · rfl
      · rfl
    · exact reg_bump_same s _ _ _ _ (by decide)
    · exact (bump_mem s _ _ _ _).trans (modHkc_memory _ _)
    · exact State.rd_bump_other s _ _ _ _ _ hk
  · intro settle code word data dest
    obtain ⟨hrun, hmem, h0, h1, h2, h3⟩ := hkcDeliver_spec s hi dest word code settle
    obtain ⟨k1, k2, k3, k4, k5⟩ := outputEnd_spec hc hb hrun
    refine gives (hkcOutput_exec raw past hc hb hi hl) ⟨k1, k2, k3, fun hd => ?_, fun hd => ?_, fun hd ha hv => ?_, fun hd ha hv => ?_, hmem.trans k5⟩
    · exact ⟨(h0 hd).1, k4.trans (h0 hd).2⟩
    · exact ⟨k4.trans (h1 hd).1, (h1 hd).2⟩
    · exact ⟨(h2 hd ha hv).1, k4.trans (h2 hd ha hv).2⟩
    · exact ⟨(h3 hd ha hv).1, (h3 hd ha hv).2.1, k4.trans (h3 hd ha hv).2.2⟩
  · refine gives (congrArg Host.Outcome.next (if_neg ?_)) ⟨?_, rfl, rfl, rfl, rfl, ?_, ?_⟩
    · rw [hscal, show s.hkc.a.busy = none from ha, show s.hkc.b.busy = none from hb]
      decide
    · exact reg_setReg s _ _ _ _
    · exact (setReg_frame s _ _ _ _).1.trans (modHkc_memory _ _)
    · exact (setReg_frame s _ _ _ _).2
  · have hbit : toBits 16 (a - b) < 2 ^ 16 := toBits_lt 16 _
    have hexec : exec (.hkcTwinCheck a b) s = .next (s.twinChecked (toBits 16 (a - b) + (b2n (decide ((a - b).natAbs > 24)) <<< 16) + 2 ^ 17) (decide ((a - b).natAbs > 24))) := by
      refine congrArg Host.Outcome.next ((if_neg ?_).trans ?_)
      · rw [show s.hkc.twinDue = true from hdue, hscal, show s.hkc.a.busy = none from ha, show s.hkc.b.busy = none from hb]
        decide
      · dsimp only
        rw [if_pos hd]
        rfl
    obtain ⟨k1, k2, k3, k4, k5, k6, k7⟩ := twinChecked_spec s (toBits 16 (a - b) + (b2n (decide ((a - b).natAbs > 24)) <<< 16) + 2 ^ 17) (decide ((a - b).natAbs > 24))
    refine gives hexec ⟨k1, k2, k3, k4.trans ?_, k5.trans ?_, k6, k7⟩
    · by_cases hle : (a - b).natAbs ≤ 24
      · have h0 : b2n false <<< 16 = 0 := rfl
        rw [decide_eq_false (Nat.not_lt.mpr hle), if_pos hle, h0, Nat.mod_eq_of_lt (by omega)]
      · have h1 : b2n true <<< 16 = 2 ^ 16 := rfl
        rw [decide_eq_true (Nat.lt_of_not_le hle), if_neg hle, h1, Nat.mod_eq_of_lt (by omega)]
    · by_cases hle : (a - b).natAbs ≤ 24
      · rw [decide_eq_false (Nat.not_lt.mpr hle), if_pos hle]
        rfl
      · rw [decide_eq_true (Nat.lt_of_not_le hle), if_neg hle]
        rfl

/-! ### Commands -/

/-- The converter that an urgent request takes starts for it (R472). -/
theorem urgentStart_spec (h : HkcSt) (e : Entry) {c : Nat} (hc : c ≤ 1) (st : Nat × Nat × Nat × Nat) :
    let g : HkcSt := { h.setConv c ((h.conv c).start 32 1 st) with urgent := some (e, c) }
    g.urgent = some (e, c) ∧ (g.conv c).busy = some 32 ∧ (g.conv c).last = some st ∧ g.conv (1 - c) = h.conv (1 - c) := by
  have : c = 0 ∨ c = 1 := by omega
  rcases this with rfl | rfl
  · exact ⟨rfl, rfl, rfl, rfl⟩
  · exact ⟨rfl, rfl, rfl, rfl⟩

theorem urgentEnd_spec (h : HkcSt) {c : Nat} (hc : c ≤ 1) (x : HkcConv) :
    let g : HkcSt := { h.setConv c x with urgent := none }
    (g.conv c).busy = x.busy ∧ g.stats = h.stats := by
  have : c = 0 ∨ c = 1 := by omega
  rcases this with rfl | rfl
  · exact ⟨rfl, rfl⟩
  · exact ⟨rfl, rfl⟩

/-- What RUN leaves of the sequencer; `lp` says that LOWPWR changes (R464, R465). -/
def State.ctrlRun (u : State) (v old : Nat) (lp : Bool) : State :=
  if bit v 0 then
    if u.hkc.running then (if lp && FMap.get 0 u.hkc.staged 0x40 == 0 then u.modHkc (fun h => { h with staged := FMap.put 0 h.staged 0x40 (b2n (bit old 2) + 1) }) else u)
    else u.modHkc (fun h => let h := if lp then h.unsettle else h; { h with running := true, pos := 0, staged := [] })
  else u.modHkc (fun h => let h := if lp then h.unsettle else h; { h with running := false, staged := [] })

theorem ctrlRun_spec (u : State) (v old : Nat) (lp : Bool) : let t := u.ctrlRun v old lp
    t.hkc.running = bit v 0 ∧ (u.hkc.running = false → bit v 0 = true → t.hkc.pos = 0) ∧ (u.hkc.running = true → bit v 0 = true → t.hkc.pos = u.hkc.pos) ∧
      SameMemory u t ∧ SameRegs u t (fun _ => False) := by
  unfold State.ctrlRun
  cases hv : bit v 0 with
  | false =>
    rw [if_neg (by decide)]
    exact ⟨rfl, fun _ h => (by cases h), fun _ h => (by cases h), modHkc_frame u _⟩
  | true =>
    rw [if_pos rfl]
    cases hr : u.hkc.running with
    | false =>
      rw [if_neg (by decide)]
      exact ⟨rfl, fun _ _ => rfl, fun h => (by cases h), modHkc_frame u _⟩
    | true =>
      rw [if_pos rfl]
      split
      · exact ⟨hr, fun h => (by cases h), fun _ _ => rfl, modHkc_frame u _⟩
      · exact ⟨hr, fun h => (by cases h), fun _ _ => rfl, sameMemory_rfl u, fun _ _ => rfl⟩

/-- A data register's consumption changes that register only (R469). -/
theorem hkcConsume_frame (s : State) (i : Nat) :
    SameMemory s (s.hkcConsume i) ∧ SameRegs s (s.hkcConsume i) (fun off => off = rOff .hkc 0 (0x100 + 4 * i)) := by
  unfold State.hkcConsume
  dsimp only
  split
  · exact ⟨wr_memory _ _ _, fun k hk => (State.rd_wr _ _ _ _).trans (if_neg hk)⟩
  · exact ⟨sameMemory_rfl s, fun _ _ => rfl⟩

/-- An ENTRY's low word stages in its page (R50). -/
theorem entryLow_exec {s : State} (value : Word) {i : Nat} (hi : i < 32) :
    exec (.hkcStagedWrite (0x200 + 8 * i) value) s = .next (s.modPage 0x52 (fun p => { p with staging := some (0x200 + 8 * i, value.toNat) })) := by
  have hp : rOff .hkc 0 (0x200 + 8 * i) / 4096 = 0x52 := by
    unfold rOff
    simp only [pageBase]
    omega
  have ho : rOff .hkc 0 (0x200 + 8 * i) % 4096 = 0x200 + 8 * i := by
    unfold rOff
    simp only [pageBase]
    omega
  refine congrArg Host.Outcome.next ((if_neg (by omega)).trans ((if_pos (by omega)).trans ((if_pos (by omega)).trans ?_)))
  unfold State.stageLow
  rw [hp, ho]

theorem urgent_accepted {s : State} {e : Entry} (hb : Begins s e 0x11) (hbad : entryBad e [2, 3] false [(8, 3)] false = none) (hch : e.p 8 1 ≤ 47) (hg : e.p 9 1 ∈ [1, 2, 4])
    (hfl : e.p 10 1 ≤ 2) (hcal : bit (s.reg .hkc 0 0x98) 1 = true) : exec (.hkcUrgent e) s = .next (
      match s.hkc.freeConv 2 with
      | none => ((s.marked e).bump .hkc 0 0x54 1).complete e .busy 0 0
      | some c => (s.marked e).modHkc (fun h => { h.setConv c ((h.conv c).start 32 1
          (e.p 8 1, (if e.p 9 1 = 1 then 0 else if e.p 9 1 = 2 then 1 else 2), e.p 10 1, (if e.p 10 1 = 0 then 0 else 4))) with urgent := some (e, c) })) := by
  have hgain : (e.p 9 1 == 1 || e.p 9 1 == 2 || e.p 9 1 == 4) = true := by
    simpa [or_assoc] using hg
  have hfirst : firstBad [(decide (e.p 8 1 > 47) || !(e.p 9 1 == 1 || e.p 9 1 == 2 || e.p 9 1 == 4) || decide (e.p 10 1 > 2), Code.value),
      (!bit ((s.marked e).reg .hkc 0 0x98) 1, .state)] = none := by
    have h98 : bit ((s.marked e).reg .hkc 0 0x98) 1 = true := hcal
    rw [hgain, h98, decide_eq_false (Nat.not_lt.mpr hch), decide_eq_false (Nat.not_lt.mpr hfl)]
    rfl
  refine congrArg Host.Outcome.next ((begin_act hb _).trans ?_)
  dsimp only
  rw [hbad, hfirst]
  rfl

/-- Settles O43: each command by its branch; ENTRY by `entry_commit`, a data read by `consume_spec`, STATCAP by `statcap_spec`. -/
theorem housekeepingIsCommanded : Obligations.HousekeepingIsCommanded := by
  unfold Obligations.HousekeepingIsCommanded
  intro s h st
  refine ⟨fun e hb hbad hch hg hfl hcal => ⟨fun c hc => ?_, fun ha hb' => ?_⟩, fun e c raw past hu hc => ?_,
    fun value hl => ⟨fun hbad => ?_, fun i hi => ⟨?_, fun low h1 h2 h3 => entry_commit s value hl i hi low h1 h2 h3⟩, fun hbad => ?_⟩,
    fun i size hi => ⟨fun h4 => ?_, fun h4 => ?_⟩, fun value => ⟨fun hbad hgo hs => ?_, fun hbad hgo hs => ?_, fun hbad hgo => statcap_spec s value hbad hgo, ?_⟩⟩
  · have hexec := urgent_accepted hb hbad hch hg hfl hcal
    have hfree : s.hkc.freeConv 2 = some c := freeConv_eq (by
      rcases hc with ⟨ha, rfl⟩ | ⟨ha, hb', rfl⟩
      · exact Or.inl ⟨by decide, ha, rfl⟩
      · exact Or.inr (Or.inr ⟨by decide, ha, hb', rfl⟩))
    rw [hfree] at hexec
    obtain ⟨k1, k2, k3, k4⟩ := urgentStart_spec s.hkc e (c := c) (by omega) (st e)
    exact gives hexec ⟨k1, k2, k3, k4, ⟨fun _ => rfl, fun _ => rfl⟩, fun _ _ => rfl⟩
  · have hexec := urgent_accepted hb hbad hch hg hfl hcal
    have hfree : s.hkc.freeConv 2 = none := by
      have h1 : ¬ s.hkc.a.busy.isNone = true := by simpa using ha
      have h2 : ¬ s.hkc.b.busy.isNone = true := by simpa using hb'
      exact (if_neg (by decide)).trans ((if_neg (by decide)).trans ((if_neg h1).trans (if_neg h2)))
    rw [hfree] at hexec
    exact hexec
  · have hexec : ∃ X : HkcConv, X.busy = none ∧ exec (.hkcUrgentResult raw past) s = .next (
        (s.modHkc (fun h => { h.setConv c X with urgent := none })).complete e .ok
          (s.hkcWord c ((h.conv c).last.getD (0, 0, 0, 0)) (hkcCode (nth (0, 0x8000) (h.conv c).factors ((h.conv c).last.getD (0, 0, 0, 0)).2.1) raw past) false + 2 ^ 16) 0) := by
      refine ⟨{ s.hkc.conv c with busy := none, left := 0, since := settleN ((h.conv c).last.getD (0, 0, 0, 0)).2.2.1 + 1 }, rfl, congrArg Host.Outcome.next ?_⟩
      rw [show s.hkc.urgent = some (e, c) from hu]
    obtain ⟨X, hX, hexec⟩ := hexec
    obtain ⟨k1, k2⟩ := urgentEnd_spec s.hkc hc X
    exact ⟨_, hexec, rfl, k1.trans hX, k2, fun _ _ => rfl⟩
  · refine gives (t := s.hkcStage 0x44 (s.rd (rOff .hkc 0 0x44)) (fun s => s.regPut (rOff .hkc 0 0x44) value.toNat))
      (congrArg Host.Outcome.next ((if_pos rfl).trans (regWrite_ok hbad hl rfl))) ⟨?_, fun hr => ?_, fun hr hst => ?_, ?_, ?_⟩
    · refine (hkcStage_keep (fun s => s.reg .hkc 0 0x44) (fun _ _ => rfl) _ _ _ _).trans ?_
      exact (regPut_plain plain_seqlen _).trans ((if_pos rfl).trans (Nat.mod_eq_of_lt value.isLt))
    · exact hkcForce_staged s 0x44 _ _ (regPut_hkc _ _ _) hr (fun s => s.reg .hkc 0 0x44)
    · rw [hkcStage_stopped _ _ _ _ hr]
      unfold State.hkcLen State.hkcForce
      rw [regPut_hkc, show s.hkc.staged = [] from hst]
      exact (regPut_plain plain_seqlen _).trans ((if_pos rfl).trans (Nat.mod_eq_of_lt value.isLt))
    · exact fun a => (hkcStage_keep (fun s => s.memByte a) (fun _ _ => rfl) _ _ _ _).trans ((regPut_mem s _ _).1 a)
    · exact fun a => (hkcStage_keep (fun s => s.lpByte a) (fun _ _ => rfl) _ _ _ _).trans ((regPut_mem s _ _).2 a)
  · refine gives (entryLow_exec value hi) ⟨?_, modPage_frame s _ _⟩
    rw [page_mod, if_pos rfl]
  · have hrd := regPut_plain (s := s) (v := value.toNat) plain_hctrl (rOff .hkc 0 0x40)
    have hmem := regPut_mem s (rOff .hkc 0 0x40) value.toNat
    have hhkc := regPut_hkc s (rOff .hkc 0 0x40) value.toNat
    refine gives (t := (s.regPut (rOff .hkc 0 0x40) value.toNat).ctrlRun value.toNat (s.rd (rOff .hkc 0 0x40)) (bit (s.rd (rOff .hkc 0 0x40)) 2 != bit value.toNat 2))
      (congrArg Host.Outcome.next (regWrite_ok hbad hl rfl)) ?_
    generalize s.regPut (rOff .hkc 0 0x40) value.toNat = u at hrd hmem hhkc ⊢
    obtain ⟨k1, k2, k3, k4, k5⟩ := ctrlRun_spec u value.toNat (s.rd (rOff .hkc 0 0x40)) (bit (s.rd (rOff .hkc 0 0x40)) 2 != bit value.toNat 2)
    exact ⟨(k5 _ id).trans (hrd.trans ((if_pos rfl).trans (Nat.mod_eq_of_lt value.isLt))), k1, fun hr => k2 ((congrArg HkcSt.running hhkc).trans hr),
      fun hr hv => (k3 ((congrArg HkcSt.running hhkc).trans hr) hv).trans (congrArg HkcSt.pos hhkc), hmem.trans k4⟩
  · obtain ⟨k1, k2, k3⟩ := consume_spec s i
    obtain ⟨m1, m2⟩ := hkcConsume_frame s i
    refine gives (congrArg Host.Outcome.next ((if_neg (Nat.not_lt.mpr hi)).trans ((if_neg (by omega)).trans (if_pos h4)))) ⟨rfl, k1, k2, k3, m1.trans (ans_frame _ _).1, m2⟩
  · refine gives (congrArg Host.Outcome.next ((if_neg (Nat.not_lt.mpr hi)).trans ((if_neg (by omega)).trans (if_neg (by omega))))) ⟨rfl, (ans_frame s _).1, fun k _ => (ans_frame s _).2 k⟩
  · have hword : s.reg .hkc 0 0x98 ||| 1 < 2 ^ 32 := Nat.or_lt_two_pow (rd_lt s _) (by decide)
    refine gives (t := s.setReg .hkc 0 0x98 (s.reg .hkc 0 0x98 ||| 1)) (congrArg Host.Outcome.next ((regWrite_ok hbad rfl ?_).trans (if_pos hgo))) ⟨?_, rfl, setReg_frame s _ _ _ _⟩
    · rw [hgo, hs]
      rfl
    · rw [reg_setReg, Nat.mod_eq_of_lt hword]
  · refine congrArg Host.Outcome.next (regWrite_bad ?_)
    rw [hbad, hgo, hs]
    rfl
  · refine gives rfl ⟨?_, rfl, wr_memory _ _ _, fun k hk => (State.rd_wr _ _ _ _).trans (if_neg hk)⟩
    refine (State.rd_wr _ _ _ _).trans ((if_pos rfl).trans (Nat.mod_eq_of_lt ?_))
    exact lt_of_le_of_lt (Nat.sub_le _ _) (rd_lt s _)

end Sys2Proof.Machine
end

section
/-!
PROOFS. The Daisy chain: links and lanes, positions, messages, tunnels and image pushes (R366 to R385).
-/
open Sys2Proof Sys2Proof.Machine

namespace Sys2Proof.Machine

/-! ### Links -/

/-- The width that a link trains at (R372). -/
theorem trained_st (d : Dsy) (u : List Nat) : (8 ≤ u.length → (trained d u).st = 2) ∧ (4 ≤ u.length → u.length < 8 → (trained d u).st = 3) ∧
    (u.length < 4 → (trained d u).st = 1) := by
  refine ⟨fun h => ?_, fun h h' => ?_, fun h => ?_⟩
  · unfold trained
    dsimp only
    rw [if_pos h]
    cases (List.range 8).find? (fun l => !u.contains l) with
    | none => rfl
    | some l => rfl
  · unfold trained
    dsimp only
    rw [if_neg (by omega), if_pos h]
  · unfold trained
    dsimp only
    rw [if_neg (by omega), if_neg (by omega)]

theorem dsyReset_dsyAt (s : State) (p : Nat) : ((s.dsyReset p).dsyAt p).st = 1 := by
  unfold State.dsyReset
  rw [linkDrop_dsyAt, if_pos rfl]

theorem dsyReset_keep {β : Type} (g : State → β) (h1 : ∀ s x, g (State.withDsy s x) = g s) (h2 : ∀ s x, g (State.withChain s x) = g s) (h3 : ∀ s o v, g (State.wr s o v) = g s)
    (s : State) (p : Nat) : g (s.dsyReset p) = g s := (linkDrop_keep g h1 h2 _ p 1).trans (bump_keep g h3 s _ _ _ _)

/-- A link comes up on DSY0 with no failed lane: full width, lane 8 spare (R372). -/
theorem trained_fresh (d : Dsy) (h : d.failed = []) : trained d ((List.range 9).filter (fun l => bit 0x1FF l && !d.failed.contains l)) =
    { d with st := 2, lanes := 0xFF, spareFor := 0xF, spare := some 8 } := by
  have hall : (List.range 9).filter (fun l => bit 0x1FF l && !d.failed.contains l) = List.range 9 := by
    rw [h]
    decide
  rw [hall]
  rfl

/-! ### Lanes -/

/-- A lane that fails while it carries data: the spare takes its place, or the link resets (R372 to R374). -/
theorem laneLost_spare {s : State} {p l sp : Nat} (hf : (s.dsyAt p).failed.contains l = false) (hb : bit (s.dsyAt p).lanes l = true) (hup : s.dsyUp p = true)
    (hsp : (s.dsyAt p).spare = some sp) (hne : sp ≠ l) : let t := (s.laneLost p l).1
    (t.dsyAt p).failed = (s.dsyAt p).failed ++ [l] ∧ (t.dsyAt p).lanes = (s.dsyAt p).lanes - 2 ^ l + 2 ^ sp ∧ (t.dsyAt p).spare = none ∧
      (t.dsyAt p).st = (s.dsyAt p).st ∧ t.reports = s.reports ∧ t.reg .dsy p 0x48 = satNat 32 (s.reg .dsy p 0x48 + 1) := by
  have hst : 2 ≤ (s.dsyAt p).st := of_decide_eq_true hup
  have hkeep : (if (s.dsyAt p).spare = some l then none else (s.dsyAt p).spare) = some sp := by
    rw [hsp, if_neg (fun h => hne (Option.some.inj h))]
  have hlost : ∃ u : State, (s.laneLost p l).1 = (u.bump .dsy p 0x48 1).ctrlFrame p 3 l ∧ (u.dsyAt p).failed = (s.dsyAt p).failed ++ [l] ∧
      (u.dsyAt p).lanes = (s.dsyAt p).lanes - 2 ^ l + 2 ^ sp ∧ (u.dsyAt p).spare = none ∧ (u.dsyAt p).st = (s.dsyAt p).st ∧ u.reports = s.reports ∧
      (∀ k, u.rd k = s.rd k) := by
    unfold State.laneLost
    dsimp only
    rw [hf, hb, if_neg (by decide), if_neg (by rw [decide_eq_false (Nat.not_lt.mpr hst)]; decide)]
    have hz := dsyAt_mod s p p (fun d => { d with failed := d.failed ++ [l], spare := if d.spare = some l then none else d.spare })
    rw [if_pos rfl] at hz
    rw [hkeep] at hz
    rw [hz]
    refine ⟨_, rfl, ?_, ?_, ?_, ?_, rfl, fun _ => rfl⟩
    · rw [dsyAt_mod, if_pos rfl, hz]
    · rw [dsyAt_mod, if_pos rfl, hz]
    · rw [dsyAt_mod, if_pos rfl]
    · rw [dsyAt_mod, if_pos rfl, hz]
  obtain ⟨u, hu, h1, h2, h3, h4, h5, h6⟩ := hlost
  have hdsy : ((u.bump .dsy p 0x48 1).ctrlFrame p 3 l).dsyAt p = u.dsyAt p := bump_keep (fun s => s.dsyAt p) (fun _ _ _ => rfl) u _ _ _ _
  intro t
  have ht : t = (u.bump .dsy p 0x48 1).ctrlFrame p 3 l := hu
  rw [ht, hdsy]
  refine ⟨h1, h2, h3, h4, (bump_keep (fun s => s.reports) (fun _ _ _ => rfl) u _ _ _ _).trans h5, (reg_bump_same u _ _ _ _ (by decide)).trans ?_⟩
  rw [State.reg_eq, h6]
  rfl

theorem laneLost_reset {s : State} {p l : Nat} (hf : (s.dsyAt p).failed.contains l = false) (hb : bit (s.dsyAt p).lanes l = true) (hup : s.dsyUp p = true)
    (hsp : (s.dsyAt p).spare = none) : let t := (s.laneLost p l).1
    (t.dsyAt p).failed = (s.dsyAt p).failed ++ [l] ∧ (t.dsyAt p).st = 1 ∧ t.reports = s.reports ∧ t.reg .dsy p 0x50 = satNat 32 (s.reg .dsy p 0x50 + 1) := by
  have hst : 2 ≤ (s.dsyAt p).st := of_decide_eq_true hup
  have hlost : ∃ u : State, (s.laneLost p l).1 = u.dsyReset p ∧ (u.dsyAt p).failed = (s.dsyAt p).failed ++ [l] ∧ u.reports = s.reports ∧ (∀ k, u.rd k = s.rd k) := by
    unfold State.laneLost
    dsimp only
    rw [hf, hb, if_neg (by decide), if_neg (by rw [decide_eq_false (Nat.not_lt.mpr hst)]; decide)]
    have hz := dsyAt_mod s p p (fun d => { d with failed := d.failed ++ [l], spare := if d.spare = some l then none else d.spare })
    rw [if_pos rfl] at hz
    rw [hsp, if_neg (by simp)] at hz
    rw [hz]
    refine ⟨_, rfl, ?_, rfl, fun _ => rfl⟩
    rw [hz]
  obtain ⟨u, hu, h1, h2, h3⟩ := hlost
  have hfailed : ((u.dsyReset p).dsyAt p).failed = (u.dsyAt p).failed := by
    unfold State.dsyReset
    rw [linkDrop_dsyAt, if_pos rfl]
    have hbump : (u.bump .dsy p 0x50 1).dsyAt p = u.dsyAt p := bump_keep (fun s => s.dsyAt p) (fun _ _ _ => rfl) u _ _ _ _
    show ((u.bump .dsy p 0x50 1).dsyAt p).failed = _
    rw [hbump]
  intro t
  have ht : t = u.dsyReset p := hu
  rw [ht]
  refine ⟨hfailed.trans h1, dsyReset_dsyAt u p, (dsyReset_keep (fun s => s.reports) (fun _ _ => rfl) (fun _ _ => rfl) (fun _ _ _ => rfl) u p).trans h2, ?_⟩
  refine (linkDrop_keep (fun s => s.reg .dsy p 0x50) (fun _ _ => rfl) (fun _ _ => rfl) _ p 1).trans ((reg_bump_same u _ _ _ _ (by decide)).trans ?_)
  rw [State.reg_eq, h3]
  rfl

theorem laneFail_exec {s : State} {p l : Nat} (hp : p ≤ 1) (hl : l ≤ 8) (hup : s.dsyUp p = true) (hf : (s.dsyAt p).failed.contains l = false) :
    exec (.laneFail p l) s = .next ((s.laneLost p l).1.report { kind := 0x10, unit := uLane p l }) := by
  refine congrArg Host.Outcome.next (if_neg ?_)
  rw [hup, hf]
  simp only [Bool.not_true, Bool.false_eq_true, or_false]
  omega

/-! ### Positions -/

/-- A worker without a position takes the one that ENUM gives, acknowledges it, and passes ENUM on or answers END (R366). -/
theorem enumTaken_chain {s : State} {pos : Nat} (hr : s.sec.role = 2) :
    let z := (s.withChain { s.chain with valid := true, pos := pos }).ctrlFrame 0 2 pos
    z.enumOn.chain = { s.chain with valid := true, pos := pos, frames := s.chain.frames ++ [(0, 2, pos), if s.dsyUp 1 then (1, 0, pos + 1) else (0, 1, pos)] } := by
  intro z
  have hup : z.dsyUp 1 = s.dsyUp 1 := rfl
  have hrole : ¬ z.sec.role = 1 := by
    have : z.sec.role = 2 := hr
    omega
  unfold State.enumOn
  rw [hup]
  cases s.dsyUp 1 with
  | true =>
    rw [if_pos rfl, if_pos rfl, ctrlFrame_chain]
    show ({ s.chain with valid := true, pos := pos, frames := (s.chain.frames ++ [(0, 2, pos)]) ++ [(1, 0, pos + 1)] } : ChainSt) = _
    rw [List.append_assoc]
    rfl
  | false =>
    rw [if_neg (by decide), if_neg hrole, if_neg (by decide), ctrlFrame_chain]
    show ({ s.chain with valid := true, pos := pos, frames := (s.chain.frames ++ [(0, 2, pos)]) ++ [(0, 1, pos)] } : ChainSt) = _
    rw [List.append_assoc]
    rfl

theorem plain_dsyCfg : ∀ p ≤ 1, plainReg (rOff .dsy p 0x40) = true := by decide

/-- Settles O44: training by `trained_st`, a failing lane by `laneLost_spare` and `laneLost_reset`, the frames by their branches. -/
theorem chainsAreEnumerated : Obligations.ChainsAreEnumerated := by
  unfold Obligations.ChainsAreEnumerated
  intro s p hp up
  refine ⟨trained_st, fun peer hr hst hen hon hdn => ⟨?_, fun hp0 hf => ?_⟩, fun hu hr pos => ?_, fun hu hr hv pos h1 h2 => ?_, fun pos hpos hu => ⟨fun hr => ?_, fun hr => ?_⟩,
    fun hr hdn => ?_, fun hu => ?_, fun l hl hu hf hb => ⟨fun sp hsp hne => ?_, fun hsp => ?_⟩, fun healthy hst => ?_, fun value hbad h1 h2 => ⟨fun hon hoff => ?_, fun hoff hon => ?_⟩⟩
  · refine congrArg Host.Outcome.next (if_neg ?_)
    rw [hen, hon, hdn]
    simp only [Bool.not_true, Bool.false_eq_true, or_false]
    omega
  · subst hp0
    refine gives (t := (s.train 0 0x1FF).modDsy 0 (fun d => { d with peer := peer % 16 })) (congrArg Host.Outcome.next ((if_neg ?_).trans (if_pos (Or.inl (by decide))))) ⟨?_, rfl, ⟨fun _ => rfl, fun _ => rfl⟩, fun _ _ => rfl⟩
    · rw [hen, hon, hdn]
      simp only [Bool.not_true, Bool.false_eq_true, or_false]
      omega
    · unfold State.train
      rw [dsyAt_mod, if_pos rfl, dsyAt_mod, if_pos rfl, trained_fresh _ hf]
  · have h0 : ¬ (0 ≠ 0 ∨ (!s.dsyUp 0) = true) := by
      rw [show s.dsyUp 0 = true from hu]
      decide
    exact gives (congrArg Host.Outcome.next ((if_neg h0).trans (if_pos hr))) ⟨rfl, withChain_frame s _⟩
  · have h0 : ¬ (0 ≠ 0 ∨ (!s.dsyUp 0) = true) := by
      rw [show s.dsyUp 0 = true from hu]
      decide
    have hnew : ¬ (s.chain.valid = true ∧ s.chain.pos = pos) := fun h => absurd (h.1.symm.trans hv) (by decide)
    have hfresh : ¬ s.chain.valid = true := by rw [hv]; decide
    refine gives (t := ((s.withChain { s.chain with valid := true, pos := pos }).ctrlFrame 0 2 pos).enumOn) (congrArg Host.Outcome.next ?_) ⟨enumTaken_chain hr, ?_, ?_⟩
    · refine (if_neg h0).trans ((if_neg (by omega)).trans ((if_neg (by omega)).trans ((if_neg (by omega)).trans ((if_neg hnew).trans ?_))))
      dsimp only
      rw [if_neg hfresh]
    · exact ((withChain_frame s _).1.trans (ctrlFrame_frame _ _ _ _).1).trans (enumOn_frame _).1
    · exact fun k hk => (enumOn_frame _).2 k hk
  · have h0 : ¬ (pos > 15 ∨ (!s.dsyUp 1) = true) := by
      rw [show s.dsyUp 1 = true from hu]
      simpa using hpos
    refine gives (congrArg Host.Outcome.next ((if_neg h0).trans (if_pos hr))) ?_
    dsimp only
    by_cases hc : s.chain.count ≠ pos + 1 ∧ bit (s.reg .dsy 1 0x40) 2 = true
    · rw [if_pos hc]
      refine ⟨rfl, ?_, ⟨fun _ => rfl, fun _ => rfl⟩, fun _ _ => rfl⟩
      show true = _
      rw [decide_eq_true hc.1, hc.2]
      simp
    · rw [if_neg hc]
      refine ⟨rfl, ?_, ⟨fun _ => rfl, fun _ => rfl⟩, fun _ _ => rfl⟩
      have hno : (decide (s.chain.count ≠ pos + 1) && bit (s.reg .dsy 1 0x40) 2) = false := by
        rw [← Bool.not_eq_true, Bool.and_eq_true, decide_eq_true_eq]
        exact hc
      rw [hno, Bool.or_false]
      rfl
  · have h0 : ¬ (pos > 15 ∨ (!s.dsyUp 1) = true) := by
      rw [show s.dsyUp 1 = true from hu]
      simpa using hpos
    exact gives (congrArg Host.Outcome.next ((if_neg h0).trans ((if_neg (by omega)).trans (if_pos hr)))) ⟨ctrlFrame_chain s _ _ _, ctrlFrame_frame s _ _ _⟩
  · refine gives (congrArg Host.Outcome.next (if_neg ?_)) ⟨rfl, withChain_frame s _⟩
    rw [hr, hdn]
    decide
  · refine gives (t := s.bump .dsy p 0x4C 1) (congrArg Host.Outcome.next (if_neg ?_)) ⟨reg_bump_same s _ _ _ _ (by decide), bump_mem s _ _ _ _, fun k hk => State.rd_bump_other s _ _ _ _ _ hk⟩
    rw [show s.dsyUp p = true from hu]
    simpa using hp
  · obtain ⟨k1, k2, k3, k4, k5, k6⟩ := laneLost_spare hf hb hu hsp hne
    exact gives (laneFail_exec hp hl hu hf) ⟨k1, k2, k3, k4, congrArg (· ++ [({ kind := 0x10, unit := uLane p l } : Report)]) k5, k6⟩
  · obtain ⟨k1, k2, k3, k4⟩ := laneLost_reset hf hb hu hsp
    exact gives (laneFail_exec hp hl hu hf) ⟨k1, k2, congrArg (· ++ [({ kind := 0x10, unit := uLane p l } : Report)]) k3, k4⟩
  · exact congrArg Host.Outcome.next (if_neg (by omega))
  · have hrd := (regPut_plain (s := s) (v := value.toNat) (plain_dsyCfg p hp) (rOff .dsy p 0x40)).trans ((if_pos rfl).trans (Nat.mod_eq_of_lt value.isLt))
    refine gives (t := (s.regPut (rOff .dsy p 0x40) value.toNat).linkDrop p 0) (congrArg Host.Outcome.next ((if_neg (by omega)).trans ((regWrite_ok hbad rfl ?_).trans (if_pos ?_)))) ⟨?_, ?_⟩
    · rw [h1, h2]
      rfl
    · rw [show bit (s.rd (rOff .dsy p 0x40)) 0 = true from hon, hoff]
      rfl
    · exact (linkDrop_keep (fun s => s.reg .dsy p 0x40) (fun _ _ => rfl) (fun _ _ => rfl) _ p 0).trans hrd
    · rw [linkDrop_dsyAt, if_pos rfl]
  · have hrd := (regPut_plain (s := s) (v := value.toNat) (plain_dsyCfg p hp) (rOff .dsy p 0x40)).trans ((if_pos rfl).trans (Nat.mod_eq_of_lt value.isLt))
    refine gives (t := (s.regPut (rOff .dsy p 0x40) value.toNat).dsyReset p) (congrArg Host.Outcome.next ((if_neg (by omega)).trans ((regWrite_ok hbad rfl ?_).trans ((if_neg ?_).trans (if_pos ?_))))) ⟨?_, dsyReset_dsyAt _ p⟩
    · rw [h1, h2]
      rfl
    · rw [show bit (s.rd (rOff .dsy p 0x40)) 0 = false from hoff]
      exact Bool.false_ne_true
    · rw [show bit (s.rd (rOff .dsy p 0x40)) 0 = false from hoff, hon]
      rfl
    · refine (linkDrop_keep (fun s => s.reg .dsy p 0x40) (fun _ _ => rfl) (fun _ _ => rfl) _ p 1).trans ?_
      exact (reg_bump_other _ _ _ _ _ _ (by decide)).trans hrd

/-! ### Messages, tunnels and pushes -/

theorem lpWrite_keep {β : Type} (g : State → β) (h0 : ∀ s m b, g { s with lpmem := m, lpBad := b } = g s) (h3 : ∀ s o v, g (State.wr s o v) = g s) (h4 : ∀ s p f, g (State.modPage s p f) = g s)
    (s : State) (a : Nat) (bs : List Byte) : g (s.lpWrite a bs) = g s := by
  unfold State.lpWrite
  dsimp only
  rw [bump64_keep g h3 h4, bump64_keep g h3 h4, h0]

/-- A message joins a queue of the chain and is counted (R383). -/
theorem counted_chain (s : State) (o : Nat) (x : ChainSt) : let t := (s.bump .dsy 1 o 1).withChain x
    t.chain = x ∧ t.reg .dsy 1 o = satNat 32 (s.reg .dsy 1 o + 1) ∧ SameMemory s t ∧ SameRegs s t (fun off => off = rOff .dsy 1 o) :=
  ⟨rfl, reg_bump_same s _ _ _ _ (by decide), (bump_mem s _ _ _ _).trans (withChain_frame _ _).1, fun _ hk => State.rd_bump_other s _ _ _ _ _ hk⟩

/-- What PUSHCTL's GO leaves of the push (R379). -/
def State.pushStarted (s : State) (v : Nat) : State :=
  (((s.wr (rOff .dsy 1 0x84) (v % 2 ^ 31)).setReg .dsy 1 0x88 1).setReg .dsy 1 0x8C 0).withChain { s.chain with push := s.chain.push + 1 }

theorem pushStarted_spec (s : State) (v : Nat) : let t := s.pushStarted v
    t.reg .dsy 1 0x88 = 1 ∧ t.reg .dsy 1 0x8C = 0 ∧ t.reg .dsy 1 0x84 = v % 2 ^ 31 ∧ t.chain = { s.chain with push := s.chain.push + 1 } ∧ SameMemory s t := by
  have hz : (s.wr (rOff .dsy 1 0x84) (v % 2 ^ 31)).rd (rOff .dsy 1 0x84) = v % 2 ^ 31 := by
    rw [State.rd_wr, if_pos rfl]
    exact Nat.mod_eq_of_lt (lt_of_lt_of_le (Nat.mod_lt _ (by decide)) (by decide))
  have hm := wr_memory s (rOff .dsy 1 0x84) (v % 2 ^ 31)
  unfold State.pushStarted
  generalize s.wr (rOff .dsy 1 0x84) (v % 2 ^ 31) = z at hz hm ⊢
  have h1 : (z.setReg .dsy 1 0x88 1).reg .dsy 1 0x88 = 1 := reg_setReg z _ _ _ _
  have h2 : (z.setReg .dsy 1 0x88 1).rd (rOff .dsy 1 0x84) = v % 2 ^ 31 := (rd_setReg_other z _ _ _ _ _ (by decide)).trans hz
  have hm2 := hm.trans (setReg_memory z .dsy 1 0x88 1)
  generalize z.setReg .dsy 1 0x88 1 = y at h1 h2 hm2 ⊢
  have h3 : (y.setReg .dsy 1 0x8C 0).reg .dsy 1 0x88 = 1 := (rd_setReg_other y _ _ _ _ _ (by decide)).trans h1
  have h4 : (y.setReg .dsy 1 0x8C 0).reg .dsy 1 0x8C = 0 := reg_setReg y _ _ _ _
  have h5 : (y.setReg .dsy 1 0x8C 0).reg .dsy 1 0x84 = v % 2 ^ 31 := (rd_setReg_other y _ _ _ _ _ (by decide)).trans h2
  exact ⟨h3, h4, h5, rfl, (hm2.trans (setReg_memory y _ _ _ _)).trans (withChain_frame _ _).1⟩

/-- A block that passed its checks goes on downstream where MASK names a higher position (R380). -/
def State.blockOn (s : State) (hdr : PushHdr) : State :=
  if hdr.mask.toNat >>> (s.chain.pos + 1) ≠ 0 ∧ s.dsyUp 1 then s.withChain { s.chain with blocks := s.chain.blocks ++ [hdr] } else s

theorem blockOn_spec (s : State) (hdr : PushHdr) : SameMemory s (s.blockOn hdr) ∧
    (s.blockOn hdr).chain.blocks = (if hdr.mask.toNat >>> (s.chain.pos + 1) ≠ 0 ∧ s.dsyUp 1 = true then s.chain.blocks ++ [hdr] else s.chain.blocks) := by
  unfold State.blockOn
  split
  · exact ⟨(withChain_frame s _).1, rfl⟩
  · exact ⟨sameMemory_rfl s, rfl⟩

/-- A worker keeps a block that names it (R380). -/
def State.blockKept (s : State) (hdr : PushHdr) (data : List Byte) (me : Bool) : State :=
  if me then (s.withChain { s.chain with refused := 0 }).lpWrite (hdr.dest + 65536 * hdr.index) data else s.withChain { s.chain with refused := 0 }

theorem blockKept_keep {β : Type} (g : State → β) (h0 : ∀ s m b, g { s with lpmem := m, lpBad := b } = g s) (h1 : ∀ s o v, g (State.wr s o v) = g s) (h2 : ∀ s p f, g (State.modPage s p f) = g s)
    (s : State) (hdr : PushHdr) (data : List Byte) (me : Bool) : g (s.blockKept hdr data me) = g (s.withChain { s.chain with refused := 0 }) := by
  unfold State.blockKept
  cases me with
  | true =>
    rw [if_pos rfl]
    exact lpWrite_keep g h0 h1 h2 _ _ _
  | false => rfl

/-- A worker's block that passed its checks (R380). -/
theorem pushBlock_worker {s : State} {hdr : PushHdr} {data : List Byte} (hr : s.sec.role = 2) (hup : s.dsyUp 0 = true) (hv : s.chain.valid = true) (hd : sha384 data = hdr.digest)
    (hlen : data.length = hdr.len) : exec (.pushBlock hdr data) s = .next (
      if bit hdr.mask.toNat s.chain.pos && hdr.index == 0 && (s.pushRefuse hdr.dest hdr.total).isSome then s
      else (s.blockKept hdr data (bit hdr.mask.toNat s.chain.pos)).blockOn hdr) := by
  have hlive : ¬ (s.sec.role ≠ 2 ∨ (!s.dsyUp 0) = true ∨ (!s.chain.valid) = true) := by
    rw [hr, hup, hv]
    decide
  have hgood : ¬ (sha384 data ≠ hdr.digest ∨ data.length ≠ hdr.len) := fun h => h.elim (fun h => h hd) (fun h => h hlen)
  refine congrArg Host.Outcome.next ((if_neg (by omega)).trans ((if_neg hlive).trans ((if_neg hgood).trans ?_)))
  rfl

theorem ceilDiv_le {a b : Nat} (h : a < 2 ^ 32) (hb : b = 65536) : ceilDiv a b ≤ 65536 := by
  subst hb
  unfold ceilDiv
  rw [if_neg (by decide)]
  omega

/-- The header of the block that a manager sends next (R380). -/
def State.blockHdr (s : State) (data : List Byte) : PushHdr :=
  let i := s.reg .dsy 1 0x8C
  let n := min 65536 (s.reg .dsy 1 0x80 - 65536 * i)
  { push := s.chain.push, index := i, count := s.pushBlocks, mask := BitVec.ofNat 16 (s.reg .dsy 1 0x84), dest := s.reg64 .dsy 1 0x78, len := n,
    total := s.reg .dsy 1 0x80, digest := sha384 (sliceB data 0 n) }

/-- Settles O45: messages by `counted_chain`, pushes by `pushStarted_spec` and `blockOn_spec`. -/
theorem messagesAndImagesMoveAlongTheChain : Obligations.MessagesAndImagesMoveAlongTheChain := by
  unfold Obligations.MessagesAndImagesMoveAlongTheChain
  intro s
  refine ⟨fun msg hr hu => ?_, fun pos a d n hr hu h1 h2 hl => ⟨?_, ?_⟩, fun e ht hd hin => ?_, fun value hbad hr hidle hgo hm hlen hlen64 hsrc hdst hmask hcap => ?_,
    fun hdr data hr hu hv hd hlen hmax => ⟨fun hb hi href => ?_, fun hb hok => ?_, fun hb => ?_⟩, fun hdr data hr hp hi h0 h16 => ?_, fun hr hp hi => ?_, fun c pos hc hr hp hpos => ?_⟩
  · intro tag mine
    have hlive : ¬ (s.sec.role = 0 ∨ (!s.dsyUp 1) = true) := by
      rw [hu]
      simpa using hr
    refine ⟨fun hmine hroom => ?_, fun hmine hfull => ?_, fun hmine hup => ?_⟩
    · exact gives (congrArg Host.Outcome.next ((if_neg hlive).trans ((if_pos hmine).trans (if_neg (Nat.not_le.mpr hroom))))) (counted_chain s 0x58 _)
    · exact congrArg Host.Outcome.next ((if_neg hlive).trans ((if_pos hmine).trans (if_pos hfull)))
    · exact gives (congrArg Host.Outcome.next ((if_neg hlive).trans ((if_neg hmine).trans (if_neg (by rw [hup]; decide))))) (counted_chain s 0x5C _)
  · refine gives (t := s.withHost { s.host with writes := s.host.writes ++ [(a, d)], l1 := false }) (congrArg Host.Outcome.next ((if_neg ?_).trans (if_pos ?_))) ⟨rfl, rfl, fun _ => rfl, fun _ => rfl⟩
    · rw [hr, hu]
      simp only [Bool.not_true, Bool.false_eq_true, false_or, ne_eq, not_true]
      omega
    · rw [hl]
      rfl
  · refine gives (congrArg Host.Outcome.next ((if_neg ?_).trans (if_pos hl))) ⟨rfl, rfl, (withChain_frame s _).1⟩
    rw [hr, hu]
    simp only [Bool.not_true, Bool.false_eq_true, false_or, ne_eq, not_true]
    omega
  · refine ⟨_, congrArg Host.Outcome.next (if_neg ?_), ?_⟩
    · rw [ht, hd, hin]
      decide
    · split
      · rfl
      · rfl
  · refine gives (t := s.pushStarted value.toNat) (congrArg Host.Outcome.next ((regWrite_ok hbad rfl (firstBad_of_false ?_)).trans (if_pos hgo))) (pushStarted_spec s _)
    have hstate : (s.pushState == 1) = false := by simpa using hidle
    have hrole : (s.sec.role != 1) = false := by rw [hr]; rfl
    rw [hgo, hstate, hrole]
    simp only [List.mem_cons, List.not_mem_nil, or_false, forall_eq_or_imp, forall_eq, Bool.true_and, true_and]
    refine ⟨?_, ?_, ?_⟩
    · rw [beq_eq_false_iff_ne.mpr hm, beq_eq_false_iff_ne.mpr hlen, decide_eq_false (not_not_intro hlen64)]
      rfl
    · exact decide_eq_false fun h => h.elim (fun h => h hsrc) (fun h => h hdst)
    · rw [decide_eq_false (Nat.not_le.mpr hmask), decide_eq_false (fun h => absurd (hcap h.1) (Nat.not_le.mpr h.2))]
      rfl
  · rw [pushBlock_worker hr hu hv hd hlen, if_pos]
    rw [hb, hi, Option.isSome_iff_ne_none.mpr href]
    rfl
  · have hexec := pushBlock_worker hr hu hv hd hlen
    rw [if_neg ?_, hb] at hexec
    · obtain ⟨k1, k2⟩ := blockOn_spec (s.blockKept hdr data true) hdr
      have hchain : (s.blockKept hdr data true).chain = { s.chain with refused := 0 } := blockKept_keep (fun s => s.chain) (fun _ _ _ => rfl) (fun _ _ _ => rfl) (fun _ _ _ => rfl) s hdr data true
      have hup : (s.blockKept hdr data true).dsyUp 1 = s.dsyUp 1 := blockKept_keep (fun s => s.dsyUp 1) (fun _ _ _ => rfl) (fun _ _ _ => rfl) (fun _ _ _ => rfl) s hdr data true
      have hmem : ∀ a, (s.blockKept hdr data true).memByte a = s.memByte a := fun a => blockKept_keep (fun s => s.memByte a) (fun _ _ _ => rfl) (fun _ _ _ => rfl) (fun _ _ _ => rfl) s hdr data true
      have hlp : ∀ a, (s.blockKept hdr data true).lpByte a = if hdr.dest + 65536 * hdr.index ≤ a ∧ a < hdr.dest + 65536 * hdr.index + data.length then nth 0#8 data (a - (hdr.dest + 65536 * hdr.index)) else s.lpByte a :=
        fun a => lpByte_lpWrite (s.withChain { s.chain with refused := 0 }) _ data a
      refine gives hexec ⟨fun i hi => ?_, fun a ha => ?_, fun a => (k1.1 a).trans (hmem a), ?_⟩
      · rw [k1.2, hlp, if_pos (by omega), Nat.add_sub_cancel_left]
      · rw [k1.2, hlp, if_neg (by omega)]
      · rw [k2, hchain, hup]
    · rw [hb, Bool.true_and]
      rcases hok with h | h
      · rw [beq_eq_false_iff_ne.mpr h]
        exact Bool.false_ne_true
      · rw [h]
        simp
  · have hexec := pushBlock_worker hr hu hv hd hlen
    rw [hb, if_neg (by simp)] at hexec
    obtain ⟨k1, k2⟩ := blockOn_spec (s.blockKept hdr data false) hdr
    exact gives hexec ⟨SameMemory.trans (t := s.blockKept hdr data false) ⟨fun _ => rfl, fun _ => rfl⟩ k1, k2⟩
  · intro i n
    have hi' : i + 1 < 2 ^ 32 := by
      have hle : s.pushBlocks ≤ 65536 := ceilDiv_le (rd_lt s _) rfl
      have : i < s.pushBlocks := hi
      omega
    have hgo : ¬ (s.pushState ≠ 1 ∨ s.reg .dsy 1 0x8C ≥ s.pushBlocks) := fun h => h.elim (fun h => h hp) (Nat.not_le.mpr hi)
    have hexec : exec (.pushBlock hdr data) s = .next ((if bits (s.reg .dsy 1 0x84) 15 1 ≠ 0 then s.withChain { s.chain with blocks := s.chain.blocks ++ [s.blockHdr data] } else s).setReg .dsy 1 0x8C (i + 1)) := by
      refine congrArg Host.Outcome.next ((if_pos hr).trans ((if_neg hgo).trans ?_))
      dsimp only
      rw [h0, h16]
      rfl
    refine gives hexec ⟨(reg_setReg _ _ _ _ _).trans (Nat.mod_eq_of_lt hi'), ?_, fun hmask => ?_⟩
    · refine SameMemory.trans ?_ (setReg_memory _ _ _ _ _)
      split
      · exact (withChain_frame s _).1
      · exact sameMemory_rfl s
    · rw [if_pos hmask]
      rfl
  · refine gives (congrArg Host.Outcome.next (if_pos ⟨hr, hp, hi⟩)) ⟨reg_setReg s _ _ _ _, setReg_frame s _ _ _ _⟩
  · have hfind : [Code.digest, .range, .state, .link].find? (fun x => x.num == c.num) = some c ∧ c.num < 256 := by
      simp only [List.mem_cons, List.not_mem_nil, or_false] at hc
      rcases hc with rfl | rfl | rfl | rfl
      · decide
      · decide
      · decide
      · decide
    refine gives (t := s.pushEnd c pos) (congrArg Host.Outcome.next ?_) ⟨?_, setReg_frame s _ _ _ _⟩
    · rw [hfind.1]
      exact if_pos ⟨hr, hp, hpos⟩
    · refine (reg_setReg s _ _ _ _).trans ?_
      have hnum := hfind.2
      rw [Nat.shiftLeft_eq, Nat.shiftLeft_eq]
      exact Nat.mod_eq_of_lt (by omega)

end Sys2Proof.Machine
end

section
/-!
PROOFS. The host's view of the registers: the checks of an access, the queues and the status record, the readback and the remote window.
-/
open Sys2Proof Sys2Proof.Machine

namespace Sys2Proof.Machine

/-! ### Accesses to a mapped page (R36, R44, R45, R49, R50) -/

section
variable {s : State} {off : Nat} {t : PType} {i : Nat}

theorem write4_header (h : pageAt (off / 4096) = some (t, i)) (ho : off % 4096 < 0x40) (v : Word) : s.write4 off v = s.hdrWrite off v :=
  (write4_page s off v t i h).trans (if_pos ho)

theorem wideAt_narrow {r : Reg} {b : Nat} (h : pageAt (off / 4096) = some (t, i)) (hreg : findReg t (off % 4096) = some (r, b)) (hw : r.wide = false) :
    wideAt off = none := by
  unfold wideAt
  rw [h]; dsimp only
  rw [hreg]; dsimp only
  rw [hw, if_neg Bool.false_ne_true, ite_self]

theorem write4_word (h : pageAt (off / 4096) = some (t, i)) (ho : 0x40 ≤ off % 4096) (hw : wideAt off = none) (v : Word) :
    s.write4 off v = s.wordWrite t i (off % 4096) v := by
  rw [write4_page s off v t i h, if_neg (by omega), hw]

theorem oddAccess_mapped (h : pageAt (off / 4096) = some (t, i)) {size : Nat} (hs : size ≤ 8) (w : Bool) :
    s.oddAccess w off size = if w then s.rejectOff off .align else s.reply (s.rawBytes off size) := by
  unfold State.oddAccess
  rw [if_neg (by omega), h]

theorem hdrWrite_err (ho : off % 4096 = 0x10) (v : Word) :
    s.hdrWrite off v = s.modPage (off / 4096) (fun h =>
      { h with
        errCode := h.errCode - (h.errCode &&& bits v.toNat 31 24)
        errOff := h.errOff - (h.errOff &&& bits v.toNat 11 0) }) :=
  (if_neg (by omega)).trans (if_pos ho)

theorem hdrWrite_readOnly (h8 : off % 4096 ≠ 8) (h10 : off % 4096 ≠ 0x10) (v : Word) : s.hdrWrite off v = s :=
  (if_neg h8).trans (if_neg h10)

theorem beq_power_false {lo v : Nat} (h : s.regBad lo v ≠ some .power) : (s.regBad lo v == some .power) = false := by simpa using h

theorem exec_lowWordWrite (hw : wideAt off = some off) (hp : s.regBad off 0 ≠ some .power) (v : Word) :
    exec (.lowWordWrite off v) s = .next (s.stageLow off v.toNat) := by
  have hexec : exec (.lowWordWrite off v) s = .next (s.halfWrite off off v.toNat) := by
    show execLowWordWrite off v s = _
    unfold execLowWordWrite
    rw [hw]
    exact congrArg Host.Outcome.next (if_pos rfl)
  rw [hexec]
  unfold State.halfWrite
  rw [beq_power_false hp, if_neg Bool.false_ne_true, if_pos rfl]

theorem takeLow_staged {low : Nat} (hpage : (off + 4) / 4096 = off / 4096) (hst : (s.page (off / 4096)).staging = some (off % 4096, low)) (v : Nat) :
    s.takeLow (off + 4) v = (s.modPage (off / 4096) (fun p => { p with staging := none }), low + v * 2 ^ 32) := by
  unfold State.takeLow
  rw [hpage, hst]
  exact if_pos rfl

theorem exec_oversized (size : Nat) (w : Bool) (hs : 8 < size) (hr : off < 0x2000000) (hf : s.forwards off = false) :
    exec (.bar0OddAccess w off size) s = .next ((s.bump .hif 0 0x60 1).withHost { (s.bump .hif 0 0x60 1).host with
      reply := []
      poisoned := false
      unsup := true }) := by
  have hp : properAccess off size = false := by
    unfold properAccess
    rw [beq_false_of_ne (by omega : size ≠ 4), beq_false_of_ne (by omega : size ≠ 8)]; rfl
  exact (exec_bar0OddAccess w hp hr hf).trans (congrArg Host.Outcome.next (if_pos hs))

end

/-- Settles O47: each access goes by its page to the header, the plain register, the staging word, the latch or the odd access, and
each of those is one equation above. -/
theorem registerAccessesAreChecked : Obligations.RegisterAccessesAreChecked := by
  unfold Obligations.RegisterAccessesAreChecked
  intro s off hr hf
  refine ⟨fun hnone => ⟨fun v ha => ?_, ?_, ?_⟩, fun t i hpage =>
    ⟨fun v ho => ?_, fun v ha ho h8 h10 => ?_, fun r b v ha ho hreg hw hacc hown hgal hdsy => ?_, fun v hw hp => ?_, fun v low hw hp hsame hst => ?_,
      fun ha ho hon hrb hdat => ⟨fun hw => ?_, fun hw => ?_, fun lo hw hne => ?_⟩, fun size hprop hs => ⟨?_, ?_⟩, fun size w hs => ?_⟩⟩
  · exact (exec_registerWrite v ha hr hf).trans (by rw [write4_unmapped v hnone]; rfl)
  · exact exec_bar0Unmapped true hnone hr hf
  · obtain ⟨u, hu, hreply, herr, -, hmem, hregs⟩ := gives_unmapped_read (exec_bar0Unmapped false hnone hr hf)
    exact ⟨u, hu, hreply, herr, hmem, hregs⟩
  · have hexec := (exec_registerWrite v (by omega) hr hf).trans (congrArg _ ((write4_header hpage (by omega) v).trans (hdrWrite_err ho v)))
    exact gives hexec ⟨(modPage_frame _ _ _).1, (modPage_frame _ _ _).2, (page_mod _ _ _ _).trans (if_pos rfl)⟩
  · exact (exec_registerWrite v ha hr hf).trans (congrArg _ ((write4_header hpage ho v).trans (hdrWrite_readOnly h8 h10 v)))
  · have hwrite := (write4_word hpage ho (wideAt_narrow hpage hreg hw) v).trans (wordWrite_ordinary s t i _ v r b hreg hacc hown hgal hdsy)
    rw [rOff_of off t i hpage] at hwrite
    have hexec := (exec_registerWrite v ha hr hf).trans (congrArg Host.Outcome.next hwrite)
    rw [hexec]
    refine ⟨fun c hbad => ?_, fun hok hlock => ?_, fun c hok hlock hst => ?_, fun hok hlock hst => ⟨?_, fun hwo => ?_⟩⟩
    · exact congrArg Host.Outcome.next (regWrite_bad (by rw [hbad]; rfl))
    · exact congrArg Host.Outcome.next (regWrite_bad (by rw [hok, hlock]; rfl))
    · exact congrArg Host.Outcome.next (regWrite_bad (by rw [hok, hlock, hst]; rfl))
    · exact congrArg Host.Outcome.next (regWrite_ok hok hlock hst)
    · refine (regPut_rd hpage hreg hw ?_ off).trans ((if_pos rfl).trans (Nat.mod_eq_of_lt v.isLt))
      rw [beq_false_of_ne hwo, beq_false_of_ne hacc]; rfl
  · exact gives (exec_lowWordWrite hw hp v) ⟨(page_mod _ _ _ _).trans (if_pos rfl), (modPage_frame _ _ _).1, (modPage_frame _ _ _).2⟩
  · exact exec_highWordWrite hw rfl (beq_power_false hp) (takeLow_staged hsame hst v.toNat)
  · have hread := read4_page s off t i hpage ho hon hrb hdat
    rw [hw] at hread
    exact gives ((exec_lowWordRead ha hr hf).trans (congrArg _ hread)) ⟨rfl, rfl, (reply_frame s _).1, (reply_frame s _).2⟩
  · have hread := read4_page s off t i hpage ho hon hrb hdat
    rw [hw] at hread
    exact gives ((exec_lowWordRead ha hr hf).trans (congrArg _ (hread.trans (if_pos rfl)))) ⟨rfl, (reply_frame s (leBytes 4 (s.word off))).1, (reply_frame s (leBytes 4 (s.word off))).2,
      (page_mod _ _ _ _).trans (if_pos rfl)⟩
  · have hread := read4_page s off t i hpage ho hon hrb hdat
    rw [hw] at hread
    exact gives ((exec_lowWordRead ha hr hf).trans (congrArg _ (hread.trans (if_neg hne)))) ⟨rfl, rfl, (reply_frame s _).1, (reply_frame s _).2⟩
  · exact (exec_bar0OddAccess true hprop hr hf).trans (congrArg _ (oddAccess_mapped hpage hs true))
  · exact gives ((exec_bar0OddAccess false hprop hr hf).trans (congrArg _ (oddAccess_mapped hpage hs false))) ⟨rfl, rfl, (reply_frame s _).1, (reply_frame s _).2⟩
  · refine gives (exec_oversized size w hs hr hf) ⟨rfl, reg_bump_same s .hif 0 0x60 1 (by decide), bump_mem s _ _ _ _, fun k hk => ?_⟩
    exact State.rd_bump_other s _ _ _ _ _ hk

/-! ### The queues (R54 to R57) -/

/-- The four indices of a queue at 0. -/
def State.indicesZeroed (z : State) (q : Nat) : State :=
  (((z.setReg .que q 0x4C 0).setReg .que q 0x50 0).setReg .que q 0x54 0).setReg .que q 0x64 0

/-- A queue that starts: its four indices at 0, its first pass begun. -/
def State.queueStarted (z : State) (q : Nat) : State :=
  ((z.indicesZeroed q).modQueue q (fun x => { x with turn := 0, cseq := 0, phase := true })).withHost { z.host with d3hot := false }

theorem exec_queueEnable {s : State} {q : Nat} (hq : q ≤ 3) (value : Word) (hbad : s.regBad (rOff .que q 0x68) value.toNat = none) :
    exec (.queueEnable q value) s = .next (if bit (s.reg .que q 0x68) 0 || !bit value.toNat 0 then s.regPut (rOff .que q 0x68) value.toNat
      else (s.regPut (rOff .que q 0x68) value.toNat).queueStarted q) :=
  congrArg Host.Outcome.next ((if_neg (by omega)).trans (regWrite_ok hbad rfl rfl))

theorem indicesZeroed_frame (z : State) (q : Nat) : SameMemory z (z.indicesZeroed q) ∧ ∀ j, (z.indicesZeroed q).queue j = z.queue j :=
  ⟨(setReg_frame _ _ _ _ _).1.trans ((setReg_frame _ _ _ _ _).1.trans ((setReg_frame _ _ _ _ _).1.trans (setReg_frame _ _ _ _ _).1)), fun _ => rfl⟩

theorem queueStarted_rd (z : State) (q k : Nat) : (z.queueStarted q).rd k = (z.indicesZeroed q).rd k := rfl

theorem queueStarted_regs (z : State) (q : Nat) :
    (z.queueStarted q).reg .que q 0x4C = 0 ∧ (z.queueStarted q).reg .que q 0x50 = 0 ∧ (z.queueStarted q).reg .que q 0x54 = 0 ∧
    (z.queueStarted q).reg .que q 0x64 = 0 ∧
    ∀ k, k ≠ rOff .que q 0x4C → k ≠ rOff .que q 0x50 → k ≠ rOff .que q 0x54 → k ≠ rOff .que q 0x64 → (z.queueStarted q).rd k = z.rd k :=
  four_setReg z (rOff .que q 0x4C) (rOff .que q 0x50) (rOff .que q 0x54) (rOff .que q 0x64) (by unfold rOff; omega) (by unfold rOff; omega)
    (by unfold rOff; omega) (by unfold rOff; omega) (by unfold rOff; omega) (by unfold rOff; omega)

theorem queueStarted_queue (z : State) (q : Nat) : (z.queueStarted q).queue q = { z.queue q with turn := 0, cseq := 0, phase := true } := by
  have hqueue := (indicesZeroed_frame z q).2 q
  unfold State.queueStarted
  generalize z.indicesZeroed q = y at hqueue
  refine (State.queue_modQueue y q q (fun x => { x with turn := 0, cseq := 0, phase := true })).trans ?_
  rw [if_pos rfl, hqueue]

theorem queueStarted_mem (z : State) (q : Nat) : SameMemory z (z.queueStarted q) := by
  have hmem := (indicesZeroed_frame z q).1
  unfold State.queueStarted
  generalize z.indicesZeroed q = y at hmem
  exact ⟨hmem.1, hmem.2⟩

theorem regPut_queue (s : State) (off v q : Nat) : (s.regPut off v).queue q = s.queue q :=
  regPut_keep (fun s => s.queue q) (fun _ _ => rfl) (fun _ _ => rfl) (fun _ _ _ => rfl) (fun _ _ _ => rfl) s off v

theorem regPut_host (s : State) (off v : Nat) : (s.regPut off v).host = s.host :=
  regPut_keep (fun s => s.host) (fun _ _ => rfl) (fun _ _ => rfl) (fun _ _ _ => rfl) (fun _ _ _ => rfl) s off v

/-- The turns of the four queues after queue `q` has been served. -/
def State.turned (s : State) (q : Nat) : State :=
  (List.range 4).foldl (fun s j => s.modQueue j (fun x => { x with turn := if j ≠ q ∧ s.queWaits j then x.turn + 1 else 0 })) s

/-- The next entry of queue `q` is taken: its index moves on, and the entry is in flight. -/
def State.fetched (s : State) (q : Nat) (x : InFl) : State :=
  ((s.turned q).setReg .que q 0x50 (((s.turned q).reg .que q 0x50 + 1) % 2 ^ (s.turned q).reg .que q 0x48)).modQueue q
    (fun y => { y with inflight := y.inflight ++ [x] })

theorem turned_queue {s : State} {q j : Nat} (hj : j < 4) :
    (s.turned q).queue j = { s.queue j with turn := if j ≠ q ∧ s.queWaits j = true then (s.queue j).turn + 1 else 0 } :=
  (fetch_fold s q (List.range 4) List.nodup_range s (fun _ => rfl)).1 j (List.mem_range.mpr hj)

theorem turned_rd (s : State) (q k : Nat) : (s.turned q).rd k = s.rd k :=
  foldl_keep (fun s => s.rd k) (fun s j => s.modQueue j (fun x => { x with turn := if j ≠ q ∧ s.queWaits j then x.turn + 1 else 0 })) (fun _ _ => rfl) _ s

theorem turned_mem (s : State) (q : Nat) : SameMemory s (s.turned q) :=
  foldl_mem (fun s j => s.modQueue j (fun x => { x with turn := if j ≠ q ∧ s.queWaits j then x.turn + 1 else 0 })) (fun _ _ => ⟨fun _ => rfl, fun _ => rfl⟩) _ s

theorem fetched_queue (s : State) (q j : Nat) (x : InFl) : (s.fetched q x).queue j =
    if j = q then { (s.turned q).queue q with inflight := ((s.turned q).queue q).inflight ++ [x] } else (s.turned q).queue j :=
  State.queue_modQueue _ _ _ _

theorem fetched_head (s : State) (q : Nat) (x : InFl) :
    (s.fetched q x).reg .que q 0x50 = (s.reg .que q 0x50 + 1) % 2 ^ s.reg .que q 0x48 % 2 ^ 32 := by
  have hregs : ∀ o, (s.turned q).reg .que q o = s.reg .que q o := fun o => turned_rd s q (rOff .que q o)
  have hhead := reg_setReg (s.turned q) .que q 0x50 (((s.turned q).reg .que q 0x50 + 1) % 2 ^ (s.turned q).reg .que q 0x48)
  rw [hregs, hregs] at hhead
  exact hhead

theorem fetched_frame (s : State) (q : Nat) (x : InFl) : SameMemory s (s.fetched q x) ∧ SameRegs s (s.fetched q x) (fun k => k = rOff .que q 0x50) := by
  have hmem := turned_mem s q
  have hrd := turned_rd s q
  unfold State.fetched
  generalize s.turned q = y at hmem hrd
  exact ⟨hmem.trans ⟨fun _ => rfl, fun _ => rfl⟩, fun k hk => (rd_setReg_other y _ _ _ _ k hk).trans (hrd k)⟩

/-- What an entry of queue `q` is fetched as. -/
def fetchedEntry (q : Nat) (bytes : List Byte) : Entry := { queue := q, bytes := sliceB bytes 0 64 }

theorem exec_queueFetch {s : State} {q : Nat} (h : s.nextQueue = some q) (bytes : List Byte) : exec (.queueFetch bytes) s = .next (
    let e := fetchedEntry q bytes
    let bad := decide (e.op = 0 ∨ e.op > 0x18)
    let z := s.fetched q { e := e, started := bad }
    if bad then z.fail e .opcode else z) := by
  show execQueueFetch bytes s = _
  unfold execQueueFetch
  rw [h]
  rfl

theorem nextQueue_lt {s : State} {q : Nat} (h : s.nextQueue = some q) : q < 4 := by
  have hmem : ∀ p ∈ (List.range 4).filter s.fetchable, p < 4 := fun p hp => List.mem_range.mp (List.mem_filter.mp hp).1
  unfold State.nextQueue at h
  dsimp only at h
  split at h
  · next p hfind => exact hmem q (by cases h; exact List.mem_of_find?_eq_some hfind)
  · exact hmem q (List.mem_of_head? h)

/-! ### The status record (R64) and the counters of an array (R107) -/

/-- The record numbered `n`, with body `b`, goes to STATADDR. -/
def State.recorded (s : State) (n : Nat) (b : List Byte) : State :=
  let z := (s.setReg .hif 0 0x4C n).withHost { s.host with record := b, recordDue := false }
  z.hostWrite (z.reg64 .hif 0 0x40) (leBytes 4 n ++ b ++ leBytes 4 n)

theorem hostWrite_linked {s : State} (h : s.host.linkUp = true) (a : Nat) (bs : List Byte) :
    s.hostWrite a bs = s.withHost { s.host with writes := s.host.writes ++ [(a, bs)], l1 := false } := if_pos (by rw [h]; rfl)

theorem recorded_linked {s : State} (h : s.host.linkUp = true) (n : Nat) (b : List Byte) : s.recorded n b = (s.setReg .hif 0 0x4C n).withHost { s.host with
    record := b
    recordDue := false
    writes := s.host.writes ++ [((s.setReg .hif 0 0x4C n).reg64 .hif 0 0x40, leBytes 4 n ++ b ++ leBytes 4 n)]
    l1 := false } :=
  hostWrite_linked (s := (s.setReg .hif 0 0x4C n).withHost { s.host with record := b, recordDue := false }) h _ _

theorem reg64_setReg_number (s : State) (n : Nat) : (s.setReg .hif 0 0x4C n).reg64 .hif 0 0x40 = s.reg64 .hif 0 0x40 := by
  rw [State.reg64_eq, State.reg64_eq]
  unfold State.rd64
  rw [rd_setReg_other _ _ _ _ _ _ (by decide), rd_setReg_other _ _ _ _ _ _ (by decide)]

theorem exec_statusRecordWrite (s : State) : exec .statusRecordWrite s = .next (
    if !bit (s.reg .hif 0 0x48) 0 || !s.domOn 45 || (!s.host.recordDue && s.host.record == s.statusBody) then s
    else s.recorded ((s.reg .hif 0 0x4C + 1) % 2 ^ 32) s.statusBody) := rfl

theorem plain_hif : plainReg (rOff .hif 0 0x48) = true := by decide

/-- Settles O48: the doorbells are plain stores, a fetch is `State.fetched`, and a record is `State.recorded`. -/
theorem queuesAndRecordsServeTheHost : Obligations.QueuesAndRecordsServeTheHost := by
  unfold Obligations.QueuesAndRecordsServeTheHost
  intro s
  refine ⟨fun q hq value => ?_, fun value hbad hwas hen => ?_, fun q bytes hnext => ?_, fun l hl => ?_, fun hen hdom hlink => ⟨fun hdue => ?_, fun hdue hrec => ?_⟩,
    fun c hc value hbad hgo => ?_⟩
  · obtain ⟨htail, hhead, hctl⟩ := que_plain q hq
    refine ⟨fun hbad hlt => ?_, fun hbad hge => ?_, fun hbad => ?_, fun hbad hstay => ?_, fun hbad hwas hen => ?_⟩
    · refine plain_gives htail value.isLt (congrArg Host.Outcome.next ((if_neg (by omega)).trans (regWrite_ok hbad rfl (firstBad_of_false fun x hx => ?_))))
      rw [List.mem_singleton.mp hx]
      exact decide_eq_false (Nat.not_le.mpr hlt)
    · refine congrArg Host.Outcome.next ((if_neg (by omega)).trans (regWrite_bad ?_))
      rw [hbad, decide_eq_true hge]; rfl
    · exact plain_gives hhead value.isLt (congrArg Host.Outcome.next ((if_neg (by omega)).trans (regWrite_ok hbad rfl rfl)))
    · have hkeep : (bit (s.reg .que q 0x68) 0 || !bit value.toNat 0) = true := by
        rcases hstay with h | h
        · rw [h]; rfl
        · rw [h]; exact Bool.or_true _
      obtain ⟨u, hu, hval, hmem, hregs⟩ := plain_gives hctl value.isLt ((exec_queueEnable hq value hbad).trans (congrArg Host.Outcome.next (if_pos hkeep)))
      have hsame : u = s.regPut (rOff .que q 0x68) value.toNat := by
        rw [(exec_queueEnable hq value hbad).trans (congrArg Host.Outcome.next (if_pos hkeep))] at hu
        exact (Host.Outcome.next.inj hu).symm
      exact ⟨u, hu, hval, by rw [hsame]; exact regPut_queue s _ _ q, hmem, hregs⟩
    · have hstart : (bit (s.reg .que q 0x68) 0 || !bit value.toNat 0) = false := by rw [hwas, hen]; rfl
      have hput := regPut_plain (s := s) (v := value.toNat) hctl
      have hmem := regPut_mem s (rOff .que q 0x68) value.toNat
      have hqueue := regPut_queue s (rOff .que q 0x68) value.toNat q
      have hexec : exec (.queueEnable q value) s = .next ((s.regPut (rOff .que q 0x68) value.toNat).queueStarted q) :=
        (exec_queueEnable hq value hbad).trans (congrArg Host.Outcome.next (if_neg (by rw [hstart]; exact Bool.false_ne_true)))
      generalize s.regPut (rOff .que q 0x68) value.toNat = z at hput hmem hqueue hexec
      obtain ⟨h4C, h50, h54, h64, hrest⟩ := queueStarted_regs z q
      refine gives hexec ⟨?_, h4C, h50, h54, h64, ?_, hmem.trans (queueStarted_mem z q), fun k hk => ?_⟩
      · refine (hrest _ (by unfold rOff; omega) (by unfold rOff; omega) (by unfold rOff; omega) (by unfold rOff; omega)).trans ?_
        exact (hput _).trans ((if_pos rfl).trans (Nat.mod_eq_of_lt value.isLt))
      · rw [queueStarted_queue, hqueue]
      · push Not at hk
        obtain ⟨k68, k4C, k50, k54, k64⟩ := hk
        exact (hrest k k4C k50 k54 k64).trans ((hput k).trans (if_neg k68))
  · have hput := regPut_plain (s := s) (v := value.toNat) plain_hif
    have hmem := regPut_mem s (rOff .hif 0 0x48) value.toNat
    have hhost := regPut_host s (rOff .hif 0 0x48) value.toNat
    have hexec : exec (.statctrlWrite value) s = .next (((s.regPut (rOff .hif 0 0x48) value.toNat).setReg .hif 0 0x4C 0).withHost
        { (s.regPut (rOff .hif 0 0x48) value.toNat).host with record := [], recordDue := true }) := by
      refine congrArg Host.Outcome.next ((regWrite_ok hbad rfl rfl).trans (if_neg ?_))
      show ¬ (bit (s.reg .hif 0 0x48) 0 || !bit value.toNat 0) = true
      rw [hwas, hen]; exact Bool.false_ne_true
    generalize s.regPut (rOff .hif 0 0x48) value.toNat = z at hput hmem hhost hexec
    refine gives hexec ⟨?_, reg_setReg z .hif 0 0x4C 0, ?_, hmem.trans (setReg_frame z .hif 0 0x4C 0).1, fun k hk => ?_⟩
    · exact (rd_setReg_other z .hif 0 0x4C 0 (rOff .hif 0 0x48) (by decide)).trans ((hput _).trans ((if_pos rfl).trans (Nat.mod_eq_of_lt value.isLt)))
    · rw [← hhost]; rfl
    · push Not at hk
      exact (rd_setReg_other z .hif 0 0x4C 0 k hk.2).trans ((hput k).trans (if_neg hk.1))
  · have hq := nextQueue_lt hnext
    refine ⟨fun h1 h2 => ?_, fun hop => ?_⟩
    · have hgood : decide ((fetchedEntry q bytes).op = 0 ∨ (fetchedEntry q bytes).op > 0x18) = false := decide_eq_false (by
        unfold fetchedEntry; omega)
      have hexec := exec_queueFetch hnext bytes
      dsimp only at hexec
      rw [hgood, if_neg Bool.false_ne_true] at hexec
      have hturn := fetched_queue s q q { e := fetchedEntry q bytes, started := false }
      rw [if_pos rfl, turned_queue hq] at hturn
      refine gives hexec ⟨?_, ?_, fun j hj hne => ?_, fetched_head s q _, (fetched_frame s q _).1, (fetched_frame s q _).2⟩
      · rw [hturn]; rfl
      · rw [hturn]; exact if_neg (fun h => h.1 rfl)
      · rw [fetched_queue, if_neg hne, turned_queue hj]
        refine ⟨rfl, ?_⟩
        simp only [hne, ne_eq, not_false_eq_true, true_and]
    · have hbad : decide ((fetchedEntry q bytes).op = 0 ∨ (fetchedEntry q bytes).op > 0x18) = true := decide_eq_true (by
        unfold fetchedEntry; omega)
      have hexec := exec_queueFetch hnext bytes
      dsimp only at hexec
      rw [hbad, if_pos rfl] at hexec
      exact ⟨_, hexec, fetched_head s q _⟩
  · subst hl
    unfold State.nextQueue
    dsimp only [ge_iff_le]
    exact ⟨fun q h => by rw [h], fun h => by rw [h]⟩
  · have hgo : (!bit (s.reg .hif 0 0x48) 0 || !s.domOn 45 || (!s.host.recordDue && s.host.record == s.statusBody)) = false := by
      rw [hen, hdom]
      rcases hdue with h | h
      · rw [h]; rfl
      · rw [beq_false_of_ne h, Bool.and_false]; rfl
    generalize hn : (s.reg .hif 0 0x4C + 1) % 2 ^ 32 = n
    have hexec := exec_statusRecordWrite s
    rw [hgo, if_neg Bool.false_ne_true, hn, recorded_linked hlink, reg64_setReg_number] at hexec
    refine gives hexec ⟨?_, rfl, rfl, rfl, (setReg_frame s .hif 0 0x4C n).1, (setReg_frame s .hif 0 0x4C n).2⟩
    exact (reg_setReg s .hif 0 0x4C n).trans (Nat.mod_eq_of_lt (by rw [← hn]; exact Nat.mod_lt _ (by decide)))
  · have hstay : (!bit (s.reg .hif 0 0x48) 0 || !s.domOn 45 || (!s.host.recordDue && s.host.record == s.statusBody)) = true := by
      rw [hdue, hrec, beq_self_eq_true, Bool.not_false, Bool.and_true, Bool.or_true]
    exact (exec_statusRecordWrite s).trans (congrArg Host.Outcome.next (if_pos hstay))
  · refine gives (congrArg Host.Outcome.next ((if_neg (by omega)).trans ((regWrite_ok hbad rfl rfl).trans (if_pos hgo))))
      ⟨⟨fun _ => rfl, fun _ => rfl⟩, fun _ _ => rfl, ?_, fun k hk => ?_⟩
    · exact (State.arr_setArr _ _ _ _).trans (if_pos rfl)
    · exact (State.arr_setArr _ _ _ _).trans (if_neg hk)

/-! ### Readbacks (R168) -/

/-- The access that a readback of tile `t` makes. -/
def readbackAcc (c t : Nat) : TAcc := ⟨c, t, false, false, false⟩

/-- The operation of a readback of tile `t` of cluster `c`, with number `n` and its accesses as the scoreboard has taken them. -/
def readbackOp (n c t : Nat) (accs : List TAcc) : Op :=
  { id := n, ctx := 255, stream := 0, cmp := 0, word := rbWord, stage := 1, clusters := [c], tiles := [t], acc := accs }

/-- The scoreboard as it is once the readback's access has been taken. -/
def State.readbackBoard (s : State) (c t v : Nat) : State := ((s.setReg .acc c 0x50 (v % 2 ^ 31)).scoreboard [readbackAcc c t]).1

/-- A readback request of entry `en` of tile `t` joins the operations as a reader of its tile. -/
def State.readbackAsked (s : State) (c t en v : Nat) : State :=
  let r := (s.setReg .acc c 0x50 (v % 2 ^ 31)).scoreboard [readbackAcc c t]
  ((r.1.withOps (r.1.ops ++ [readbackOp s.nextOp c t r.2])).withNextOp (r.1.nextOp + 1)).modClu c
    (fun u => { u with rb := { u.rb with pend := some (t, en), op := s.nextOp } })

theorem scoreboard_one_keep {β : Type} (g : State → β) (h : ∀ s o v, g (State.wr s o v) = g s) (s : State) (a : TAcc) : g (s.scoreboard [a]).1 = g s := by
  show g (if s.accWaits s.ops a then s.bump .acc a.cl 0x7C 1 else if s.accOverlaps s.ops a then s.bump .acc a.cl 0x80 1 else s) = _
  split
  · exact bump_keep g h _ _ _ _ _
  · split
    · exact bump_keep g h _ _ _ _ _
    · rfl

theorem readbackBoard_spec (s : State) (c t v : Nat) :
    SameMemory s (s.readbackBoard c t v) ∧ (s.readbackBoard c t v).nextOp = s.nextOp ∧ (s.readbackBoard c t v).clu c = s.clu c ∧
    (s.readbackBoard c t v).reg .acc c 0x50 = v % 2 ^ 31 := by
  refine ⟨⟨?_, ?_⟩, scoreboard_nextOp _ _, ?_, ?_⟩
  · exact fun a => scoreboard_one_keep (fun s => s.memByte a) (fun _ _ _ => rfl) _ _
  · exact fun a => scoreboard_one_keep (fun s => s.lpByte a) (fun _ _ _ => rfl) _ _
  · exact scoreboard_one_keep (fun s => s.clu c) (fun _ _ _ => rfl) _ _
  · obtain ⟨-, -, hrd⟩ := scoreboard_one (s.setReg .acc c 0x50 (v % 2 ^ 31)) (readbackAcc c t)
    have h7C : rOff .acc c 0x50 ≠ rOff .acc c 0x7C := by unfold rOff; omega
    have h80 : rOff .acc c 0x50 ≠ rOff .acc c 0x80 := by unfold rOff; omega
    exact (hrd _ h7C h80).trans ((reg_setReg s .acc c 0x50 _).trans (Nat.mod_eq_of_lt (by omega)))

theorem readbackAsked_spec (s : State) (c t en v : Nat) :
    ((s.readbackAsked c t en v).clu c).rb = { (s.clu c).rb with pend := some (t, en), op := s.nextOp } ∧
    (s.readbackAsked c t en v).nextOp = s.nextOp + 1 ∧ (s.readbackAsked c t en v).reg .acc c 0x50 = v % 2 ^ 31 ∧
    SameMemory s (s.readbackAsked c t en v) := by
  obtain ⟨hmem, hnext, hclu, hreg⟩ := readbackBoard_spec s c t v
  have hboard : s.readbackAsked c t en v = (((s.readbackBoard c t v).withOps ((s.readbackBoard c t v).ops ++ [readbackOp s.nextOp c t
      ((s.setReg .acc c 0x50 (v % 2 ^ 31)).scoreboard [readbackAcc c t]).2])).withNextOp ((s.readbackBoard c t v).nextOp + 1)).modClu c
      (fun u => { u with rb := { u.rb with pend := some (t, en), op := s.nextOp } }) := rfl
  rw [hboard]
  generalize s.readbackBoard c t v = y at hmem hnext hclu hreg
  generalize ((s.setReg .acc c 0x50 (v % 2 ^ 31)).scoreboard [readbackAcc c t]).2 = accs
  refine ⟨?_, congrArg (· + 1) hnext, hreg, hmem.1, hmem.2⟩
  rw [clu_mod, if_pos rfl, ← hclu]
  rfl

theorem exec_rbselGo {s : State} {c : Nat} {value : Word} (hc : c < 64) (hon : s.pageOn .acc c = true) (hrsvd : bits value.toNat 30 17 = 0)
    (hgo : bit value.toNat 31 = true) : exec (.rbselGo c value) s = .next (if (s.clu c).rb.pend.isSome then s.rejectOff (rOff .acc c 0x50) .busy
      else s.readbackAsked c (bits value.toNat 8 0) (bits value.toNat 16 9) value.toNat) :=
  congrArg Host.Outcome.next ((if_neg (by omega)).trans ((if_neg (by rw [hon]; decide)).trans ((if_neg (not_not_intro hrsvd)).trans (if_pos hgo))))

/-- RBDATA once entry `en` of tile `t`, with value `x`, has arrived. -/
def Readback.arrived (rb : Readback) (t en x : Nat) : Readback :=
  { rb with data := x, valid := true, dup := false, ovr := rb.valid, tile := t, entry := en, pend := none }

/-- Entry `en` of tile `t` stands in RBDATA: its operation has left. -/
def State.readbackArrived (s : State) (c t en : Nat) (o : Op) : State :=
  ((s.withOps (removeOp o.id s.ops)).modClu c (fun u => { u with rb := (s.clu c).rb.arrived t en ((s.tile (tkey c t)).e en) })).modPage
    (rOff .acc c 0 / 4096) (fun p => { p with updates := (p.updates + 1) % 65536 })

theorem readbackArrived_rb (s : State) (c t en : Nat) (o : Op) :
    ((s.readbackArrived c t en o).clu c).rb = (s.clu c).rb.arrived t en ((s.tile (tkey c t)).e en) := by
  have hclu := clu_mod (s.withOps (removeOp o.id s.ops)) c c (fun u => { u with rb := (s.clu c).rb.arrived t en ((s.tile (tkey c t)).e en) })
  rw [if_pos rfl] at hclu
  exact congrArg Clu.rb hclu

theorem exec_readbackArrive {s : State} {c t en : Nat} {o : Op} (hp : (s.clu c).rb.pend = some (t, en)) (ho : s.getOp (s.clu c).rb.op = some o)
    (hf : o.free = true) : exec (.readbackArrive c) s = .next (if parWrong ((s.tile (tkey c t)).e en) then (s.readbackArrived c t en o).tileFault 255 0 c t en
      else s.readbackArrived c t en o) := by
  show execReadbackArrive c s = _
  unfold execReadbackArrive
  dsimp only
  rw [hp, ho]
  exact congrArg Host.Outcome.next (if_neg (by rw [hf]; decide))

theorem tileFault_keep {β : Type} (g : State → β) (hw : ∀ s o v, g (State.wr s o v) = g s) (hr : ∀ s x, g (State.withReports s x) = g s)
    (s : State) (ctx invoc c t e : Nat) : g (s.tileFault ctx invoc c t e) = g s :=
  (hr _ _).trans (bump_keep g hw _ _ _ _ _)

theorem readbackArrived_keep {β : Type} (g : State → β) (hw : ∀ s o v, g (State.wr s o v) = g s) (hr : ∀ s x, g (State.withReports s x) = g s)
    (s z : State) (ctx invoc c t e : Nat) (b : Bool) (h : g z = g s) : g (if b then z.tileFault ctx invoc c t e else z) = g s := by
  split
  · exact (tileFault_keep g hw hr z _ _ _ _ _).trans h
  · exact h

/-- RBDATA read at once: the answer, its high half kept for a 4-byte read, and the entry taken. -/
def State.rbdataTaken (s : State) (c size : Nat) : State :=
  let z := s.reply (leBytes size (s.clu c).rb.word)
  let y := if size = 4 then z.modPage (rOff .acc c 0 / 4096) (fun p =>
    { p with snapHi := (s.clu c).rb.word / 2 ^ 32, latches := (p.latches + 1) % 65536 }) else z
  if (s.clu c).rb.valid then y.modClu c (fun u => { u with rb := { (s.clu c).rb with valid := false, dup := true, ovr := false } }) else y

theorem exec_rbdataRead {s : State} {c size : Nat} (hc : c < 64) (hs : size = 4 ∨ size = 8) (hon : s.pageOn .acc c = true) :
    exec (.rbdataRead c size) s = .next (s.rbdataTaken c size) :=
  congrArg Host.Outcome.next ((if_neg (by omega)).trans (if_neg (by rw [hon]; decide)))

theorem rbdataTaken_keep {β : Type} (g : State → β) (hh : ∀ s x, g (State.withHost s x) = g s) (hp : ∀ s p f, g (State.modPage s p f) = g s)
    (hc : ∀ s c f, g (State.modClu s c f) = g s) (s : State) (c size : Nat) : g (s.rbdataTaken c size) = g s := by
  have hlatch : ∀ (b : Prop) [Decidable b] (z : State) (p : Nat) (f : PageHdr → PageHdr), g (if b then z.modPage p f else z) = g z := by
    intro b _ z p f
    split
    · exact hp _ _ _
    · rfl
  unfold State.rbdataTaken
  dsimp only
  split
  · exact (hc _ _ _).trans ((hlatch _ _ _ _).trans (hh _ _))
  · exact (hlatch _ _ _ _).trans (hh _ _)

theorem rbdataTaken_host (s : State) (c size : Nat) : (s.rbdataTaken c size).host.reply = leBytes size (s.clu c).rb.word := by
  unfold State.rbdataTaken
  dsimp only
  split <;> split <;> rfl

theorem rbdataTaken_rb (s : State) (c size : Nat) : ((s.rbdataTaken c size).clu c).rb =
    if (s.clu c).rb.valid then { (s.clu c).rb with valid := false, dup := true, ovr := false } else (s.clu c).rb := by
  have hlatch : ∀ (b : Prop) [Decidable b] (z : State) (p : Nat) (f : PageHdr → PageHdr), (if b then z.modPage p f else z).clu c = z.clu c := by
    intro b _ z p f
    split <;> rfl
  unfold State.rbdataTaken
  dsimp only
  split
  · rw [clu_mod, if_pos rfl]
  · exact congrArg Clu.rb (hlatch _ _ _ _)

theorem rbdataTaken_latch (s : State) (c : Nat) : ((s.rbdataTaken c 4).page (rOff .acc c 0 / 4096)).snapHi = (s.clu c).rb.word / 2 ^ 32 := by
  have hpage := page_mod (s.reply (leBytes 4 (s.clu c).rb.word)) (rOff .acc c 0 / 4096) (rOff .acc c 0 / 4096) (fun p =>
    { p with snapHi := (s.clu c).rb.word / 2 ^ 32, latches := (p.latches + 1) % 65536 })
  rw [if_pos rfl] at hpage
  unfold State.rbdataTaken
  dsimp only
  rw [if_pos (rfl : 4 = 4)]
  split
  · exact congrArg PageHdr.snapHi hpage
  · exact congrArg PageHdr.snapHi hpage

/-! ### The remote window (R376) -/

theorem remote_in {off : Nat} (h1 : 0x800000 ≤ off) (h2 : off < 0x1000000) : inRemote off = true := decide_eq_true ⟨h1, h2⟩

/-- A manager's access that the position in reach gets. -/
def State.remotePassed (s : State) (w : Bool) (off size : Nat) (value : DWord) : State :=
  s.withChain { s.chain with remote := s.chain.remote ++ [(bits (s.reg .dsy 1 0x64) 3 0, b2n w,
    bits (s.reg .dsy 1 0x64) 5 4 * 0x800000 + (off - 0x800000), size, if w then value.toNat else 0)] }

/-- A manager's access that no position gets: counted, and in ERR. -/
def State.remoteMissed (s : State) (off : Nat) : State := (s.bump .dsy 1 0x68 1).reject (rOff .dsy 1 0 / 4096) .link (off % 4096)

theorem exec_remoteWindowAccess {s : State} {off size : Nat} (w : Bool) (value : DWord) (h1 : 0x800000 ≤ off) (h2 : off < 0x1000000) (hs : size ≤ 8)
    (hrole : s.sec.role = 1) : exec (.remoteWindowAccess w off size value) s = .next (
      if bits (s.reg .dsy 1 0x64) 3 0 < s.chain.count ∧ s.dsyUp 1 = true then
        if w then s.remotePassed w off size value else (s.remotePassed w off size value).reply (leBytes size value.toNat)
      else if w then s.remoteMissed off else (s.remoteMissed off).reply (leBytes size 0)) :=
  congrArg Host.Outcome.next ((if_neg (by rw [remote_in h1 h2]; decide)).trans (if_neg (by rw [hrole]; omega)))

theorem remoteMissed_spec (s : State) (off : Nat) : (s.remoteMissed off).reg .dsy 1 0x68 = satNat 32 (s.reg .dsy 1 0x68 + 1) ∧
    ((s.remoteMissed off).page (rOff .dsy 1 0 / 4096)).errCode = Code.link.num ∧ ((s.remoteMissed off).page (rOff .dsy 1 0 / 4096)).errOff = off % 4096 ∧
    (s.remoteMissed off).chain = s.chain ∧ SameMemory s (s.remoteMissed off) ∧ SameRegs s (s.remoteMissed off) (fun k => k = rOff .dsy 1 0x68) := by
  have hreg := reg_bump_same s .dsy 1 0x68 1 (by decide)
  have hmem := bump_mem s .dsy 1 0x68 1
  have hchain := bump_keep (fun s => s.chain) (fun _ _ _ => rfl) s .dsy 1 0x68 1
  have hrd := fun k hk => State.rd_bump_other s .dsy 1 0x68 1 k hk
  unfold State.remoteMissed
  generalize s.bump .dsy 1 0x68 1 = z at hreg hmem hchain hrd
  have hpage := page_reject z (rOff .dsy 1 0 / 4096) (rOff .dsy 1 0 / 4096) .link (off % 4096)
  rw [if_pos rfl] at hpage
  refine ⟨hreg, ?_, ?_, hchain, hmem.trans (modPage_frame _ _ _).1, fun k hk => hrd k hk⟩
  · rw [hpage]
  · rw [hpage]; exact Nat.mod_mod _ _

/-- Settles O49: a readback's request, arrival and read, and the two ends of a remote access, are each one state above. -/
theorem readbacksAndRemoteAccessesReturn : Obligations.ReadbacksAndRemoteAccessesReturn := by
  unfold Obligations.ReadbacksAndRemoteAccessesReturn
  intro s
  refine ⟨fun c hc value hon hrsvd hgo => ⟨fun hbusy => ?_, fun hidle => ?_⟩, fun c t0 en op hp ho hfree => ?_, fun c size hc hs hon => ?_,
    fun w off size value h1 h2 hs hrole => ⟨fun hpos hup => ?_, fun hout => ?_⟩, fun w off size value hrole hup => ?_⟩
  · exact (exec_rbselGo hc hon hrsvd hgo).trans (congrArg Host.Outcome.next (if_pos hbusy))
  · obtain ⟨hrb, hnext, hreg, hmem⟩ := readbackAsked_spec s c (bits value.toNat 8 0) (bits value.toNat 16 9) value.toNat
    refine gives ((exec_rbselGo hc hon hrsvd hgo).trans (congrArg Host.Outcome.next (if_neg (by rw [hidle]; decide)))) ⟨?_, ?_, ?_, hnext, hreg, hmem⟩
    · rw [hrb]
    · rw [hrb]
    · rw [hrb]
  · refine gives (exec_readbackArrive hp ho hfree) ⟨?_, ?_, fun a => ?_, fun a => ?_⟩
    · have hkeep := readbackArrived_keep (fun s => s.clu c) (fun _ _ _ => rfl) (fun _ _ => rfl) (s.readbackArrived c t0 en op) (s.readbackArrived c t0 en op)
        255 0 c t0 en (parWrong ((s.tile (tkey c t0)).e en)) rfl
      exact (congrArg Clu.rb hkeep).trans (readbackArrived_rb s c t0 en op)
    · exact readbackArrived_keep (fun s => s.ops) (fun _ _ _ => rfl) (fun _ _ => rfl) (s.withOps (removeOp op.id s.ops)) _ _ _ _ _ _ _ rfl
    · exact readbackArrived_keep (fun s => s.memByte a) (fun _ _ _ => rfl) (fun _ _ => rfl) s _ _ _ _ _ _ _ rfl
    · exact readbackArrived_keep (fun s => s.lpByte a) (fun _ _ _ => rfl) (fun _ _ => rfl) s _ _ _ _ _ _ _ rfl
  · refine gives (exec_rbdataRead hc hs hon) ⟨rbdataTaken_host s c size, rbdataTaken_rb s c size, fun h4 => ?_, ⟨fun a => ?_, fun a => ?_⟩, fun k _ => ?_⟩
    · subst h4; exact rbdataTaken_latch s c
    · exact rbdataTaken_keep (fun s => s.memByte a) (fun _ _ => rfl) (fun _ _ _ => rfl) (fun _ _ _ => rfl) s c size
    · exact rbdataTaken_keep (fun s => s.lpByte a) (fun _ _ => rfl) (fun _ _ _ => rfl) (fun _ _ _ => rfl) s c size
    · exact rbdataTaken_keep (fun s => s.rd k) (fun _ _ => rfl) (fun _ _ _ => rfl) (fun _ _ _ => rfl) s c size
  · have hexec := (exec_remoteWindowAccess w value h1 h2 hs hrole).trans (congrArg Host.Outcome.next (if_pos ⟨hpos, hup⟩))
    obtain ⟨hmem, hregs⟩ := withChain_frame s (s.remotePassed w off size value).chain
    cases w with
    | true => exact gives hexec ⟨rfl, Bool.noConfusion, hmem, hregs⟩
    | false => exact gives hexec ⟨rfl, fun _ => rfl, hmem, hregs⟩
  · have hmiss : ¬ (bits (s.reg .dsy 1 0x64) 3 0 < s.chain.count ∧ s.dsyUp 1 = true) := by
      rintro ⟨hlt, hup⟩
      rcases hout with h | h
      · exact absurd hlt (Nat.not_lt.mpr h)
      · rw [h] at hup; cases hup
    have hexec := (exec_remoteWindowAccess w value h1 h2 hs hrole).trans (congrArg Host.Outcome.next (if_neg hmiss))
    obtain ⟨hcnt, hcode, hoff, hchain, hmem, hregs⟩ := remoteMissed_spec s off
    generalize s.remoteMissed off = z at hexec hcnt hcode hoff hchain hmem hregs
    cases w with
    | true => exact gives hexec ⟨hcnt, hcode, hoff, hchain, Bool.noConfusion, hmem, hregs⟩
    | false => exact gives hexec ⟨hcnt, hcode, hoff, hchain, fun _ => rfl, hmem, hregs⟩
  · have hexec : exec (.remoteRegAccess w off size value) s = .next (
        ((s.hostAccess w off size value).withHost { (s.hostAccess w off size value).host with
          reply := s.host.reply
          poisoned := s.host.poisoned
          unsup := s.host.unsup }).withChain (if w then (s.hostAccess w off size value).chain
            else { (s.hostAccess w off size value).chain with answer := (s.hostAccess w off size value).host.reply })) :=
      congrArg Host.Outcome.next (if_neg (by rw [hrole, hup]; decide))
    generalize s.hostAccess w off size value = u at hexec
    cases w with
    | true => exact gives hexec ⟨rfl, Bool.noConfusion, fun _ => rfl, ⟨fun _ => rfl, fun _ => rfl⟩, fun _ _ => rfl⟩
    | false => exact gives hexec ⟨rfl, fun _ => rfl, Bool.noConfusion, ⟨fun _ => rfl, fun _ => rfl⟩, fun _ _ => rfl⟩

end Sys2Proof.Machine
end

section
/-!
PROOFS. Completions, the security locks, attestation, and the instructions of the test access port.
-/
open Sys2Proof Sys2Proof.Machine

namespace Sys2Proof.Machine

/-! ### Completions (R56, R58, R63) -/

/-- A completion lands in queue `q`: the entry goes out, CQ_TAIL, the sequence number and the phase move on, and CPLCNT counts one. -/
def State.landed (y : State) (q cseq : Nat) (bs : List Byte) : State :=
  let t := y.reg .que q 0x64
  let n := 2 ^ y.reg .que q 0x60
  (((y.hostWrite (y.reg64 .que q 0x58 + 32 * t) bs).setReg .que q 0x64 ((t + 1) % n)).modQueue q (fun st =>
    { st with cseq := cseq, phase := if (t + 1) % n = 0 then !st.phase else st.phase })).bump64 .que q 0x78 1

/-- The entry leaves its queue's list of those in flight. -/
def State.unflown (s : State) (e : Entry) : State := s.modQueue e.queue (fun y => { y with inflight := dropInFl e y.inflight })

theorem complete_lost {s : State} {e : Entry} {x : InFl} (h : s.inFl e = some x) (hl : x.lost = true) (c : Code) (r0 r1 fl gn : Nat) :
    s.complete e c r0 r1 fl gn = s.unflown e := by
  unfold State.complete
  rw [h]
  exact if_pos hl

theorem complete_landed {s : State} {e : Entry} {x : InFl} (h : s.inFl e = some x) (hl : x.lost = false) (c : Code) (r0 r1 fl gn : Nat) :
    s.complete e c r0 r1 fl gn = (s.unflown e).landed e.queue ((((s.unflown e).queue e.queue).cseq + 1) % 2 ^ 32)
      (cplBytes e c fl gn r0 r1 ((((s.unflown e).queue e.queue).cseq + 1) % 2 ^ 32) ((s.unflown e).queue e.queue).phase) := by
  unfold State.complete
  rw [h]
  exact if_neg (by rw [hl]; exact Bool.false_ne_true)

theorem unflown_queue (s : State) (e : Entry) (k : Nat) : (s.unflown e).queue k =
    if k = e.queue then { s.queue e.queue with inflight := dropInFl e (s.queue e.queue).inflight } else s.queue k :=
  State.queue_modQueue s e.queue k (fun y => { y with inflight := dropInFl e y.inflight })

/-- What goes out and moves before the counter counts. -/
def State.tailMoved (y : State) (q : Nat) (bs : List Byte) : State :=
  (y.hostWrite (y.reg64 .que q 0x58 + 32 * y.reg .que q 0x64) bs).setReg .que q 0x64 ((y.reg .que q 0x64 + 1) % 2 ^ y.reg .que q 0x60)

theorem tailMoved_rd (y : State) (q : Nat) (bs : List Byte) (k : Nat) : (y.tailMoved q bs).rd k =
    if k = rOff .que q 0x64 then (y.reg .que q 0x64 + 1) % 2 ^ y.reg .que q 0x60 % 2 ^ 32 else y.rd k := by
  have hwrite := hostWrite_keep (fun s => s.rd k) (fun _ _ => rfl) y (y.reg64 .que q 0x58 + 32 * y.reg .que q 0x64) bs
  rw [← hwrite]
  exact State.rd_wr _ _ _ _

theorem tailMoved_keep {β : Type} (g : State → β) (hh : ∀ s x, g (State.withHost s x) = g s) (hw : ∀ s o v, g (State.wr s o v) = g s)
    (y : State) (q : Nat) (bs : List Byte) : g (y.tailMoved q bs) = g y := (hw _ _ _).trans (hostWrite_keep g hh _ _ _)

theorem landed_eq (y : State) (q cseq : Nat) (bs : List Byte) : y.landed q cseq bs = ((y.tailMoved q bs).modQueue q (fun st =>
    { st with cseq := cseq, phase := if (y.reg .que q 0x64 + 1) % 2 ^ y.reg .que q 0x60 = 0 then !st.phase else st.phase })).bump64 .que q 0x78 1 := rfl

theorem landed_writes {y : State} (h : y.host.linkUp = true) (q cseq : Nat) (bs : List Byte) :
    (y.landed q cseq bs).host.writes = y.host.writes ++ [(y.reg64 .que q 0x58 + 32 * y.reg .que q 0x64, bs)] := by
  rw [landed_eq, bump64_keep (fun s => s.host.writes) (fun _ _ _ => rfl) (fun _ _ _ => rfl)]
  show (y.hostWrite _ bs).host.writes = _
  rw [hostWrite_linked h]
  rfl

theorem landed_queue (y : State) (q cseq : Nat) (bs : List Byte) (k : Nat) : (y.landed q cseq bs).queue k = if k = q then
    { y.queue q with
      cseq := cseq
      phase := if (y.reg .que q 0x64 + 1) % 2 ^ y.reg .que q 0x60 = 0 then !(y.queue q).phase else (y.queue q).phase } else y.queue k := by
  have hkeep : ∀ j, (y.tailMoved q bs).queue j = y.queue j := fun j => tailMoved_keep (fun s => s.queue j) (fun _ _ => rfl) (fun _ _ _ => rfl) y q bs
  rw [landed_eq, bump64_keep (fun s => s.queue k) (fun _ _ _ => rfl) (fun _ _ _ => rfl)]
  generalize y.tailMoved q bs = z at hkeep
  rw [State.queue_modQueue, hkeep, hkeep]

theorem landed_regs (y : State) (q cseq : Nat) (bs : List Byte) :
    (y.landed q cseq bs).reg .que q 0x64 = (y.reg .que q 0x64 + 1) % 2 ^ y.reg .que q 0x60 % 2 ^ 32 ∧
    (y.landed q cseq bs).reg64 .que q 0x78 = satNat 64 (y.reg64 .que q 0x78 + 1) ∧
    SameRegs y (y.landed q cseq bs) (fun k => k = rOff .que q 0x64 ∨ k = rOff .que q 0x78 ∨ k = rOff .que q 0x7C) := by
  have hrd := tailMoved_rd y q bs
  obtain ⟨f, hf⟩ : ∃ f, y.landed q cseq bs = ((y.tailMoved q bs).modQueue q f).bump64 .que q 0x78 1 := ⟨_, rfl⟩
  have hmod : ∀ k, ((y.tailMoved q bs).modQueue q f).rd k = (y.tailMoved q bs).rd k := fun _ => rfl
  rw [hf]
  generalize (y.tailMoved q bs).modQueue q f = w at hmod
  generalize y.tailMoved q bs = z at hrd hmod
  refine ⟨?_, ?_, fun k hk => ?_⟩
  · refine (reg_bump64_other _ .que q 0x78 1 0x64 (by decide) (by decide)).trans ((hmod _).trans ((hrd _).trans (if_pos rfl)))
  · refine (reg64_bump64_same _ .que q 0x78 1 (by decide)).trans ?_
    rw [State.reg64_eq, State.reg64_eq]
    unfold State.rd64
    rw [hmod, hmod, hrd, hrd, if_neg (by unfold rOff; omega), if_neg (by unfold rOff; omega)]
  · push Not at hk
    obtain ⟨h64, h78, h7C⟩ := hk
    exact (State.rd_bump64_other _ _ _ _ _ _ h78 (by unfold rOff at h7C ⊢; omega)).trans ((hmod _).trans ((hrd k).trans (if_neg h64)))

theorem cplBytes_length (e : Entry) (c : Code) (fl gn r0 r1 cseq : Nat) (phase : Bool) : (cplBytes e c fl gn r0 r1 cseq phase).length = 32 := by
  unfold cplBytes
  simp only [List.length_append, length_leBytes]

/-! ### Attestation (R528, R529) -/

theorem exec_attest {z : State} {e : Entry} (hb : Begins z e 0x18) (hbad : entryBad e [2, 3] false [(8, 44)] false = none) {o : Option Code}
    (hcheck : firstBad [(decide (e.p 48 4 < 17296), .range), (decide (e.p 40 8 % 64 ≠ 0), .align)] = o) :
    exec (.attest e) z = .next (o.elim ((z.marked e).withJobs (z.jobs ++ [{ e := e, kind := 21 }])) (fun c => (z.marked e).complete e c 0 0)) := by
  refine congrArg Host.Outcome.next ((begin_act hb _).trans ?_)
  rw [hbad, Option.none_or, hcheck]
  cases o <;> rfl

theorem exec_attest_short {z : State} {e : Entry} (hb : Begins z e 0x18) (hbad : entryBad e [2, 3] false [(8, 44)] false = none)
    (hlen : e.p 48 4 < 17296) : exec (.attest e) z = .next ((z.marked e).complete e .range 0 0) :=
  exec_attest hb hbad (o := some .range) (if_pos (decide_eq_true hlen))

/-- Settles O59: a completion of a command that is not lost is `State.landed`, whose parts are the lemmas above. -/
theorem completionsAreWritten : Obligations.CompletionsAreWritten := by
  unfold Obligations.CompletionsAreWritten
  intro s e c r0 r1 fl gn x hx
  refine ⟨fun hl => complete_lost hx hl c r0 r1 fl gn, fun hl => ?_, fun b d0 d1 f g => cplBytes_length e c b d0 d1 f g true,
    fun z hb hbad hlen => exec_attest_short hb hbad hlen⟩
  have hqueue := unflown_queue s e
  have hmem : SameMemory s (s.complete e c r0 r1 fl gn) := complete_mem s e c r0 r1 fl gn
  have hrd : ∀ k, (s.unflown e).rd k = s.rd k := fun _ => rfl
  have hreg : ∀ o, (s.unflown e).reg .que e.queue o = s.reg .que e.queue o := fun _ => rfl
  have hreg64 : ∀ o, (s.unflown e).reg64 .que e.queue o = s.reg64 .que e.queue o := fun _ => rfl
  have hhost : (s.unflown e).host = s.host := rfl
  have hown := hqueue e.queue
  rw [if_pos rfl] at hown
  rw [complete_landed hx hl] at hmem ⊢
  generalize s.unflown e = y at hqueue hown hmem hrd hreg hreg64 hhost
  obtain ⟨htail, hcount, hregs⟩ := landed_regs y e.queue (((y.queue e.queue).cseq + 1) % 2 ^ 32)
    (cplBytes e c fl gn r0 r1 (((y.queue e.queue).cseq + 1) % 2 ^ 32) (y.queue e.queue).phase)
  have hafter := landed_queue y e.queue (((y.queue e.queue).cseq + 1) % 2 ^ 32)
    (cplBytes e c fl gn r0 r1 (((y.queue e.queue).cseq + 1) % 2 ^ 32) (y.queue e.queue).phase)
  refine ⟨fun hup => ?_, ?_, ?_, ?_, fun k hk => ?_, hmem, fun k hk => (hregs k hk).trans (hrd k)⟩
  · rw [landed_writes (by rw [hhost]; exact hup), hhost, hreg, hreg64, hown]
  · rw [htail, hreg, hreg]
  · rw [hcount, hreg64]
  · rw [hafter, if_pos rfl, hown, hreg, hreg]
  · rw [hafter, if_neg hk, hqueue, if_neg hk]

/-! ### Locks (R527) -/

section
variable {s : State}

/-- A LOCK write that clears no lock: with TAPVEND set it also empties the taps' selections. -/
theorem exec_lockWrite {value : Word} (hok : s.regBad (rOff .sec 0 0x40) value.toNat = none)
    (hkeep : s.reg .sec 0 0x40 &&& value.toNat = s.reg .sec 0 0x40) : exec (.lockWrite value) s = .next (
      if bit value.toNat 4 then (s.setReg .sec 0 0x40 value.toNat).withTap { s.tap with probe := [] } else s.setReg .sec 0 0x40 value.toNat) :=
  congrArg Host.Outcome.next (regWrite_ok hok (decide_eq_false (not_not_intro hkeep)) rfl)

theorem bit_of_and_eq {a b k : Nat} (h : a &&& b = a) (ha : bit a k = true) : bit b k = true := by
  rw [← h, bit_and, Bool.and_eq_true] at ha
  exact ha.2

theorem plain_lockboot : plainReg (rOff .sec 0 0x44) = true := by decide

/-! ### The report (R529) -/

theorem reportBody_withFree (s : State) (n : Nat) (nonce : List Byte) : (s.withFree n).reportBody nonce = s.reportBody nonce := rfl

/-- The first waiting report leaves the list, and SEC.ATTESTCNT counts it. -/
def State.attested (s : State) (j : Job) : State := (s.withJobs (s.jobs.filter (fun y => y != j))).bump .sec 0 0xA4 1

theorem attested_keep {β : Type} (g : State → β) (hj : ∀ s x, g (State.withJobs s x) = g s) (hw : ∀ s o v, g (State.wr s o v) = g s) (s : State) (j : Job) :
    g (s.attested j) = g s := (bump_keep g hw _ _ _ _ _).trans (hj _ _)

theorem exec_attestReportDone {j : Job} (hj : s.jobs.find? (fun j => j.kind == 21) = some j) (hp : s.cfgPending = false) :
    exec .attestReportDone s = .next (
      let z := (s.attested j).withFree ((s.attested j).free + 1)
      let body := (s.attested j).reportBody (sliceB j.e.bytes 8 32)
      (z.cmdWrite j.e (j.e.p 40 8) (body ++ sliceB (Config.rsaSign (s.attested j).free body) 0 384 ++
        sliceB (Config.slhSign (s.attested j).free body) 0 16224)).complete j.e .ok 17296 0) := by
  show execAttestReportDone s = _
  unfold execAttestReportDone
  rw [hj]
  exact congrArg Host.Outcome.next (if_neg (by rw [hp]; exact Bool.false_ne_true))

/-! ### The test access port (R557 to R561) -/

theorem tapInstruction_selects (code : Nat) (p : Bool) : ([0x01, 0x02, 0x20, 0x21, 0x22].contains code || (p && [0x00, 0x03, 0x04].contains code)) = true ↔
    (code ∈ [0x01, 0x02, 0x20, 0x21, 0x22] ∨ p = true ∧ code ∈ [0x00, 0x03, 0x04]) := by
  rw [Bool.or_eq_true, Bool.and_eq_true, List.contains_iff_mem, List.contains_iff_mem]

/-- The tap that an ARRAY_PROBE value names. -/
def probeTap (v : Nat) : Nat := 4 * bits v 1 0 + bits v 3 2

/-- What the probe's tap takes: SRC 0 where the array is in use or the value is reserved. -/
def State.probeSel (s : State) (v : Nat) : Nat := if s.probeOff v then v - (bits v 26 24 <<< 24) else v

theorem exec_arrayProbe (hir : s.tap.ir = 0x21) (hl : s.locked 4 = false) (value : Word) : exec (.arrayProbe value) s = .next (
    s.withTap { s.tap with probe := FMap.put 0 s.tap.probe (probeTap value.toNat) (s.probeSel value.toNat) }) :=
  congrArg Host.Outcome.next (if_neg (by rw [hir, hl]; decide))

theorem gives_probe {value : Word} {sel : Nat} (h : exec (.arrayProbe value) s = .next (s.withTap { s.tap with
      probe := FMap.put 0 s.tap.probe (probeTap value.toNat) sel })) :
    Gives (.arrayProbe value) s (fun t => FMap.get 0 t.tap.probe (probeTap value.toNat) = sel ∧
      (∀ k, k ≠ probeTap value.toNat → FMap.get 0 t.tap.probe k = FMap.get 0 s.tap.probe k) ∧ SameMemory s t ∧ SameRegs s t (fun _ => False)) :=
  ⟨_, h, FMap.get_put_same _ _ _ _, fun _ hk => FMap.get_put_other _ _ _ _ _ hk, withTap_frame s _⟩

theorem bits_of_bit {v k : Nat} (h : bit v k = true) : bits v k k = 1 := by
  have htest : v / 2 ^ k % 2 = 1 := by
    unfold bit at h
    rwa [Nat.testBit_eq_decide_div_mod_eq, decide_eq_true_eq] at h
  unfold bits
  rw [Nat.sub_self, Nat.shiftRight_eq_div_pow]
  exact htest

/-- The march of MBIST_ACCESS with algorithm 1 on memory `m` of unit `u` begins. -/
def State.marchAsked (s : State) (m u : Nat) : State :=
  let z := s.setMarch m u 1 1 0 0
  (z.withJobs (z.jobs ++ [{ e := { queue := 0, bytes := [] }, kind := 20, n := [256 * 1 + 64 * m + u] }])).withTap
    { z.tap with result := if m = 1 then z.reg .gal 0 0x84 else z.reg .spd u 0x68 }

theorem setMarch_keep {β : Type} (g : State → β) (hw : ∀ s o v, g (State.wr s o v) = g s) (s : State) (m u st alg rep un : Nat) :
    g (s.setMarch m u st alg rep un) = g s := by
  unfold State.setMarch
  dsimp only
  split
  · exact hw _ _ _
  · exact hw _ _ _

theorem marchAsked_spec (s : State) (m u : Nat) : (s.marchAsked m u).tap.mbist = s.tap.mbist ∧
    (s.marchAsked m u).jobs = s.jobs ++ [{ e := { queue := 0, bytes := [] }, kind := 20, n := [256 + 64 * m + u] }] ∧ SameMemory s (s.marchAsked m u) := by
  have htap := setMarch_keep (fun s => s.tap) (fun _ _ _ => rfl) s m u 1 1 0 0
  have hjobs := setMarch_keep (fun s => s.jobs) (fun _ _ _ => rfl) s m u 1 1 0 0
  have hmem := setMarch_frame s m u 1 1 0 0
  unfold State.marchAsked
  generalize s.setMarch m u 1 1 0 0 = z at htap hjobs hmem
  refine ⟨?_, ?_, hmem.1, hmem.2⟩
  · show z.tap.mbist = _
    rw [htap]
  · show z.jobs ++ _ = _
    rw [hjobs]

/-- Why MBIST_ACCESS does not begin the march that a value asks for. -/
def State.mbistBad (s : State) (v : Nat) : Bool :=
  decide (bits v 1 0 = 1 ∧ bits v 8 3 > 3) || (if bits v 1 0 = 1 then !s.domOn (36 + bits v 8 3) else !s.cluOn (bits v 8 3)) ||
    (bits v 2 2 == 0 && (if bits v 1 0 = 1 then (s.otherAreas 8).any (fun a => decide (a.1 < 24 * (bits v 8 3 + 1) ∧ 24 * bits v 8 3 < a.1 + a.2))
      else s.reg .spd (bits v 8 3) 0x40 % 2 == 0)) || s.marchBusy (bits v 1 0) (bits v 8 3)

theorem exec_mbistAccess_idle (hir : s.tap.ir = 0x20) (hl : s.locked 4 = false) {value : DWord} (hz : bits value.toNat 63 10 = 0)
    (hgo : bit value.toNat 9 = false) : exec (.mbistAccess value) s = .next (s.withTap { s.tap with mbist := value.toNat }) :=
  congrArg Host.Outcome.next ((if_neg (by rw [hir, hl, hz]; decide)).trans (if_pos (.inl (by rw [hgo]; rfl))))

theorem mbistBad_march {v : Nat} (hm : bits v 1 0 ≠ 1) (ha : bits v 2 2 = 1) (hon : s.cluOn (bits v 8 3) = true)
    (hbusy : s.marchBusy (bits v 1 0) (bits v 8 3) = false) : s.mbistBad v = false := by
  unfold State.mbistBad
  rw [decide_eq_false (fun h => hm h.1), if_neg hm, hon, ha, hbusy]
  rfl

theorem exec_mbistAccess_march (hir : s.tap.ir = 0x20) (hl : s.locked 4 = false) {value : DWord} (hz : bits value.toNat 63 10 = 0)
    (hgo : bit value.toNat 9 = true) (ha : bits value.toNat 2 2 = 1) (hok : s.mbistBad value.toNat = false) :
    exec (.mbistAccess value) s = .next ((s.withTap { s.tap with mbist := value.toNat }).marchAsked (bits value.toNat 1 0) (bits value.toNat 8 3)) := by
  have hgo' : ¬ ((!bit value.toNat 9) = true ∨ s.mbistBad value.toNat = true) := by
    rw [hgo, hok]; decide
  refine congrArg Host.Outcome.next ((if_neg (by rw [hir, hl, hz]; decide)).trans ((if_neg hgo').trans ?_))
  dsimp only
  rw [ha, if_neg (by decide)]
  rfl

end

/-- Settles O51: the locks by `exec_lockWrite`, the reports by `exec_attest` and `exec_attestReportDone`, and each instruction of the
test port by its own equation. -/
theorem locksAttestationAndTestPort : Obligations.LocksAttestationAndTestPort := by
  unfold Obligations.LocksAttestationAndTestPort
  intro s
  refine ⟨fun value hok => ⟨fun hclear => ?_, fun hkeep => ?_⟩, fun value hok => ⟨fun hclear => ?_, fun hkeep => ?_⟩,
    fun e hb hbad => ⟨exec_attest_short hb hbad, fun hlen hal => ?_, fun hlen hal => ?_⟩, fun j hj => ⟨fun hp => ?_, fun hp => ?_⟩,
    fun code => ?_, fun hir value => ⟨fun hl => ?_, fun hl hoff => ?_, fun hl hoff => ?_⟩,
    fun hir value => ⟨fun hno => ?_, fun hl hz hgo => ?_, fun hl hz hgo halg hm hon hbusy => ?_⟩, fun hir => ?_⟩
  · have hclear' : s.rd (rOff .sec 0 0x40) &&& value.toNat ≠ s.rd (rOff .sec 0 0x40) := hclear
    refine congrArg Host.Outcome.next (regWrite_bad ?_)
    rw [hok, decide_eq_true hclear']; rfl
  · have hval : (s.setReg .sec 0 0x40 value.toNat).reg .sec 0 0x40 = value.toNat := (reg_setReg s .sec 0 0x40 _).trans (Nat.mod_eq_of_lt value.isLt)
    obtain ⟨hmem, hregs⟩ := setReg_frame s .sec 0 0x40 value.toNat
    have hexec := exec_lockWrite hok hkeep
    cases hvend : bit value.toNat 4 with
    | true =>
      rw [hvend, if_pos rfl] at hexec
      exact gives hexec ⟨hval, fun b hb => (congrArg (bit · b) hval).trans (bit_of_and_eq hkeep hb), rfl, hmem, hregs⟩
    | false =>
      rw [hvend, if_neg Bool.false_ne_true] at hexec
      exact gives hexec ⟨hval, fun b hb => (congrArg (bit · b) hval).trans (bit_of_and_eq hkeep hb), rfl, hmem, hregs⟩
  · have hclear' : s.rd (rOff .sec 0 0x44) &&& s.reg .sec 0 0x40 &&& value.toNat ≠ s.rd (rOff .sec 0 0x44) &&& s.reg .sec 0 0x40 := hclear
    refine congrArg Host.Outcome.next (regWrite_bad ?_)
    rw [hok, decide_eq_true hclear']; rfl
  · exact plain_gives plain_lockboot value.isLt (congrArg Host.Outcome.next (regWrite_ok hok (decide_eq_false (not_not_intro hkeep)) rfl))
  · refine exec_attest hb hbad (o := some .align) ?_
    rw [decide_eq_false (Nat.not_lt.mpr hlen), decide_eq_true hal]; rfl
  · refine exec_attest hb hbad (o := none) ?_
    rw [decide_eq_false (Nat.not_lt.mpr hlen), decide_eq_false (not_not_intro hal)]; rfl
  · show execAttestReportDone s = _
    unfold execAttestReportDone
    rw [hj]
    exact congrArg Host.Outcome.next (if_pos hp)
  · have hcount : (s.attested j).reg .sec 0 0xA4 = satNat 32 (s.reg .sec 0 0xA4 + 1) := reg_bump_same _ .sec 0 0xA4 1 (by decide)
    have hsec := attested_keep (fun s => s.sec) (fun _ _ => rfl) (fun _ _ _ => rfl) s j
    have hcfg := attested_keep (fun s => s.cfg) (fun _ _ => rfl) (fun _ _ _ => rfl) s j
    have hchain := attested_keep (fun s => s.chain) (fun _ _ => rfl) (fun _ _ _ => rfl) s j
    have hhost := attested_keep (fun s => s.host) (fun _ _ => rfl) (fun _ _ _ => rfl) s j
    have hqueues := attested_keep (fun s => s.queues) (fun _ _ => rfl) (fun _ _ _ => rfl) s j
    have hexec := exec_attestReportDone hj hp
    dsimp only at hexec
    rw [← reportBody_withFree (s.attested j) ((s.attested j).free + 1)] at hexec
    exact ⟨(s.attested j).withFree ((s.attested j).free + 1), (s.attested j).free, hcount, hsec, hcfg, hchain, hhost, hqueues, hexec⟩
  · have hsel := tapInstruction_selects code.toNat s.perst
    refine gives (t := s.withTap { s.tap with ir := if [0x01, 0x02, 0x20, 0x21, 0x22].contains code.toNat || (s.perst && [0x00, 0x03, 0x04].contains code.toNat) then code.toNat else 0xFF })
      rfl ⟨(withTap_frame s _).1, (withTap_frame s _).2, fun h => ?_, fun h => ?_⟩
    · rw [if_pos (hsel.mpr h)]; rfl
    · rw [if_neg (fun hc => h (hsel.mp hc))]; rfl
  · exact exec_arrayProbe_locked hl value
  · have hexec := exec_arrayProbe hir hl value
    rw [State.probeSel, hoff, if_neg Bool.false_ne_true] at hexec
    exact gives_probe hexec
  · have hexec := exec_arrayProbe hir hl value
    rw [State.probeSel, hoff, if_pos rfl] at hexec
    exact gives_probe hexec
  · rcases hno with hl | hz
    · exact exec_mbistAccess_locked hl value
    · exact congrArg Host.Outcome.next (if_pos (.inr (.inr hz)))
  · exact gives (exec_mbistAccess_idle hir hl hz hgo) ⟨rfl, rfl, withTap_frame s _⟩
  · have halg' := bits_of_bit halg
    have hexec := exec_mbistAccess_march hir hl hz hgo halg' (mbistBad_march hm halg' hon hbusy)
    obtain ⟨hmb, hjobs, hmem⟩ := marchAsked_spec (s.withTap { s.tap with mbist := value.toNat }) (bits value.toNat 1 0) (bits value.toNat 8 3)
    exact gives hexec ⟨hmb, hjobs, hmem⟩
  · exact gives (congrArg Host.Outcome.next (if_neg (not_not_intro hir))) ⟨rfl, withTap_frame s _⟩

end Sys2Proof.Machine
end

section
/-!
PROOFS. Firmware: FW_STAGE and its read-back, FW_ACTIVATE, and RBCOMMIT.
-/
open Sys2Proof Sys2Proof.Machine

namespace Sys2Proof.Machine

/-! ### The checks of FW_STAGE (R523) -/

/-- The common part of an FW_STAGE's checks: the entry is well formed and its length is in range. -/
def stageEntryOk (e : Entry) : Prop := entryBad e [2] false [(8, 12)] false = none ∧ 17472 ≤ e.p 16 4 ∧ e.p 16 4 ≤ 8388608 ∧ e.p 16 4 % 64 = 0

section
variable {s : State} {e : Entry} {img : List Byte}

theorem stageCheck_length (h : entryBad e [2] false [(8, 12)] false = none) (hn : e.p 16 4 < 17472 ∨ 8388608 < e.p 16 4 ∨ e.p 16 4 % 64 ≠ 0) :
    s.stageCheck e img = some .value := by
  unfold State.stageCheck
  dsimp only
  rw [h]
  dsimp only
  rw [if_pos hn]
  rfl

theorem stageCheck_ordered (h : stageEntryOk e) : s.stageCheck e img = firstBad
    [(decide (e.p 8 8 % 64 ≠ 0), .align), (s.locked 5, .lock), (s.sec.op != 0, .busy), (!fwHeader img || fwLen img != e.p 16 4, .value),
     (fwSigFails img != 0, .sig), (decide (fwSvn img < s.sec.svnMin), .lock)] := by
  obtain ⟨hentry, hlo, hhi, hal⟩ := h
  refine stage_order s e img hentry ?_
  rintro (h | h | h)
  · exact absurd h (Nat.not_lt.mpr hlo)
  · exact absurd h (Nat.not_lt.mpr hhi)
  · exact h hal

theorem firstBad_skip {b : Bool} {c : Code} (h : b = false) (l : List (Bool × Code)) : firstBad ((b, c) :: l) = firstBad l := by rw [h]; rfl

theorem firstBad_hit {b : Bool} (h : b = true) (c : Code) (l : List (Bool × Code)) : firstBad ((b, c) :: l) = some c := by rw [h]; rfl

theorem bne_idle {n : Nat} (h : n = 0) : (n != 0) = false := by rw [h]; rfl

theorem headBad_iff {n : Nat} : (!fwHeader img || fwLen img != n) = true ↔ (fwHeader img = false ∨ fwLen img ≠ n) := by
  rw [Bool.or_eq_true, Bool.not_eq_true', bne_iff_ne]

theorem headBad_false {n : Nat} (h : fwHeader img = true ∧ fwLen img = n) : (!fwHeader img || fwLen img != n) = false := by
  rw [h.1, h.2, bne_self_eq_false]; rfl

end

/-! ### The flash (R515, R516) -/

theorem fwDir_of_flash {s z : State} (h : z.sec.flash = s.sec.flash) : z.fwDir = s.fwDir := by
  have hread : ∀ a n, z.flashRead a n = s.flashRead a n := fun a n => congrArg (readBytes 0xFF#8 · a n) h
  have hcopy : ∀ n, z.dirCopyAt n = s.dirCopyAt n := fun n => by
    unfold State.dirCopyAt
    rw [hread]
  unfold State.fwDir
  rw [hcopy, hcopy]

theorem programRegion_flash {s z : State} (h : z.sec = s.sec) (img : List Byte) : (z.programRegion img).sec = (s.programRegion img).sec := by
  simp only [State.programRegion, State.flashWrite, fwDir_of_flash (congrArg SecSt.flash h), h]

theorem programRegion_frame (s : State) (img : List Byte) : (s.programRegion img).sec.op = s.sec.op ∧ (s.programRegion img).sec.fwJob = s.sec.fwJob ∧
    (s.programRegion img).sec.active = s.sec.active ∧ SameMemory s (s.programRegion img) := ⟨rfl, rfl, rfl, fun _ => rfl, fun _ => rfl⟩

theorem dirWrite_sec {s z : State} (h : z.sec = s.sec) (d : FwDir) (ok : Bool) : (z.dirWrite d ok).sec = (s.dirWrite d ok).sec := by
  simp only [State.dirWrite, State.flashWrite, fwDir_of_flash (congrArg SecSt.flash h), h]
  cases ok <;> rfl

/-- A directory write changes the flash alone. -/
theorem dirWrite_keep {β : Type} (g : State → β) (hf : ∀ s f, g { s with sec := { s.sec with flash := f } } = g s) (s : State) (d : FwDir) (ok : Bool) :
    g (s.dirWrite d ok) = g s := by
  unfold State.dirWrite State.flashWrite
  dsimp only
  split
  · exact (hf _ _).trans (hf s _)
  · exact hf s _

/-! ### FW_STAGE -/

section
variable {s : State} {e : Entry}

/-- The state in which an FW_STAGE that has begun answers its checks. -/
def State.stageJudged (s : State) (e : Entry) (img : List Byte) : State := (s.marked e).stageSigs e img

theorem stageJudged_keep {β : Type} (g : State → β) (hq : ∀ s q f, g (State.modQueue s q f) = g s) (hw : ∀ s o v, g (State.wr s o v) = g s)
    (s : State) (e : Entry) (img : List Byte) : g (s.stageJudged e img) = g s := (stageSigs_keep g hw _ _ _).trans (hq _ _ _)

theorem exec_fwStage (hb : Begins s e 0x14) (image : List Byte) : exec (.fwStage e image) s = .next (
    let img := sliceB image 0 (min (e.p 16 4) 8388608)
    (s.stageCheck e img).elim
      (if !fwPayload img then ((s.stageJudged e img).programRegion img).complete e .digest 0 0
        else ((s.stageJudged e img).programRegion img).modSec (fun x => { x with op := 1, fwJob := some (e, img) }))
      (fun c => (s.stageJudged e img).complete e c 0 0)) := by
  refine congrArg Host.Outcome.next ((begin_act hb _).trans ?_)
  dsimp only
  generalize sliceB image 0 (min (e.p 16 4) 8388608) = img
  have hcheck : (s.marked e).stageCheck e img = s.stageCheck e img := rfl
  rw [hcheck]
  cases s.stageCheck e img <;> rfl

theorem stageDone_job {img : List Byte} (h : s.sec.fwJob = some (e, img)) (readBackOk dirOk : Bool) : exec (.fwStageDone readBackOk dirOk) s = .next (
    let z := s.modSec (fun x => { x with op := 0, fwJob := none })
    let d := s.fwDir.1
    let d' : FwDir := if 1 - d.active = 0 then { d with rega := d.free, staged := d.staged ||| 1, svna := fwSvn img }
      else { d with regb := d.free, staged := d.staged ||| 2, svnb := fwSvn img }
    if !readBackOk then z.complete e .digest 0 0
    else if dirOk then (z.dirWrite d' dirOk).complete e .ok (1 - d.active) (fwSvn img) else (z.dirWrite d' dirOk).complete e .digest 0 0) := by
  have hdir : (s.modSec (fun x => { x with op := 0, fwJob := none })).fwDir = s.fwDir := fwDir_of_flash rfl
  show execFwStageDone readBackOk dirOk s = _
  unfold execFwStageDone
  rw [h]
  dsimp only
  rw [hdir]
  rfl

/-! ### FW_ACTIVATE (R524 to R526) -/

/-- The signature failures of an image that was looked at count; `c` is what the checks found. -/
def State.sigJudged (s : State) (c : Option Code) (img : List Byte) : State :=
  match c with
  | none => s.sigCount img
  | some .sig => s.sigCount img
  | some .digest => s.sigCount img
  | _ => s

theorem sigJudged_keep {β : Type} (g : State → β) (hw : ∀ s o v, g (State.wr s o v) = g s) (s : State) (c : Option Code) (img : List Byte) :
    g (s.sigJudged c img) = g s := by
  unfold State.sigJudged
  split
  · exact sigCount_keep g hw _ _
  · exact sigCount_keep g hw _ _
  · exact sigCount_keep g hw _ _
  · rfl

/-- The state in which an FW_ACTIVATE that has begun answers its checks. -/
def State.activateJudged (s : State) (e : Entry) : State := (s.marked e).sigJudged (s.activateCheck e) (s.fwImage (s.fwDir.1.region (e.p 8 1)))

theorem activateJudged_keep {β : Type} (g : State → β) (hq : ∀ s q f, g (State.modQueue s q f) = g s) (hw : ∀ s o v, g (State.wr s o v) = g s)
    (s : State) (e : Entry) : g (s.activateJudged e) = g s := (sigJudged_keep g hw _ _ _).trans (hq _ _ _)

/-- Whether the directory write of FW_ACTIVATE reads back. -/
def State.activateReads (s : State) (e : Entry) : Bool := bit (Config.freeValue (s.activateJudged e).free).toNat 0

/-- FW_ACTIVATE's directory write. -/
def State.activateWritten (s : State) (e : Entry) : State :=
  ((s.activateJudged e).withFree ((s.activateJudged e).free + 1)).dirWrite { (s.activateJudged e).fwDir.1 with active := e.p 8 1 } (s.activateReads e)

/-- The slot that boots from now on. -/
def State.slotTaken (y : State) (slot : Nat) (img : List Byte) : State :=
  y.modSec (fun x => { x with active := slot, dirCopy := y.fwDir.2, svn := fwSvn img, meas := fwMeas img })

/-- RECOVERY ends: the boot goes on at stage 5. -/
def State.recoveryLeft (y : State) : State := (y.modSec (fun x => { x with recovery := false, fail := false, bcode := 0, stage := 5 })).cfgAdvance

/-- Every unfenced compositor is to reload. -/
def State.reloadsDue (y : State) : State :=
  (List.range 17).foldl (fun s k => s.modCmp k (fun x => { x with fw := false, fwDue := !s.fenced (uCmp k) })) y

/-- The command waits for the reload of the compositors. -/
def State.reloadQueued (z : State) (e : Entry) : State := (z.modSec (fun x => { x with op := 2 })).withJobs (z.jobs ++ [{ e := e, kind := 17 }])

theorem exec_fwActivate (hb : Begins s e 0x15) : exec (.fwActivate e) s = .next ((s.activateCheck e).elim
    (if !s.activateReads e then (s.activateWritten e).complete e .digest 0 0
      else if ((s.activateWritten e).slotTaken (e.p 8 1) (s.fwImage (s.fwDir.1.region (e.p 8 1)))).sec.recovery then
        ((s.activateWritten e).slotTaken (e.p 8 1) (s.fwImage (s.fwDir.1.region (e.p 8 1)))).recoveryLeft.complete e .ok 0 0
      else (((s.activateWritten e).slotTaken (e.p 8 1) (s.fwImage (s.fwDir.1.region (e.p 8 1)))).reloadsDue.reloadQueued e).fwCheck)
    (fun c => (s.activateJudged e).complete e c 0 0)) := by
  refine congrArg Host.Outcome.next ((begin_act hb _).trans ?_)
  have hcheck : (s.marked e).activateCheck e = s.activateCheck e := rfl
  have himg : (s.marked e).fwImage ((s.marked e).fwDir.1.region (e.p 8 1)) = s.fwImage (s.fwDir.1.region (e.p 8 1)) := rfl
  dsimp only
  rw [hcheck, himg]
  unfold State.activateWritten State.activateReads State.activateJudged
  generalize s.activateCheck e = c
  generalize s.fwImage (s.fwDir.1.region (e.p 8 1)) = img
  cases c <;> rfl

theorem activateJudged_sec (s : State) (e : Entry) : (s.activateJudged e).sec = s.sec :=
  activateJudged_keep (fun s => s.sec) (fun _ _ _ => rfl) (fun _ _ _ => rfl) s e

theorem activateWritten_sec (s : State) (e : Entry) :
    (s.activateWritten e).sec = (s.dirWrite { s.fwDir.1 with active := e.p 8 1 } (s.activateReads e)).sec := by
  have hsec := activateJudged_sec s e
  have hdir : (s.activateJudged e).fwDir = s.fwDir := fwDir_of_flash (congrArg SecSt.flash hsec)
  unfold State.activateWritten
  rw [hdir]
  exact dirWrite_sec (z := (s.activateJudged e).withFree ((s.activateJudged e).free + 1)) hsec _ _

theorem activateWritten_keep {β : Type} (g : State → β) (hq : ∀ s q f, g (State.modQueue s q f) = g s) (hw : ∀ s o v, g (State.wr s o v) = g s)
    (hf : ∀ s f, g { s with sec := { s.sec with flash := f } } = g s) (hn : ∀ s n, g (State.withFree s n) = g s) (s : State) (e : Entry) :
    g (s.activateWritten e) = g s :=
  (dirWrite_keep g hf _ _ _).trans ((hn _ _).trans (activateJudged_keep g hq hw s e))

theorem activateWritten_recovery (s : State) (e : Entry) : (s.activateWritten e).sec.recovery = s.sec.recovery :=
  activateWritten_keep (fun s => s.sec.recovery) (fun _ _ _ => rfl) (fun _ _ _ => rfl) (fun _ _ => rfl) (fun _ _ => rfl) s e

theorem slotTaken_sec (y : State) (slot : Nat) (img : List Byte) :
    (y.slotTaken slot img).sec.active = slot ∧ (y.slotTaken slot img).sec.svn = fwSvn img ∧ (y.slotTaken slot img).sec.meas = fwMeas img := ⟨rfl, rfl, rfl⟩

theorem recoveryLeft_sec (y : State) : y.recoveryLeft.sec = { y.sec with recovery := false, fail := false, bcode := 0, stage := 5 } :=
  cfgAdvance_keep (fun s => s.sec) (fun _ _ => rfl) (fun _ _ => rfl) _

theorem complete_sec (s : State) (e : Entry) (c : Code) (r0 r1 fl gn : Nat) : (s.complete e c r0 r1 fl gn).sec = s.sec :=
  complete_keep (fun s => s.sec) (fun _ _ _ => rfl) (fun _ _ => rfl) (fun _ _ _ => rfl) (fun _ _ _ => rfl) s e c r0 r1 fl gn

theorem reloadsDue_keep {β : Type} (g : State → β) (h : ∀ s k f, g (State.modCmp s k f) = g s) (y : State) : g y.reloadsDue = g y :=
  foldl_keep g (fun s k => s.modCmp k (fun x => { x with fw := false, fwDue := !s.fenced (uCmp k) })) (fun _ _ => h _ _ _) _ y

theorem reloadsDue_cmp (y : State) (j : Nat) (hj : j < 17) : (y.reloadsDue.cmp j).fw = false ∧ (y.reloadsDue.cmp j).fwDue = !y.fenced (uCmp j) := by
  unfold State.reloadsDue
  exact due_fold y (List.range 17) List.nodup_range y (fun _ => rfl) j (List.mem_range.mpr hj)

theorem reloadQueued_frame (z : State) (e : Entry) : (z.reloadQueued e).sec = { z.sec with op := 2 } ∧
    (z.reloadQueued e).jobs = z.jobs ++ [{ e := e, kind := 17 }] ∧ ∀ j, (z.reloadQueued e).cmp j = z.cmp j := ⟨rfl, rfl, fun _ => rfl⟩

theorem reloadQueued_spec (y : State) (e : Entry) : (y.reloadsDue.reloadQueued e).sec = { y.sec with op := 2 } ∧
    (y.reloadsDue.reloadQueued e).jobs = y.jobs ++ [{ e := e, kind := 17 }] ∧
    ∀ j, j < 17 → ((y.reloadsDue.reloadQueued e).cmp j).fw = false ∧ ((y.reloadsDue.reloadQueued e).cmp j).fwDue = !y.fenced (uCmp j) := by
  obtain ⟨hsec, hjobs, hcmp⟩ := reloadQueued_frame y.reloadsDue e
  have hsec' : y.reloadsDue.sec = y.sec := reloadsDue_keep (fun s => s.sec) (fun _ _ _ => rfl) y
  have hjobs' : y.reloadsDue.jobs = y.jobs := reloadsDue_keep (fun s => s.jobs) (fun _ _ _ => rfl) y
  rw [hsec, hjobs, hsec', hjobs']
  refine ⟨rfl, rfl, fun j hj => ?_⟩
  rw [hcmp]
  exact reloadsDue_cmp y j hj

/-- While a compositor is still to reload, the command is not answered. -/
theorem fwCheck_waits {z : State} {k : Nat} (hk : k < 17) (h : (z.cmp k).fwDue = true) : z.fwCheck = z :=
  if_pos (List.any_eq_true.mpr ⟨k, List.mem_range.mpr hk, h⟩)

/-! ### RBCOMMIT (R522) -/

/-- The write of SVNMIN that RBCOMMIT asks of the Colophon. -/
def State.svnWrite (s : State) : ColWrite :=
  { steps := [{ home := 38, recs := [(0, leBytes 4 s.sec.svn ++ leBytes 4 (s.reg .sec 0 0x6C) ++ leBytes 8 0)] }], k := 20, args := [s.sec.svn] }

theorem colQueue_write (s : State) : s.colQueue s.svnWrite = s.withCol { s.col with queue := s.col.queue ++ [s.svnWrite] } := if_neg Bool.false_ne_true

theorem exec_rbcommit_bad {value : Word} {c : Code} (hok : s.regBad (rOff .sec 0 0x54) value.toNat = none) (hgo : bit value.toNat 0 = true)
    (hc : firstBad [(s.fwCount != 17 || s.sec.fallback || s.sec.recovery, .state), (s.col.queue.any (fun w => w.k == 20), .busy)] = some c) :
    exec (.rbcommit value) s = .next (s.rejectOff (rOff .sec 0 0x54) c) := by
  refine congrArg Host.Outcome.next (regWrite_bad ?_)
  rw [hok, hgo]
  exact hc

theorem exec_rbcommit_good {value : Word} (hok : s.regBad (rOff .sec 0 0x54) value.toNat = none) (hgo : bit value.toNat 0 = true)
    (hc : firstBad [(s.fwCount != 17 || s.sec.fallback || s.sec.recovery, .state), (s.col.queue.any (fun w => w.k == 20), .busy)] = none) :
    exec (.rbcommit value) s = .next (if decide (s.sec.svn > s.sec.svnMin) then s.colQueue s.svnWrite else s) := by
  show execRbcommit value s = _
  unfold execRbcommit
  dsimp only
  rw [hgo]
  exact congrArg Host.Outcome.next (regWrite_ok hok rfl hc)

/-- All compositors run the image that booted, with neither FALLBACK nor RECOVERY. -/
theorem rbcommit_stateless (h17 : s.fwCount = 17) (hfb : s.sec.fallback = false) (hrec : s.sec.recovery = false) :
    (s.fwCount != 17 || s.sec.fallback || s.sec.recovery) = false := by
  rw [h17, hfb, hrec]; rfl

end

/-- Settles O50: FW_STAGE's checks are one ordered list, its end and FW_ACTIVATE's are the states above, and RBCOMMIT queues one write. -/
theorem firmwareIsStagedAndActivated : Obligations.FirmwareIsStagedAndActivated := by
  unfold Obligations.FirmwareIsStagedAndActivated
  intro s
  refine ⟨fun e img => ⟨fun h hn => stageCheck_length h hn, ?_⟩, fun e image hb => ?_, fun e img hjob => ⟨fun ok => stageDone_job hjob false ok,
    stageDone_job hjob true true, stageDone_job hjob true false⟩, fun e hb => ⟨fun c hc => ?_, fun hc => ?_⟩,
    fun value hok hgo => ⟨fun hno => ?_, fun h17 hfb hrec hq => ?_, fun h17 hfb hrec hq => ⟨fun hle => ?_, fun hlt => ?_⟩⟩⟩
  · have hstart : ∀ {k : Nat}, entryBad e [2] false [(8, 12)] false = none ∧ 17472 ≤ e.p 16 4 ∧ e.p 16 4 ≤ 8388608 ∧ e.p 16 4 % 64 = 0 ∧
        (1 ≤ k → e.p 8 8 % 64 = 0) ∧ (2 ≤ k → s.locked 5 = false) ∧ (3 ≤ k → s.sec.op = 0) ∧ (4 ≤ k → fwHeader img = true ∧ fwLen img = e.p 16 4) ∧
        (5 ≤ k → fwSigFails img = 0) ∧ (6 ≤ k → s.sec.svnMin ≤ fwSvn img) → stageEntryOk e := fun ⟨hentry, hlo, hhi, hal, _⟩ => ⟨hentry, hlo, hhi, hal⟩
    refine ⟨fun h hal => ?_, fun h hl => ?_, fun h hop => ?_, fun h hh => ?_, fun h hs => ?_, fun h hv => ?_, fun h => ?_⟩
    all_goals
      rw [stageCheck_ordered (hstart h)]
      obtain ⟨-, -, -, -, halign, hlock, hidle, hhead, hsig, hsvn⟩ := h
      replace halign := fun k1 => decide_eq_false (not_not_intro (halign k1))
      replace hidle := fun k3 => bne_idle (hidle k3)
      replace hhead := fun k4 => headBad_false (hhead k4)
      replace hsig := fun k5 => bne_idle (hsig k5)
    · exact firstBad_hit (decide_eq_true hal) _ _
    · rw [firstBad_skip (halign (by decide))]
      exact firstBad_hit hl _ _
    · rw [firstBad_skip (halign (by decide)), firstBad_skip (hlock (by decide))]
      exact firstBad_hit (bne_iff_ne.mpr hop) _ _
    · rw [firstBad_skip (halign (by decide)), firstBad_skip (hlock (by decide)), firstBad_skip (hidle (by decide))]
      exact firstBad_hit (headBad_iff.mpr hh) _ _
    · rw [firstBad_skip (halign (by decide)), firstBad_skip (hlock (by decide)), firstBad_skip (hidle (by decide)),
        firstBad_skip (hhead (by decide))]
      exact firstBad_hit (bne_iff_ne.mpr hs) _ _
    · rw [firstBad_skip (halign (by decide)), firstBad_skip (hlock (by decide)), firstBad_skip (hidle (by decide)),
        firstBad_skip (hhead (by decide)), firstBad_skip (hsig (by decide))]
      exact firstBad_hit (decide_eq_true hv) _ _
    · rw [firstBad_skip (halign (by decide)), firstBad_skip (hlock (by decide)), firstBad_skip (hidle (by decide)),
        firstBad_skip (hhead (by decide)), firstBad_skip (hsig (by decide)), firstBad_skip (decide_eq_false (Nat.not_lt.mpr (hsvn (by decide))))]
      rfl
  · have hexec := exec_fwStage hb image
    generalize sliceB image 0 (min (e.p 16 4) 8388608) = img at hexec
    have hsec := stageJudged_keep (fun s => s.sec) (fun _ _ _ => rfl) (fun _ _ _ => rfl) s e img
    have hbyte := fun a => stageJudged_keep (fun s => s.memByte a) (fun _ _ _ => rfl) (fun _ _ _ => rfl) s e img
    have hlp := fun a => stageJudged_keep (fun s => s.lpByte a) (fun _ _ _ => rfl) (fun _ _ _ => rfl) s e img
    dsimp only at hexec
    generalize s.stageJudged e img = y at hexec hsec hbyte hlp
    have hflash := programRegion_flash hsec img
    obtain ⟨hop, hfwJob, hactive, hmem⟩ := programRegion_frame y img
    generalize y.programRegion img = z at hexec hflash hop hfwJob hactive hmem
    refine ⟨fun c hc => ⟨y, ?_, hsec⟩, fun hc hp => ?_, fun hc hp => ⟨z, ?_, ?_, ?_⟩⟩
    · rw [hexec, hc]; rfl
    · rw [hc, hp] at hexec
      refine gives hexec ⟨rfl, rfl, ?_, ?_, fun a => (hmem.1 a).trans (hbyte a), fun a => (hmem.2 a).trans (hlp a)⟩
      · show z.sec.flash = _
        rw [hflash]
      · exact hactive.trans (by rw [hsec])
    · rw [hexec, hc, hp]; rfl
    · rw [hop, hsec]
    · rw [hfwJob, hsec]
  · refine ⟨s.activateJudged e, ?_, activateJudged_sec s e⟩
    rw [exec_fwActivate hb, hc]; rfl
  · have hexec := exec_fwActivate hb
    have hrecov := activateWritten_recovery s e
    have hfenced : ∀ u, (s.activateWritten e).fenced u = s.fenced u := fun u =>
      activateWritten_keep (fun s => s.fenced u) (fun _ _ _ => rfl) (fun _ _ _ => rfl) (fun _ _ => rfl) (fun _ _ => rfl) s e
    have hjobs : (s.activateWritten e).jobs = s.jobs :=
      activateWritten_keep (fun s => s.jobs) (fun _ _ _ => rfl) (fun _ _ _ => rfl) (fun _ _ => rfl) (fun _ _ => rfl) s e
    refine ⟨s.activateReads e, s.activateWritten e, activateWritten_sec s e, ?_⟩
    rw [hc, Option.elim_none] at hexec
    generalize s.activateWritten e = y at hexec hrecov hfenced hjobs
    generalize s.activateReads e = ok at hexec
    generalize s.fwImage (s.fwDir.1.region (e.p 8 1)) = img at hexec
    have hslotRec : (y.slotTaken (e.p 8 1) img).sec.recovery = s.sec.recovery := hrecov
    refine ⟨fun hno => ?_, fun hyes hrec => ?_, fun hyes hrec k hk hf => ?_⟩
    · rw [hno] at hexec; exact hexec
    · rw [hyes, hslotRec, hrec, if_neg (by decide), if_pos rfl] at hexec
      refine gives hexec ?_
      rw [complete_sec, recoveryLeft_sec]
      exact ⟨rfl, rfl, rfl, rfl, rfl, rfl⟩
    · rw [hyes, hslotRec, hrec, if_neg (by decide), if_neg (by decide)] at hexec
      have hslotFen : ∀ u, (y.slotTaken (e.p 8 1) img).fenced u = s.fenced u := hfenced
      have hslotJobs : (y.slotTaken (e.p 8 1) img).jobs = s.jobs := hjobs
      obtain ⟨hactive, hsvn, hmeas⟩ := slotTaken_sec y (e.p 8 1) img
      generalize y.slotTaken (e.p 8 1) img = w at hexec hslotFen hslotJobs hactive hsvn hmeas
      obtain ⟨hsec, hjob, hdue⟩ := reloadQueued_spec w e
      generalize w.reloadsDue.reloadQueued e = v at hexec hsec hjob hdue
      rw [fwCheck_waits hk ((hdue k hk).2.trans (by rw [hslotFen, hf]; rfl))] at hexec
      refine gives hexec ?_
      rw [hsec, hjob, hslotJobs]
      exact ⟨rfl, hactive, hsvn, hmeas, fun j hj => ⟨(hdue j hj).1, (hdue j hj).2.trans (by rw [hslotFen])⟩, rfl⟩
  · refine exec_rbcommit_bad hok hgo (firstBad_hit ?_ _ _)
    rcases hno with h | h | h
    · rw [bne_iff_ne.mpr h]; rfl
    · rw [h, Bool.or_true]; rfl
    · rw [h, Bool.or_true]
  · exact exec_rbcommit_bad hok hgo ((firstBad_skip (rbcommit_stateless h17 hfb hrec) _).trans (firstBad_hit hq _ _))
  · refine (exec_rbcommit_good hok hgo ((firstBad_skip (rbcommit_stateless h17 hfb hrec) _).trans (firstBad_skip hq _))).trans ?_
    rw [decide_eq_false (Nat.not_lt.mpr hle), if_neg Bool.false_ne_true]
  · have hexec := exec_rbcommit_good hok hgo ((firstBad_skip (rbcommit_stateless h17 hfb hrec) _).trans (firstBad_skip hq _))
    rw [decide_eq_true hlt, if_pos rfl, colQueue_write] at hexec
    exact gives hexec ⟨rfl, (withCol_frame s _).1, (withCol_frame s _).2, rfl⟩

end Sys2Proof.Machine
end
